-- ==== Sys2Proof/Word.lean ====
section
/-! DEFINITION. The word types of the Ossil L12 and their plainest packing (spec/00_scope.md R11: a multi-byte field is little-endian). -/
namespace Sys2Proof

/-- One byte, the smallest addressable unit (R139, R199). -/
abbrev Byte := BitVec 8
/-- A register of register block space (R462). -/
abbrev Word32 := BitVec 32
/-- A general register of a scalar core (R99). -/
abbrev Word64 := BitVec 64
/-- A physical site index s = 256n + 16mm + kk (R462). -/
abbrev Site := Fin 3072
/-- A physical cluster index c = 16n + mm (R6). -/
abbrev Cluster := Fin 192
/-- A field F0 to F11 (R5). -/
abbrev Field := Fin 12
/-- An HBM stack H00 to H23 (R8). -/
abbrev Stack := Fin 24
/-- A power zone Z00 to Z23 (R9). -/
abbrev Zone := Fin 24
/-- A region 0 to 63 (R275). -/
abbrev RegionId := Fin 64
/-- A scalar core of a tile: SC0 or SC1 (R99). -/
abbrev CoreId := Fin 2
/-- A general register number (R99). -/
abbrev Reg := Fin 32
/-- A master identity of ten bits (R467). -/
abbrev Master := BitVec 10
/-- A fabric or twin link: FL00 to FL15 are 0 to 15, TW0 is 16, TW1 is 17 (R498). -/
abbrev LinkId := Fin 18

end Sys2Proof
end

