-- ==== Sys2Proof/Syntax.lean ====
section
/-! DEFINITION. The commands of the block: one constructor of `Instr` for each row of spec/opcode_table.json, with the operands the row's rule names. -/
namespace Sys2Proof

/-- A host-side port on which ODP arrives (R401). -/
inductive HostPort where
  | hp0 | hp1 | mp
deriving DecidableEq, Repr

/-- The parts of an ODP request frame that every opcode shares: where it came from, whether it came to the pair address, the UDP port it came to, and its header (R406, R412, R430, R452, R508). -/
structure Frame where
  port : HostPort
  toPair : Bool
  mac : BitVec 48
  ip : BitVec 128
  udp : BitVec 16
  dport : BitVec 16
  session : BitVec 16
  seq : BitVec 32
  ack : BitVec 32
deriving DecidableEq, Repr

/-- The UDP ports of a datagram: its source's, and the one it came to (R406, R452). -/
structure UdpPorts where
  src : BitVec 16
  dst : BitVec 16
deriving DecidableEq, Repr

/-- What the reads and grants of a command meet in a scratchpad or a field memory, given by the surroundings: stored bits that changed since the row was written (bits 63 to 0 of a word's 72 are its data, bits 71 to 64 its check bits), copies of a sector's tag that changed, or other requestors that want the bank of a row from the cycle of the command's own request on (R144, R151). `row` is the row in the tile, or in the field's memory. -/
inductive RowEvent where
  | upset (row : Nat) (word : Fin 64) (flip : BitVec 72)
  | tagUpset (row : Nat) (sector : Fin 8) (copies : BitVec 3)
  | rivals (row : Nat) (requestor : Fin 10) (others : List (Fin 10))
deriving DecidableEq, Repr

/-- A transient corruption of one drained value of a pass: local row, physical column (64 is the check column), MX half and the bits flipped (R80 to R88). -/
structure CellFault where
  row : Fin 65
  col : Fin 65
  half : Fin 2
  flip : BitVec 32
deriving DecidableEq, Repr

/-- Cycles in which the array froze, by cause, and in all (R75). -/
structure Freezes where
  feed : Nat
  wload : Nat
  drain : Nat
  total : Nat
deriving DecidableEq, Repr

/-- The four command queues of a tile (R112). -/
inductive QueueId where
  | array | vector | move | sync
deriving DecidableEq, Repr

/-- Who executes a fence: a scalar core or the sync queue (R226). -/
inductive FenceAgent where
  | core (c : CoreId) | sync
deriving DecidableEq, Repr

/-- A branch of a multicast tree, named by the level whose fork holds it (R201, R203). -/
inductive McBranch where
  | field (n : Field) | cluster (c : Cluster) | quadrant (c : Cluster) (q : Fin 4) | tile (s : Site)
deriving DecidableEq, Repr

/-- What sends a release notice: a barrier group or a region's step (R232, R234). -/
inductive NoticeSrc where
  | group (g : Fin 64) | step (r : RegionId)
deriving DecidableEq, Repr

/-- Who receives a release notice (R232, R233). -/
inductive NoticeDst where
  | tile (s : Site) | regulator (c : Cluster)
deriving DecidableEq, Repr

/-- A directed link of the on-die network, named at its receiver (R187, R196, R209). Ports are N, E, S, W, hub. -/
inductive DieLink where
  | mesh (s : Site) (p : Fin 5) | hub (n : Field)
deriving DecidableEq, Repr

/-- What the controller finds when it reads or writes a row: sectors it corrects, sectors it cannot correct, on-die corrections that the stack reports, and a sector whose command or data failed its parity, with the number of failures (R253 to R256). -/
structure HbmFind where
  corrected : List (Fin 8)
  bad : List (Fin 8)
  onDie : Nat
  parity : Option (Fin 8 × Nat)
deriving DecidableEq, Repr

/-- An access that meets no error. -/
def HbmFind.clean : HbmFind := { corrected := [], bad := [], onDie := 0, parity := none }

/-- What one memory access through the register window meets (R151, R253 to R256, R460). -/
structure WindowFind where
  events : List RowEvent
  found : HbmFind
deriving DecidableEq, Repr

/-- An access that meets no error. -/
def WindowFind.clean : WindowFind := { events := [], found := .clean }

/-- What the hood's programs left for one member at the end of a step (R298, R303, R528, R621). -/
structure MemberOut where
  tag : BitVec 32
  logits : List (BitVec 32)
  logitsPoison : Bool
  bytes : List Byte
  bytesPoison : Bool
  /-- The pages that its programs filled in the step, each in the form in which it stood open, in page order (R289, R290). -/
  filled : List (List Byte)
  pagesPoison : List Nat
  adapterPoison : Bool
deriving DecidableEq, Repr

/-- The kinds of unit that keep a local counter (R339, 0x2200:11). -/
inductive TimeUnitId where
  | tile (s : Site) | clusterHub (c : Cluster) | fieldHub (n : Field) | other (k : Nat)
deriving DecidableEq, Repr

/-- Why a regulator disables a phase (R370). -/
inductive PhaseCause where
  | overcurrent | imbalance | test
deriving DecidableEq, Repr

/-- Which limit opens a zone fuse (R373). -/
inductive FuseCause where
  | above440 | above330
deriving DecidableEq, Repr

/-- A bring-up unit's readings, given by the surroundings when a step's work ends (R561 to R569). -/
structure StageReading where
  zone : Zone
  answered : Bool
  mfr : List Byte
  model : List Byte
  ratedAmps : Nat
  milliVolts : Nat
deriving DecidableEq, Repr

structure ModuleReading where
  link : Fin 20
  lower : List Byte
  upper : List Byte
  suitable : Bool
  fifthLane : Bool
deriving DecidableEq, Repr

structure StackTraining where
  stack : Stack
  identity : List Byte
  identityRead : Bool
  trains64 : Bool
  trains96 : Bool
  lanesRepaired : Nat
  lanesExceeded : Bool
  laneTestPassed : Bool
deriving DecidableEq, Repr

/-- What a group of 32 seam wires carries: the mesh link at a site's port, or a lane of a field's trunk N, E, S or W (R198). -/
inductive SeamLane where
  | link (s : Site) (p : Fin 4)
  | trunk (t : Fin 4) (lane : Fin 8)
deriving DecidableEq, Repr

/-- A group in which link training found failed wires: its number in defect records, its lane, and how many wires failed (R198). -/
structure SeamGroup where
  number : BitVec 32
  lane : SeamLane
  failed : Nat
deriving DecidableEq, Repr

/-- The groups with failed wires that a field hub's link training found (R198). -/
structure SeamResult where
  field : Field
  groups : List SeamGroup
deriving DecidableEq, Repr

/-- A defect record of 16 bytes in its fields (R549, R568). -/
structure Defect where
  kind : BitVec 8
  source : BitVec 8
  unit : BitVec 16
  detail : BitVec 32
  ptp : BitVec 64
deriving DecidableEq, Repr

/-- What the surroundings and the tests report for the work of one bring-up step (R561). -/
structure BringObs where
  eeprom : Option (List Byte)
  stages : List StageReading
  modules : List ModuleReading
  hbmStacks : List StackTraining
  trims : List (Cluster × Nat)
  pounceFails : List Site
  seams : List SeamResult
  hubsSilent : List Cluster
  links : List (LinkId × Nat)
deriving DecidableEq, Repr

/-- The report of a group member (R395, R504). -/
structure SlackReport where
  groupId : BitVec 32
  budget : Nat
  period : Nat
  epoch : Nat
  rank : Fin 64
  straggler : Bool
  share : Nat
  gradeMax : Nat
  slack : Nat
deriving DecidableEq, Repr

/-- One entry of a READ_GROUP or SUBSCRIBE watch: index and subindex. -/
abbrev ObjRef := BitVec 16 × BitVec 8

/-- One entry of a WRITE_GROUP: object and value (R410). -/
structure ObjWrite where
  idx : BitVec 16
  sub : BitVec 8
  value : List Byte
deriving DecidableEq, Repr

/-- The segment header of a BLOCK_WRITE (R414). -/
structure Segment where
  idx : BitVec 16
  sub : BitVec 8
  first : Bool
  last : Bool
  offset : Nat
  total : Nat
  zeroTail : Bool
  data : List Byte
deriving DecidableEq, Repr

/-- A ring descriptor of SESSION_OPEN (R422). -/
structure RingDesc where
  addr : BitVec 64
  key : BitVec 32
  entries : Nat
  consumer : BitVec 64
  qp : BitVec 24
  zeroTail : Bool
deriving DecidableEq, Repr

/-- The payload of SESSION_OPEN (R410). -/
structure OpenReq where
  role : BitVec 8
  keepalive : Nat
  altIp : BitVec 128
  altUdp : BitVec 16
  rings : List RingDesc
  credential : List Byte
deriving DecidableEq, Repr

/-- A fabric packet of the Ossil Fabric Protocol, header and payload (R495). -/
structure FabPacket where
  dst : BitVec 10
  src : BitVec 10
  kind : BitVec 8
  channel : Fin 4
  aperture : Fin 16
  sem : BitVec 8
  generation : BitVec 16
  offset : Nat
  transaction : BitVec 64
  poison : BitVec 64
  status : BitVec 8
  payload : List Byte
  linkSeq : Nat
  linkAck : Nat
deriving DecidableEq, Repr

/-- A fabric packet as it arrives, with what the rows that it reads or writes meet (R151, R253 to R256). -/
structure FabArrival where
  packet : FabPacket
  events : List RowEvent
  found : List HbmFind
deriving DecidableEq, Repr

/-- The envelope of a twin message: its link, the sender's journal epoch and sequence (R512). -/
structure TwinHdr where
  link : Fin 2
  epoch : Nat
  mseq : Nat
deriving DecidableEq, Repr

/-- A HELLO's content (R506). -/
structure HelloMsg where
  serial : List Byte
  build : List Byte
  profile : BitVec 8
  matchKey : List Byte
  modeRequest : BitVec 8
  front : Bool
deriving DecidableEq, Repr

/-- A HEARTBEAT's content (R512, R525). -/
structure BeatMsg where
  devTime : Nat
  state : BitVec 8
  front : Bool
  acked : Nat
  fabricId : BitVec 16
  rates : List Byte
deriving DecidableEq, Repr

/-- A journal record as it is stored and streamed (R325). -/
structure JRecord where
  time : Nat
  seq : Nat
  type : BitVec 8
  region : BitVec 8
  payload : List Byte
deriving DecidableEq, Repr

/-- The tokens of one order in a TOKENS message (R512). -/
structure TokenMsg where
  tag : BitVec 32
  firstDraw : Nat
  tokens : List (BitVec 32)
deriving DecidableEq, Repr

/-- A pair session's state in a SESSION message (R512, R520). -/
structure SessionMsg where
  number : Fin 17
  opened : Bool
  role : BitVec 8
  token : BitVec 32
  edge : BitVec 32
  rings : List RingDesc
  counts : List Nat
deriving DecidableEq, Repr

/-- A PTP Announce's content as far as the device keeps it (R342, R453). -/
structure AnnounceMsg where
  parent : List Byte
  grandmaster : List Byte
  quality : List Byte
  steps : Nat
  utcOffset : Int
deriving DecidableEq, Repr

/-- How a Pounce test ended (R540). -/
inductive TestEnd where
  | pass | fail (detail : BitVec 32) | aborted
deriving DecidableEq, Repr

/-- An error record as it reaches the error block (R480, R547). -/
structure ErrRecord where
  time : Nat
  kind : BitVec 16
  region : BitVec 8
  master : Master
  tile : BitVec 16
  unit : BitVec 16
  body : List Byte
deriving DecidableEq, Repr

/-- The cause of a MESH or fabric power rail excursion (R607). -/
inductive RailFault where
  | below145 | above185
deriving DecidableEq, Repr

/-- A read of objects: its frame, and what its reads of memory through the register window meet, in their order (R410, R460). -/
structure ReadFrame where
  frame : Frame
  finds : List WindowFind
deriving DecidableEq, Repr

/-- What the first read of memory meets. -/
def ReadFrame.find (a : ReadFrame) : WindowFind := a.finds.headD .clean

/-- A write of objects: its frame, and the host buffer that a replay source in it names (R331, R410). -/
structure WriteFrame where
  frame : Frame
  buffer : List JRecord
deriving DecidableEq, Repr

/-- A unit's work on rows of its tile: its site, and what the rows meet. -/
structure SiteRows where
  site : Site
  events : List RowEvent
deriving DecidableEq, Repr

/-- A weight tile that streams in: its tile, and what the rows meet at a field memory or in HBM (R119, R620). -/
structure StreamRows where
  site : Site
  events : List RowEvent
  found : List HbmFind
deriving DecidableEq, Repr

/-- A packet of the on-die network as it arrives, and what its row meets at the end of its way. -/
structure PacketRows where
  packet : Nat
  events : List RowEvent
deriving DecidableEq, Repr

/-- A bank of an HBM stack, named by its pseudo-channel and its byte 18 of R269. -/
structure StackBank where
  stack : Stack
  bank : Fin 8192
deriving DecidableEq, Repr

/-- A stack's part of a region's ranges (R260). -/
structure RegionPart where
  region : RegionId
  stack : Stack
deriving DecidableEq, Repr

/-- The commands of the block, one for each row of spec/opcode_table.json. -/
inductive Instr where
  -- scalar cores: arithmetic and logic (R102)
  | add (site : Site) (core : CoreId) (rd ra rb : Reg)
  | sub (site : Site) (core : CoreId) (rd ra rb : Reg)
  | and (site : Site) (core : CoreId) (rd ra rb : Reg)
  | or (site : Site) (core : CoreId) (rd ra rb : Reg)
  | xor (site : Site) (core : CoreId) (rd ra rb : Reg)
  | sll (site : Site) (core : CoreId) (rd ra rb : Reg)
  | srl (site : Site) (core : CoreId) (rd ra rb : Reg)
  | sra (site : Site) (core : CoreId) (rd ra rb : Reg)
  | slt (site : Site) (core : CoreId) (rd ra rb : Reg)
  | sltu (site : Site) (core : CoreId) (rd ra rb : Reg)
  | min (site : Site) (core : CoreId) (rd ra rb : Reg)
  | max (site : Site) (core : CoreId) (rd ra rb : Reg)
  | mul (site : Site) (core : CoreId) (rd ra rb : Reg)
  | mulhu (site : Site) (core : CoreId) (rd ra rb : Reg)
  | div (site : Site) (core : CoreId) (rd ra rb : Reg)
  | divu (site : Site) (core : CoreId) (rd ra rb : Reg)
  | rem (site : Site) (core : CoreId) (rd ra rb : Reg)
  | remu (site : Site) (core : CoreId) (rd ra rb : Reg)
  | addi (site : Site) (core : CoreId) (rd ra : Reg) (imm : BitVec 16)
  | andi (site : Site) (core : CoreId) (rd ra : Reg) (imm : BitVec 16)
  | ori (site : Site) (core : CoreId) (rd ra : Reg) (imm : BitVec 16)
  | xori (site : Site) (core : CoreId) (rd ra : Reg) (imm : BitVec 16)
  | slli (site : Site) (core : CoreId) (rd ra : Reg) (imm : BitVec 16)
  | srli (site : Site) (core : CoreId) (rd ra : Reg) (imm : BitVec 16)
  | srai (site : Site) (core : CoreId) (rd ra : Reg) (imm : BitVec 16)
  | slti (site : Site) (core : CoreId) (rd ra : Reg) (imm : BitVec 16)
  | lui (site : Site) (core : CoreId) (rd : Reg) (imm : BitVec 16)
  | lhi (site : Site) (core : CoreId) (rd : Reg) (imm : BitVec 16)
  -- control transfer (R617)
  | beq (site : Site) (core : CoreId) (ra rb : Reg) (off : BitVec 16)
  | bne (site : Site) (core : CoreId) (ra rb : Reg) (off : BitVec 16)
  | blt (site : Site) (core : CoreId) (ra rb : Reg) (off : BitVec 16)
  | bge (site : Site) (core : CoreId) (ra rb : Reg) (off : BitVec 16)
  | bltu (site : Site) (core : CoreId) (ra rb : Reg) (off : BitVec 16)
  | bgeu (site : Site) (core : CoreId) (ra rb : Reg) (off : BitVec 16)
  | j (site : Site) (core : CoreId) (off : BitVec 26)
  | jal (site : Site) (core : CoreId) (off : BitVec 26)
  | jr (site : Site) (core : CoreId) (rd ra : Reg) (imm : BitVec 16)
  -- row latch (R104, R105)
  | lb (site : Site) (core : CoreId) (rd ra : Reg) (imm : BitVec 16)
  | lh (site : Site) (core : CoreId) (rd ra : Reg) (imm : BitVec 16)
  | lw (site : Site) (core : CoreId) (rd ra : Reg) (imm : BitVec 16)
  | ld (site : Site) (core : CoreId) (rd ra : Reg) (imm : BitVec 16)
  | lbu (site : Site) (core : CoreId) (rd ra : Reg) (imm : BitVec 16)
  | lhu (site : Site) (core : CoreId) (rd ra : Reg) (imm : BitVec 16)
  | lwu (site : Site) (core : CoreId) (rd ra : Reg) (imm : BitVec 16)
  | sb (site : Site) (core : CoreId) (rd ra : Reg) (imm : BitVec 16)
  | sh (site : Site) (core : CoreId) (rd ra : Reg) (imm : BitVec 16)
  | sw (site : Site) (core : CoreId) (rd ra : Reg) (imm : BitVec 16)
  | sd (site : Site) (core : CoreId) (rd ra : Reg) (imm : BitVec 16)
  | lld (site : Site) (core : CoreId) (ra : Reg) (imm : BitVec 16) (events : List RowEvent)
  | lldComplete (site : Site) (core : CoreId) (row : BitVec 13)
  | lst (site : Site) (core : CoreId) (ra : Reg) (imm : BitVec 16) (events : List RowEvent)
  -- queues, semaphores, system (R114, R216, R106 to R108)
  | qpush (site : Site) (core : CoreId) (rd ra rb : Reg)
  | qtry (site : Site) (core : CoreId) (rd ra rb : Reg)
  | semsig (site : Site) (core : CoreId) (ra : Reg) (imm : BitVec 16)
  | semwait (site : Site) (core : CoreId) (ra : Reg) (imm : BitVec 16)
  | semrd (site : Site) (core : CoreId) (rd : Reg) (imm : BitVec 16)
  | crr (site : Site) (core : CoreId) (rd : Reg) (imm : BitVec 16)
  | crw (site : Site) (core : CoreId) (rd : Reg) (imm : BitVec 16)
  | fence (site : Site) (core : CoreId) (imm : BitVec 16)
  | fenceComplete (site : Site) (agent : FenceAgent)
  | trap (site : Site) (core : CoreId)
  | eret (site : Site) (core : CoreId)
  | halt (site : Site) (core : CoreId)
  | wfe (site : Site) (core : CoreId)
  | wfeWake (site : Site) (core : CoreId)
  -- array (R54 to R98) and gang sequencer (R136 to R138)
  | loadWarningRenewal (site : Site)
  | gangDeliver (field : Field) (region : RegionId)
  | mma (site : Site)
  | arrayStart (site : Site)
  | streamedWeightArrival (a : StreamRows)
  | passVerdict (site : Site) (faults : List CellFault) (freezes : Freezes) (events : List RowEvent)
  -- vector unit and special-function unit (R120 to R127)
  | vecCvt (site : Site) (events : List RowEvent)
  | vecAdd (site : Site) (events : List RowEvent)
  | vecSub (site : Site) (events : List RowEvent)
  | vecMul (site : Site) (events : List RowEvent)
  | vecFma (site : Site) (events : List RowEvent)
  | vecMax (site : Site) (events : List RowEvent)
  | vecMin (site : Site) (events : List RowEvent)
  | vecAbs (site : Site) (events : List RowEvent)
  | vecNeg (site : Site) (events : List RowEvent)
  | vecRsum (site : Site) (events : List RowEvent)
  | vecRmax (site : Site) (events : List RowEvent)
  | vecRsum64 (site : Site) (events : List RowEvent)
  | vecRmax64 (site : Site) (events : List RowEvent)
  | sfuExp (site : Site) (events : List RowEvent)
  | sfuLog (site : Site) (events : List RowEvent)
  | sfuRcp (site : Site) (events : List RowEvent)
  | sfuRsq (site : Site) (events : List RowEvent)
  | sfuSin (site : Site) (events : List RowEvent)
  | sfuCos (site : Site) (events : List RowEvent)
  | sfuErf (site : Site) (events : List RowEvent)
  -- move engine and network (R128 to R130, R159 to R163, R201 to R206)
  | moveCopy (site : Site) (events : List RowEvent)
  | moveGet (site : Site)
  | movePut (site : Site) (events : List RowEvent)
  | moveMcast (site : Site) (events : List RowEvent)
  | moveImem (site : Site) (events : List RowEvent)
  | moveZero (a : SiteRows)
  | remoteRowArrival (packet : Nat) (events : List RowEvent)
  | rowAcknowledge (a : PacketRows)
  | mcastBranchAbandon (site : Site) (seq : BitVec 16) (branch : McBranch)
  | mcastComplete (site : Site) (seq : BitVec 16)
  -- sync and control commands (R131, R133, R213 to R244)
  | syncSignal (site : Site)
  | syncWait (site : Site)
  | syncWatch (site : Site)
  | syncArrive (site : Site)
  | syncFence (site : Site)
  | syncUntil (site : Site)
  | untilExpire (site : Site)
  | ctrlNop (site : Site)
  | keyload (site : Site) (events : List RowEvent)
  | setbase (site : Site)
  | prewarn (site : Site)
  | commandRetire (site : Site) (queue : QueueId) (seq : BitVec 16)
  | remoteSignalArrival (packet : Nat)
  | barrierArrival (packet : Nat)
  | barrierDeadlineArm (group : Fin 64)
  | releaseNotice (src : NoticeSrc) (dst : NoticeDst)
  | barrierReleaseSlot (site : Site) (group : Fin 64)
  | barrierSlot31Pass (group : Fin 64)
  | bgDeadlineWrite (master : Master) (group : Fin 64) (value : BitVec 64)
  | bgEnClear (master : Master) (group : Fin 64) (value : BitVec 32)
  -- scratchpad power, repair and links of the die (R148, R152, R158, R196, R197, R234)
  | bankPowerRequest (master : Master) (site : Site) (value : BitVec 32)
  | bankWakeDone (site : Site) (bank : Fin 8)
  | bankFillDone (site : Site) (bank : Fin 8)
  | eccWriteback (site : Site) (bank : Fin 8)
  | spRowRemapInstall (site : Site) (row : BitVec 13)
  | flitCrcError (link : DieLink)
  | meshLinkDown (site : Site) (port : Fin 5)
  | tileReleaseSlot (site : Site)
  -- HBM (R250 to R264, R620)
  | hbmAccess (packet : Nat) (found : HbmFind)
  | patrolRead (stack : Stack) (found : HbmFind)
  | hbmRefresh (b : StackBank) (celsius : Int) (waitCycles : Nat)
  | hbmZeroingDone (part : RegionPart)
  | hbmRetrain (stack : Stack) (lanesRepaired : Nat) (cause : Fin 4)
  -- hoods, adapters and regions (R272 to R288)
  | hoodLoadRequest (f : Frame) (value : List Byte)
  | hoodImageFetched (id : BitVec 16) (image : Option (List Byte))
  | hoodUnload (f : Frame) (value : List Byte)
  | adapterLoadRequest (f : Frame) (value : List Byte)
  | adapterUnload (f : Frame) (value : List Byte)
  | configure (f : Frame) (region : RegionId)
  | stage (f : Frame) (region : RegionId)
  | stagingComplete (region : RegionId) (slot : Fin 2)
  | serve (f : Frame) (region : RegionId)
  | drain (f : Frame) (region : RegionId)
  | drainComplete (region : RegionId)
  | kill (f : Frame) (region : RegionId)
  | scrubDone (region : RegionId)
  | release (f : Frame) (region : RegionId)
  -- orders and steps (R295 to R308, R532 to R534)
  | submit (f : Frame) (order : List Byte)
  | contextLanded (tag : BitVec 32) (tokens : Option (List (BitVec 32)))
  | adapterCopied (tag : BitVec 32) (field : Field)
  | cancel (f : Frame) (target : BitVec 32)
  | batchClose (region : RegionId)
  | stepRelease (region : RegionId)
  | stepEnd (region : RegionId) (outs : List MemberOut)
  | recoveryStep (region : RegionId)
  | stepLimitExpiry (region : RegionId)
  | resultWrite (ring : Nat)
  | consumerCountRead (ring : Nat) (count : BitVec 32)
  -- determinism and journal (R309 to R336)
  | profileRequest (f : Frame) (value : List Byte)
  | surplusAssignment (f : Frame) (value : List Byte)
  | generatorInput (f : Frame) (value : List Byte)
  | hostAcknowledged (f : Frame) (value : List Byte)
  | hostStreamWrite
  | epochOpen
  | journalCompaction
  | replayRequest (f : Frame) (value : List Byte) (buffer : List JRecord)
  | replayStep (outs : List MemberOut)
  -- device time and clocks (R337 to R363)
  | timePacketSend
  | timePacketReceive (unit : TimeUnitId) (carried : Nat) (correction : Nat)
  | timePacketMissed (unit : TimeUnitId)
  | ptpSync (port : Fin 2) (offset : Int) (valid : Bool) (interval : Int)
  | ppsEdge (offsetDtu : Int)
  | ppsSeconds (f : Frame) (value : List Byte)
  | referenceLoss (b : Bool)
  | referencePresent (b : Bool)
  | disciplineLoss
  | holdoverExpiry
  | pointRequest (f : Frame) (value : List Byte)
  | voltageRaiseStart
  | frequencyChange (lagging : List Cluster)
  | freqLagConfirm (cluster : Cluster)
  | droopDetect (site : Site) (milliVolts : Nat)
  -- power (R364 to R397)
  | phaseDisable (cluster : Cluster) (phase : Fin 8) (cause : PhaseCause)
  | derateCapApply (cluster : Cluster)
  | regulatorTrip (cluster : Cluster)
  | zoneFuseOpen (zone : Zone) (cause : FuseCause)
  | pathResistanceCheck (zone : Zone) (stageMicroVolts : Int) (dieMicroVolts : Int) (milliAmps : Nat)
  | powerRequest (f : Frame) (zone : Zone) (value : List Byte)
  | powerUpAttempt (cluster : Cluster)
  | softStartDone (cluster : Cluster)
  | powerDownDone (cluster : Cluster)
  | loadBoostEnd (cluster : Cluster)
  | releaseBoostStart (cluster : Cluster)
  | releaseBoostEnd (cluster : Cluster)
  | powerEstimate (zonesMilliWatts : List Nat) (fixedMilliWatts : Nat)
  | zoneGainUpdate (zone : Zone) (measuredMilliWatts : Nat) (estimateMilliWatts : Nat)
  | deviceOffsetUpdate (measuredMilliWatts : Nat) (estimateMilliWatts : Nat)
  | capEpoch
  | thermalReading (cluster : Cluster) (celsius : Int)
  | fastCapDrop (cluster : Cluster)
  | zoneCurrentCheck (zone : Zone) (milliAmps : Nat)
  | marginTrim (cluster : Cluster) (halfMilliVolts : Nat)
  | groupEnable (f : Frame) (value : List Byte)
  | groupEpoch (ownSlack : Nat)
  | slack (report : SlackReport)
  | shareCompute
  -- host ports and ODP (R401 to R461)
  | portDown (port : Fin 2)
  | portRestore (port : Fin 2)
  | portEnable (f : Frame) (port : Fin 3) (value : List Byte)
  | odpFrameReject (port : HostPort) (mac : BitVec 48) (ip : BitVec 128) (udp : UdpPorts) (raw : List Byte)
  | sessionOpen (f : Frame) (req : OpenReq)
  | sessionClose (f : Frame)
  | abort (f : Frame)
  | keepaliveExpiry (session : Fin 17)
  | ping (f : Frame) (data : BitVec 64)
  | read (a : ReadFrame) (idx : BitVec 16) (sub : BitVec 8)
  | write (a : WriteFrame) (idx : BitVec 16) (sub : BitVec 8) (value : List Byte)
  | readGroup (a : ReadFrame) (items : List ObjRef)
  | writeGroup (a : WriteFrame) (items : List ObjWrite)
  | blockRead (a : ReadFrame) (idx : BitVec 16) (sub : BitVec 8) (offset len : Nat)
  | blockWrite (a : WriteFrame) (seg : Segment)
  | blockWriteTimeout (session : Fin 17)
  | snapshotExpiry (session : Fin 17)
  | subscribe (f : Frame) (mask : BitVec 32) (watches : List ObjRef)
  | eventSend (session : Fin 17) (cls : BitVec 16) (code : BitVec 16) (data : List Byte)
  | eventResend (session : Fin 17) (seq : BitVec 32)
  | eventResponse (f : Frame)
  | complete (f : Frame) (tag : BitVec 32) (rel : Bool) (offset len : Nat)
  | doorbell (session : Fin 17) (word : BitVec 64) (entries : List (List Byte))
  | inboundSend (qp : BitVec 24) (data : List Byte)
  | rdmaRetryTimeout (qp : BitVec 24)
  | rdmaErrorNak (qp : BitVec 24)
  | protocolLogClear (f : Frame) (value : List Byte)
  | windowAccessRead (a : ReadFrame)
  | windowAccessWrite (f : Frame) (value : List Byte)
  -- registers and mailboxes (R462 to R491)
  | registerWrite (master : Master) (addr : BitVec 48) (value : BitVec 32)
  | lohiLowRead (master : Master) (addr : BitVec 48)
  | lohiHighWrite (master : Master) (addr : BitVec 48) (value : BitVec 32)
  | hubEnSet (master : Master) (cluster : Cluster) (value : BitVec 32)
  | fhEnSet (master : Master) (field : Field) (value : BitVec 32)
  | errorRecordArrival (rec : ErrRecord)
  | errorLogMove
  | errorLogClear (f : Frame) (value : List Byte)
  | mbCommit (master : Master) (channel : Fin 64) (high : BitVec 32)
  | mbTake (master : Master) (channel : Fin 64)
  | mbTimeout (channel : Fin 64)
  | receiverReset (master : Master)
  | mbLockWrite (master : Master) (value : BitVec 32)
  -- bring-up (R554 to R578)
  | readIdentity
  | trainHbm
  | powerClusters
  | lockTime
  | quickPounce
  | loadTables
  | trainLinks
  | enterService
  | auto
  | warmRestart
  | status
  | powerGoodReset
  | bringupStart (eeprom : Option (List Byte))
  | firmwareImage (f : Frame) (seg : Segment)
  -- security (R579 to R600)
  | ownerInstall (f : Frame) (value : List Byte)
  | ownerRevoke (f : Frame) (value : List Byte)
  | nonceRead (f : Frame)
  | debugUnlock (f : Frame) (value : List Byte)
  | relock (f : Frame) (value : List Byte)
  | attestationNonce (f : Frame) (value : List Byte)
  | attestationReportReady
  | ciphertext (f : Frame) (value : List Byte)
  | wrappedKey (f : Frame) (value : List Byte)
  | keyActivation (target : Fin 20) (slot : Fin 3)
  | previousKeyExpiry (link : LinkId)
  | frameAuthFail (link : LinkId)
  -- fabric links and relay (R492 to R505)
  | linkTrainingDone (link : LinkId) (goodLanes : Nat)
  | linkRetrain (link : LinkId)
  | fabricCrcError (link : LinkId)
  | fabricResendTimeout (link : LinkId)
  | relayForward (port : Fin 19) (p : FabPacket)
  | fabricLinkReroute (link : LinkId)
  | fabricWrite (a : FabArrival)
  | readReq (a : FabArrival)
  | readResp (a : FabArrival)
  | fabricAck (p : FabPacket)
  | reduce (tree : Fin 16) (port : Fin 19) (a : FabArrival)
  | reductionTimeout (tree : Fin 16) (offset : Nat) (generation : BitVec 16)
  | schedule (sender : BitVec 10) (id : BitVec 32) (kind : BitVec 8) (instant : BitVec 64) (argument : BitVec 64)
  | scheduleAnswer (id : BitVec 32) (code : BitVec 8)
  | probe (sender : BitVec 10) (nonce : BitVec 64)
  | probeAnswer (nonce : BitVec 64) (serial : List Byte)
  -- twin pair (R506 to R525)
  | hello (h : TwinHdr) (m : HelloMsg)
  | heartbeatSend
  | heartbeat (h : TwinHdr) (m : BeatMsg)
  | heartbeatLoss
  | probeWindowExpiry
  | twinTime (h : TwinHdr) (offset : Int)
  | journal (h : TwinHdr) (records : List JRecord)
  | jack (h : TwinHdr) (upTo : Nat)
  | tokens (h : TwinHdr) (region : RegionId) (step : Nat) (orders : List TokenMsg)
  | kvPage (h : TwinHdr) (region : RegionId) (tag : BitVec 32) (page : Nat) (data : List Byte)
  | digest (h : TwinHdr) (region : RegionId) (step : Nat) (digests : List (BitVec 32 × BitVec 64 × Bool))
  | weightDigest (h : TwinHdr) (hood : BitVec 16) (dig : List Byte) (devTime : Nat)
  | weightDigestCheck (hood : BitVec 16) (rows : List SiteRows)
  | hoodCopy (h : TwinHdr) (adapter : Bool) (id : BitVec 16) (offset : Nat) (data : List Byte) (last : Bool)
  | forward (h : TwinHdr) (payload : List Byte)
  | twinSession (h : TwinHdr) (m : SessionMsg)
  | reject (h : TwinHdr) (code : BitVec 8) (arg : Nat)
  | twinModeRequest (f : Frame) (value : List Byte)
  | twinModeEffect
  | regionProtected (region : RegionId)
  | homesWrite (f : Frame) (value : List Byte)
  -- in-field test, maintenance, resets (R526 to R553, R607, R615)
  | pounceRequest (f : Frame) (value : List Byte)
  | pounceTestStart (id : Nat)
  | pounceTestEnd (id : Nat) (outcome : TestEnd)
  | maintenanceStart (id : Nat)
  | maintenanceWindowOpen
  | otpAppendDone
  | railExcursion
  | zoneInputFault (zone : Zone) (cause : RailFault)
  | thermalTrip (stack : Bool) (unit : Nat) (celsius : Int)
  -- rows added later in the table
  | illegalInstruction (site : Site) (core : CoreId) (word : BitVec 32)
  | adapterImageFetched (id : BitVec 16) (image : Option (List Byte))
  | hostPortUp (port : Fin 3)
  | moduleInserted (reading : ModuleReading)
  | scheduledInstant (id : BitVec 32)
  | connectionRequest (qp : BitVec 24) (session : BitVec 16) (token : BitVec 32)
  | announce (port : Fin 2) (m : AnnounceMsg) (best : Bool)
  | announceReceiptTimeout (port : Fin 2)
  | delayResp (pathDelay : Int)
  | pfcPauseFrame (port : Fin 2) (priorities : BitVec 8)
  | bringupWorkDone (obs : BringObs)
  | lockWaitExpiry
  | jtagInstruction (name : List Byte)
deriving DecidableEq, Repr

end Sys2Proof
end

