-- ==== Sys2Proof/Decode.lean ====
section
/-! DEFINITION. Decoding: spec/opcode_table.json gives no row any bits, so no command word spells a command; the 32-bit instruction words of the scalar cores are decoded by R101 and R102. -/
namespace Sys2Proof

/-- The command a word spells by the table's bits. Every row's `fields` is empty, so the answer is always none. -/
def decodeTableWord (_nbits _w : Nat) : Option Instr := none

/-- The register fields of an instruction word and its immediates (R101). -/
def wordRd (w : BitVec 32) : Reg := (w.extractLsb' 21 5).toFin
def wordRa (w : BitVec 32) : Reg := (w.extractLsb' 16 5).toFin
def wordRb (w : BitVec 32) : Reg := (w.extractLsb' 11 5).toFin
def wordImm (w : BitVec 32) : BitVec 16 := w.extractLsb' 0 16
def wordOff (w : BitVec 32) : BitVec 26 := w.extractLsb' 0 26

/-- An RR instruction of major opcode 0x01, by its fn (R102). -/
def decodeAlu (site : Site) (core : CoreId) (w : BitVec 32) : Option Instr :=
  let rd := wordRd w
  let ra := wordRa w
  let rb := wordRb w
  match (w.extractLsb' 0 11).toNat with
  | 0x000 => some (.add site core rd ra rb)
  | 0x001 => some (.sub site core rd ra rb)
  | 0x002 => some (.and site core rd ra rb)
  | 0x003 => some (.or site core rd ra rb)
  | 0x004 => some (.xor site core rd ra rb)
  | 0x005 => some (.sll site core rd ra rb)
  | 0x006 => some (.srl site core rd ra rb)
  | 0x007 => some (.sra site core rd ra rb)
  | 0x008 => some (.slt site core rd ra rb)
  | 0x009 => some (.sltu site core rd ra rb)
  | 0x00A => some (.min site core rd ra rb)
  | 0x00B => some (.max site core rd ra rb)
  | 0x010 => some (.mul site core rd ra rb)
  | 0x011 => some (.mulhu site core rd ra rb)
  | 0x012 => some (.div site core rd ra rb)
  | 0x013 => some (.divu site core rd ra rb)
  | 0x014 => some (.rem site core rd ra rb)
  | 0x015 => some (.remu site core rd ra rb)
  | _ => none

/-- The instruction that a 32-bit word is on a core of a site: its format by its major opcode (R101, R102); none for a word that R103 names illegal: an unlisted major opcode or fn, a semaphore above 47, a fence scope above HOST. -/
def decodeScalar (site : Site) (core : CoreId) (w : BitVec 32) : Option Instr :=
  let rd := wordRd w
  let ra := wordRa w
  let rb := wordRb w
  let imm := wordImm w
  let fn := (w.extractLsb' 0 11).toNat
  let sem := imm.toNat % 64
  match (w.extractLsb' 26 6).toNat with
  | 0x01 => decodeAlu site core w
  | 0x02 => some (.addi site core rd ra imm)
  | 0x03 => some (.andi site core rd ra imm)
  | 0x04 => some (.ori site core rd ra imm)
  | 0x05 => some (.xori site core rd ra imm)
  | 0x06 => some (.slli site core rd ra imm)
  | 0x07 => some (.srli site core rd ra imm)
  | 0x08 => some (.srai site core rd ra imm)
  | 0x09 => some (.slti site core rd ra imm)
  | 0x0A => some (.lui site core rd imm)
  | 0x0B => some (.lhi site core rd imm)
  -- a BR word holds ra and rb where others hold rd and ra
  | 0x10 => some (.beq site core rd ra imm)
  | 0x11 => some (.bne site core rd ra imm)
  | 0x12 => some (.blt site core rd ra imm)
  | 0x13 => some (.bge site core rd ra imm)
  | 0x14 => some (.bltu site core rd ra imm)
  | 0x15 => some (.bgeu site core rd ra imm)
  | 0x18 => some (.j site core (wordOff w))
  | 0x19 => some (.jal site core (wordOff w))
  | 0x1A => some (.jr site core rd ra imm)
  | 0x20 => some (.lb site core rd ra imm)
  | 0x21 => some (.lh site core rd ra imm)
  | 0x22 => some (.lw site core rd ra imm)
  | 0x23 => some (.ld site core rd ra imm)
  | 0x24 => some (.lbu site core rd ra imm)
  | 0x25 => some (.lhu site core rd ra imm)
  | 0x26 => some (.lwu site core rd ra imm)
  | 0x28 => some (.sb site core rd ra imm)
  | 0x29 => some (.sh site core rd ra imm)
  | 0x2A => some (.sw site core rd ra imm)
  | 0x2B => some (.sd site core rd ra imm)
  | 0x2C => some (.lld site core ra imm [])
  | 0x2D => some (.lst site core ra imm [])
  | 0x30 => if fn = 0 then some (.qpush site core rd ra rb) else none
  | 0x31 => if fn = 0 then some (.qtry site core rd ra rb) else none
  | 0x34 => if sem ≤ 47 then some (.semsig site core ra imm) else none
  | 0x35 => if sem ≤ 47 then some (.semwait site core ra imm) else none
  | 0x36 => if sem ≤ 47 then some (.semrd site core rd imm) else none
  | 0x38 => some (.crr site core rd imm)
  | 0x39 => some (.crw site core rd imm)
  | 0x3A => if imm.toNat % 8 ≤ 4 then some (.fence site core imm) else none
  | 0x3B => some (.trap site core)
  | 0x3C => some (.eret site core)
  | 0x3D => some (.halt site core)
  | 0x3E => some (.wfe site core)
  | _ => none

end Sys2Proof
end

