-- ==== Sys2Proof/Machine/Bits.lean ====
section
/-! DEFINITION. Bit fields, little-endian bytes (R11), byte-string pieces, and the sparse map of the state. -/
namespace Sys2Proof.Machine
open Sys2Proof

/-- Bits [lo+n-1:lo] of a number. -/
def fld (w lo n : Nat) : Nat := (w >>> lo) % 2 ^ n

/-- `w` with bits [lo+n-1:lo] replaced by those of `v`. -/
def setFld (w lo n v : Nat) : Nat := w - (fld w lo n) * 2 ^ lo + (v % 2 ^ n) * 2 ^ lo

/-- Bits [lo+n-1:lo] of a register. -/
def rfld (w : Word32) (lo n : Nat) : Nat := fld w.toNat lo n

def rbit (w : Word32) (i : Nat) : Bool := w.toNat.testBit i

def rset (w : Word32) (lo n v : Nat) : Word32 := BitVec.ofNat 32 (setFld w.toNat lo n v)

def boolNat (b : Bool) : Nat := if b then 1 else 0

/-- `n` bytes of a number, lowest first. -/
def leBytes : Nat → Nat → List Byte
  | 0, _ => []
  | n + 1, v => BitVec.ofNat 8 v :: leBytes n (v / 256)

/-- The number that bytes spell, lowest first. -/
def leNat : List Byte → Nat
  | [] => 0
  | b :: bs => b.toNat + 256 * leNat bs

/-- `n` bytes of a number, highest first (network order, R453). -/
def beBytes (n v : Nat) : List Byte := (leBytes n v).reverse

/-- The number that bytes spell, highest first. -/
def beNat (bs : List Byte) : Nat := leNat bs.reverse

/-- `n` bytes from offset `o`, zero beyond the end. -/
def slice (bs : List Byte) (o n : Nat) : List Byte :=
  let p := (bs.drop o).take n
  p ++ List.replicate (n - p.length) 0

/-- The number in `n` bytes at offset `o`. -/
def leAt (bs : List Byte) (o n : Nat) : Nat := leNat (slice bs o n)

/-- `bs` with `v` put in at offset `o`; the length does not change. -/
def splice (bs : List Byte) (o : Nat) (v : List Byte) : List Byte :=
  bs.take o ++ (v.take (bs.length - o)) ++ bs.drop (o + v.length)

def zeros (n : Nat) : List Byte := List.replicate n 0

/-- Bit `i` of a byte string, bit 0 the lowest bit of byte 0. -/
def bitAt (bs : List Byte) (i : Nat) : Bool := ((bs.getD (i / 8) 0).toNat).testBit (i % 8)

/-- Signed value of an `n`-byte number. -/
def leInt (bs : List Byte) : Int :=
  let n := leNat bs
  if n < 2 ^ (8 * bs.length - 1) ∨ bs.length = 0 then n else (n : Int) - 2 ^ (8 * bs.length)

/-- `n` bytes of a two's complement number. -/
def leIntBytes (n : Nat) (v : Int) : List Byte := leBytes n (v % (2 ^ (8 * n) : Int)).toNat

/-- The value of a key, or `d` where the key is not listed. -/
def mget {α : Type} (d : α) : List (Nat × α) → Nat → α
  | [], _ => d
  | (k, v) :: m, a => if a = k then v else mget d m a

/-- `m` with an entry (`a`, `v`) put before the first entry with a higher key. -/
def mput {α : Type} : List (Nat × α) → Nat → α → List (Nat × α)
  | [], a, v => [(a, v)]
  | (k, w) :: m, a, v => if a < k then (a, v) :: (k, w) :: m else (k, w) :: mput m a v

/-- `m` without the entries of key `a`. -/
def mdel {α : Type} (m : List (Nat × α)) (a : Nat) : List (Nat × α) := m.filter fun e => decide (e.1 ≠ a)

/-- `m` with key `a` set to `v`: the entry stands in order, and a value equal to `d` leaves no entry. -/
def mset {α : Type} [DecidableEq α] (d : α) (m : List (Nat × α)) (a : Nat) (v : α) : List (Nat × α) :=
  if v = d then mdel m a else mput (mdel m a) a v

/-- The canonical form: keys strictly rising and no value equal to `d`. -/
def mwf {α : Type} [DecidableEq α] (d : α) : List (Nat × α) → Bool
  | [] => true
  | [(_, v)] => v ≠ d
  | (k, v) :: (k', v') :: m => v ≠ d && decide (k < k') && mwf d ((k', v') :: m)

/-- `n` bytes from address `a`; an unlisted byte reads 0 (log entry 5). -/
def memRead (m : List (Nat × Byte)) (a : Nat) : Nat → List Byte
  | 0 => []
  | n + 1 => mget 0 m a :: memRead m (a + 1) n

/-- `bs` stored from address `a` upwards. -/
def memWrite (m : List (Nat × Byte)) (a : Nat) : List Byte → List (Nat × Byte)
  | [] => m
  | b :: bs => memWrite (mset 0 m a b) (a + 1) bs

/-- Bytes [a, a + n) zeroed: their entries leave the list. -/
def memZero (m : List (Nat × Byte)) (a n : Nat) : List (Nat × Byte) :=
  m.filter fun c => decide (c.1 < a ∨ a + n ≤ c.1)

/-- Entries with keys in [a, a + n) dropped: those keys read the default. -/
def mdrop {α : Type} (m : List (Nat × α)) (a n : Nat) : List (Nat × α) :=
  m.filter fun c => decide (c.1 < a ∨ a + n ≤ c.1)

/-- The position of the first element that satisfies `p`. -/
def findPos {α : Type} (p : α → Bool) (l : List α) : Option Nat :=
  let i := (l.takeWhile fun x => !p x).length
  if i < l.length then some i else none

/-- The distance of `b` after `a` modulo 2³², and the order of R408: `b` lies after `a` when it is 1 to 2³¹ − 1. -/
def seqAfter (a b : BitVec 32) : Bool :=
  let d := (b - a).toNat
  decide (1 ≤ d ∧ d < 2 ^ 31)

/-- Ceiling division. -/
def ceilDiv (a b : Nat) : Nat := (a + b - 1) / b

end Sys2Proof.Machine
end

