-- ==== Sys2Proof/Machine/Flags.lean ====
section
/-! DEFINITION. Number formats, exact arithmetic, rounding and the conversion flags (R28 to R53). -/
namespace Sys2Proof.Machine
open Sys2Proof

/-- A value: NaN, an infinity, or the finite magnitude m × 2^e with its sign (zero keeps its sign). -/
inductive Val where
  | nan
  | inf (neg : Bool)
  | fin (neg : Bool) (m : Nat) (e : Int)
deriving DecidableEq, Repr

/-- A format code of R28: an integer of some bits, or a floating format. -/
structure FloatFmt where
  man : Nat
  bias : Int
  width : Nat
  /-- The magnitude code of the largest finite value (R32). -/
  maxCode : Nat
  /-- The magnitude code of infinity, where the format has one. -/
  infCode : Option Nat
  /-- The canonical NaN (R34), where the format has one. -/
  nanCode : Option Nat
deriving DecidableEq, Repr

def fmtFP4 : FloatFmt := ⟨1, 1, 4, 0x7, none, none⟩
def fmtFP6A : FloatFmt := ⟨3, 1, 6, 0x1F, none, none⟩
def fmtFP6B : FloatFmt := ⟨2, 3, 6, 0x1F, none, none⟩
def fmtFP8A : FloatFmt := ⟨3, 7, 8, 0x7E, none, some 0x7F⟩
def fmtFP8B : FloatFmt := ⟨2, 15, 8, 0x7B, some 0x7C, some 0x7E⟩
def fmtBF16 : FloatFmt := ⟨7, 127, 16, 0x7F7F, some 0x7F80, some 0x7FC0⟩
def fmtFP16 : FloatFmt := ⟨10, 15, 16, 0x7BFF, some 0x7C00, some 0x7E00⟩
def fmtFP32 : FloatFmt := ⟨23, 127, 32, 0x7F7FFFFF, some 0x7F800000, some 0x7FC00000⟩

/-- A format by its code (R28): the bits of an integer format, or a floating format; none for a reserved code (R29). -/
inductive Format where
  | int (bits : Nat)
  | flt (f : FloatFmt)
deriving DecidableEq, Repr

def formatOf (code : Nat) : Option Format :=
  match code with
  | 0x0 => some (.int 2)
  | 0x1 => some (.int 4)
  | 0x2 => some (.int 8)
  | 0x3 => some (.flt fmtFP4)
  | 0x4 => some (.flt fmtFP6A)
  | 0x5 => some (.flt fmtFP6B)
  | 0x6 => some (.flt fmtFP8A)
  | 0x7 => some (.flt fmtFP8B)
  | 0x8 => some (.flt fmtBF16)
  | 0x9 => some (.flt fmtFP16)
  | 0xA => some (.flt fmtFP32)
  | _ => none

/-- Bits of one element. -/
def Format.bits : Format → Nat
  | .int b => b
  | .flt f => f.width

/-- Whether MX scaling is allowed on a format code (R28). -/
def mxAllowed (code : Nat) : Bool := decide (2 ≤ code ∧ code ≤ 7)

def isIntCode (code : Nat) : Bool := decide (code ≤ 2)

/-- The value that bits encode (R28, R32). -/
def decodeVal (f : Format) (w : Nat) : Val :=
  match f with
  | .int b =>
    let w := w % 2 ^ b
    if w < 2 ^ (b - 1) then .fin false w 0 else .fin true (2 ^ b - w) 0
  | .flt f =>
    let w := w % 2 ^ f.width
    let neg := w.testBit (f.width - 1)
    let mag := w % 2 ^ (f.width - 1)
    if mag ≤ f.maxCode then
      let ex := mag / 2 ^ f.man
      let ma := mag % 2 ^ f.man
      if ex = 0 then .fin neg ma (1 - f.bias - f.man)
      else .fin neg (ma + 2 ^ f.man) ((ex : Int) - f.bias - f.man)
    else if f.infCode = some mag then .inf neg
    else .nan

/-- How a conversion rounds: to nearest even, or stochastically with the 24-bit draw u (R47, R50). -/
inductive Rounding where
  | nearest
  | stochastic (u : Nat)
deriving DecidableEq, Repr

/-- Whether the kept part k of a magnitude is raised by one: `num`/`den` is the discarded fraction of the spacing, below 1. -/
def roundsUp (r : Rounding) (k num den : Nat) : Bool :=
  match r with
  | .nearest => decide (den < 2 * num) || (decide (den = 2 * num) && decide (k % 2 = 1))
  | .stochastic u => decide (2 ^ 24 ≤ num * 2 ^ 24 / den + u)

/-- m × 2^e rounded to a whole number of 2^q. -/
def roundTo (r : Rounding) (m : Nat) (e q : Int) : Nat :=
  if q ≤ e then m * 2 ^ (e - q).toNat
  else
    let den := 2 ^ (q - e).toNat
    let k := m / den
    if roundsUp r k (m % den) den then k + 1 else k

/-- The magnitude code of m × 2^e in a floating format with its exponent unbounded (R48): codes above `maxCode` overflow. -/
def roundCode (f : FloatFmt) (r : Rounding) (m : Nat) (e : Int) : Nat :=
  if m = 0 then 0
  else
    let emin := 1 - f.bias - f.man
    let q := max emin ((m.log2 : Int) + e - f.man)
    (q - emin).toNat * 2 ^ f.man + roundTo r m e q

/-- A converted value with the flags it sets (R49). -/
structure Conv where
  bits : Nat
  saturated : Bool
  invalid : Bool
deriving DecidableEq, Repr

def signed (f : FloatFmt) (neg : Bool) (mag : Nat) : Nat := mag + boolNat neg * 2 ^ (f.width - 1)

/-- A two's complement integer in b bits. -/
def intBits (b : Nat) (neg : Bool) (mag : Nat) : Nat := if neg then (2 ^ b - mag) % 2 ^ b else mag

/-- The result of a value beyond the largest finite one, or of an infinity where the target has none (R48). -/
def convOver (f : FloatFmt) (sat neg : Bool) : Conv :=
  match f.infCode, f.nanCode with
  | some i, _ => if sat then ⟨signed f neg f.maxCode, true, false⟩ else ⟨signed f neg i, false, false⟩
  | none, some n => if sat then ⟨signed f neg f.maxCode, true, false⟩ else ⟨n, false, false⟩
  | none, none => ⟨signed f neg f.maxCode, true, false⟩

/-- A conversion under R47 and R48. -/
def convert (f : Format) (sat : Bool) (r : Rounding) (v : Val) : Conv :=
  match f with
  | .flt f =>
    match v with
    | .nan => match f.nanCode with
      | some n => ⟨n, false, false⟩
      | none => ⟨0, false, true⟩
    | .inf neg => match f.infCode with
      | some i => ⟨signed f neg i, false, false⟩
      | none => convOver f sat neg
    | .fin neg m e =>
      let c := roundCode f r m e
      if f.maxCode < c then convOver f sat neg else ⟨signed f neg c, false, false⟩
  | .int b =>
    let lim (neg : Bool) := if neg then 2 ^ (b - 1) else 2 ^ (b - 1) - 1
    match v with
    | .nan => ⟨0, false, true⟩
    | .inf neg => ⟨intBits b neg (lim neg), true, false⟩
    | .fin neg m e =>
      let k := roundTo r m e 0
      if lim neg < k then ⟨intBits b neg (lim neg), true, false⟩ else ⟨intBits b neg k, false, false⟩

/-! ## Exact arithmetic -/

def Val.neg : Val → Val
  | .nan => .nan
  | .inf s => .inf !s
  | .fin s m e => .fin (!s) m e

def Val.abs : Val → Val
  | .nan => .nan
  | .inf _ => .inf false
  | .fin _ m e => .fin false m e

/-- m × 2^e as an integer multiple of 2^q, for q ≤ e. -/
def scaled (neg : Bool) (m : Nat) (e q : Int) : Int :=
  let k : Int := ((m * 2 ^ (e - q).toNat : Nat) : Int)
  if neg then -k else k

/-- The finite value k × 2^q; a zero takes the sign `zneg`. -/
def ofInt (k : Int) (q : Int) (zneg : Bool) : Val :=
  if k = 0 then .fin zneg 0 q else .fin (decide (k < 0)) k.natAbs q

/-- The exact sum (R53): an exact zero is +0 unless both addends are −0 or of one negative sign. -/
def Val.add : Val → Val → Val
  | .nan, _ => .nan
  | _, .nan => .nan
  | .inf s, .inf t => if s = t then .inf s else .nan
  | .inf s, _ => .inf s
  | _, .inf t => .inf t
  | .fin s m e, .fin t n f =>
    let q := min e f
    ofInt (scaled s m e q + scaled t n f q) q (s && t)

/-- The exact product; infinity times zero is NaN. -/
def Val.mul : Val → Val → Val
  | .nan, _ => .nan
  | _, .nan => .nan
  | .inf s, .inf t => .inf (s != t)
  | .inf s, .fin t n _ => if n = 0 then .nan else .inf (s != t)
  | .fin s m _, .inf t => if m = 0 then .nan else .inf (s != t)
  | .fin s m e, .fin t n f => .fin (s != t) (m * n) (e + f)

/-- Whether a ≤ b, for values that are not NaN; −0 lies below +0 (R122). -/
def Val.le : Val → Val → Bool
  | .nan, _ => false
  | _, .nan => false
  | .inf s, .inf t => s || !t
  | .inf s, _ => s
  | _, .inf t => !t
  | .fin s m e, .fin t n f =>
    let q := min e f
    let a := scaled s m e q
    let b := scaled t n f q
    if a = b then (s || !t) else decide (a < b)

def Val.max (a b : Val) : Val :=
  match a, b with
  | .nan, _ => .nan
  | _, .nan => .nan
  | a, b => if a.le b then b else a

def Val.min (a b : Val) : Val :=
  match a, b with
  | .nan, _ => .nan
  | _, .nan => .nan
  | a, b => if a.le b then a else b

def Val.isZero : Val → Bool
  | .fin _ m _ => decide (m = 0)
  | _ => false

def Val.isFinite : Val → Bool
  | .fin _ _ _ => true
  | _ => false

/-- FP32 bits of a value, rounded to nearest even as IEEE 754 prescribes (R53). -/
def toFP32 (v : Val) : Nat := (convert (.flt fmtFP32) false .nearest v).bits

def ofFP32 (w : Nat) : Val := decodeVal (.flt fmtFP32) w

/-- An FP32 addition, round to nearest even (R45, R123). -/
def addFP32 (a b : Nat) : Nat := toFP32 ((ofFP32 a).add (ofFP32 b))

/-! ## Packed elements (R31) -/

/-- Element i of packed bytes, lowest bits first. -/
def elemAt (bits : Nat) (bs : List Byte) (i : Nat) : Nat :=
  let lo := i * bits
  (leAt bs (lo / 8) ((lo % 8 + bits + 7) / 8)) / 2 ^ (lo % 8) % 2 ^ bits

/-- Elements packed into bytes, element 0 lowest. -/
def packElems (bits : Nat) (es : List Nat) : List Byte :=
  let v := es.foldr (fun e a => e % 2 ^ bits + a * 2 ^ bits) 0
  leBytes ((es.length * bits + 7) / 8) v

/-- The exponent of an E8M0 scale, none for its NaN 0xFF (R36). -/
def scaleExp (b : Byte) : Option Int := if b = 0xFF then none else some ((b.toNat : Int) - 127)

/-- floor(log₂ of a finite non-zero magnitude). -/
def floorLog2 (m : Nat) (e : Int) : Int := (m.log2 : Int) + e

/-- emax of an MX element format (R52). -/
def mxEmax (code : Nat) : Int :=
  match code with
  | 0x3 => 2
  | 0x4 => 2
  | 0x5 => 4
  | 0x6 => 8
  | 0x7 => 15
  | _ => 0

/-- Value times 2^k. -/
def Val.scale (v : Val) (k : Int) : Val :=
  match v with
  | .fin s m e => .fin s m (e + k)
  | v => v

/-- The E8M0 byte of a block (R52): none when the block holds a NaN or an infinity. -/
def mxScale (code : Nat) (vs : List Val) : Option Int :=
  if vs.any fun v => !v.isFinite then none
  else
    let tops := vs.filterMap fun v => match v with
      | .fin _ m e => if m = 0 then none else some (floorLog2 m e)
      | _ => none
    match tops with
    | [] => some (-127)
    | t :: ts => some (max (-127) (min 127 (ts.foldl max t - mxEmax code)))

/-- Element of an MX block converted under its scale exponent x: divided by 2^x, and by 2⁻⁶ for MXINT8 (R37, R52). -/
def mxConvert (code : Nat) (f : Format) (sat : Bool) (r : Rounding) (x : Int) (v : Val) : Conv :=
  convert f sat r (v.scale (-x + if code = 2 then 6 else 0))

end Sys2Proof.Machine
end

