-- ==== Sys2Proof/Config.lean ====
section
/-! DEFINITION. What the part, the board or an implementation fixes and the spec leaves open: opaque constants, so that no proof can see a value (log entries 3, 7 and 9). -/
namespace Sys2Proof.Config
open Sys2Proof

/-- Grade: 0 OL12-A, 1 OL12-B, 2 OL12-C (R448). -/
opaque fusedGrade : Fin 3
/-- Stepping (R448). -/
opaque fusedStepping : BitVec 16
/-- Serial, at most 24 characters (R448). -/
opaque fusedSerial : List Byte
/-- Module part number, at most 32 characters (R448). -/
opaque fusedPartNumber : List Byte
/-- MAC address of port p (R449). -/
opaque fusedMac : Nat → BitVec 48
/-- Baseline path resistance of a zone in the binary32 form of 0x2010 + z:06. -/
opaque fusedBaseline : Nat → BitVec 32
/-- The fused part offset of the regulator set-point in 0.5 mV (R368). -/
opaque fusedOffset : Nat → Nat
/-- The factory defect map in OTP: kind, unit, detail and PTP seconds of each entry (R549, R568). -/
opaque factoryMap : List (Nat × Nat × Nat × Nat)
/-- What a spare site's CR_LT reads: the map gives it no value. -/
opaque spareLt : Nat → Word64
/-- Bank group and bank, row, and column of a stack offset, as bytes 18 to 23 of an HBM record: the fixed order of R252 is not given. -/
opaque hbmPlace : Nat → Nat
/-- The manufacturer, the part and the density in GiB that 64 bytes of DEVICE_ID data name: JESD238's layout is outside the spec (R265, R266). -/
opaque stackMake : List Byte → Nat × Nat × Nat
/-- The qualification table of the firmware image of a version: manufacturer, part and density of each entry (R266). -/
opaque qualifiedStacks : Nat → List (Nat × Nat × Nat)
/-- The byte of a hood's weight section that stands at byte b of the pinned weights of the j-th tile of a region, by the hood's manifest; none stands beyond the section: its spread over tiles is the compiler's (log entry 25). -/
opaque pinnedFrom : List Byte → Nat → Nat → Nat
/-- The sign of the zero that an SFU function gives for an input of −0 where the table of R127 does not list it (log entry 19). -/
opaque sfuNegZero : Nat → Bool
/-- A value the spec leaves open at the n-th time one is drawn (log entry 3). -/
opaque freeWord : Nat → Word64
/-- Bytes the spec leaves open at the n-th time: the k-th of them. -/
opaque freeByte : Nat → Nat → Byte
/-- AES-256-GCM opening: key, IV, additional data, and ciphertext with its tag; none where the tag fails (R595; log entry 9). -/
opaque aesGcmOpen : List Byte → List Byte → List Byte → List Byte → Option (List Byte)
/-- The vendor firmware key hash in OTP (R579). -/
opaque vendorKeyHash : List Byte
/-- The anti-rollback counter at manufacture, 0 to 64 (R579). -/
opaque fusedRollback : Fin 65
/-- ML-DSA-87 verification of a signature over a message under a public key (R579 to R594). -/
opaque mlDsaVerify : List Byte → List Byte → List Byte → Bool
/-- ML-DSA-87 signature by the device's attestation key (R592). -/
opaque mlDsaSign : List Byte → List Byte
/-- ML-KEM-1024 decapsulation by the device key: the shared secret (R595). -/
opaque mlKemOpen : List Byte → List Byte
/-- The device's encapsulation key and its signature (0x5840:01, :02). -/
opaque kemKey : List Byte
opaque kemKeySignature : List Byte
/-- The attestation certificate chain (0x5820:03). -/
opaque certificateChain : List Byte
/-- The device identity public key's fingerprint as other parts know it (R507, R580). -/
opaque fusedHash : Nat → List Byte
/-- The owner state, slot states and hashes at manufacture (R580, R581). -/
opaque fusedOwnerState : Nat → Nat

/-- How the (72,64) code sees an error of three or more bits in a word (R151: the code is not given): none, detected as uncorrectable; some none, undetected; some k, taken for a single error of bit k. -/
opaque secdedWide : BitVec 72 → Option (Option (Fin 72))
/-- The match key in force when the records of a host buffer were written: the stream's layout carries none (R331, R334; log entry 32). -/
opaque bufferKey : List Byte → List Byte
/-- The propagation delay of the last link to a unit, in DTU, as bring-up measures it (R346). -/
opaque linkDelay : Nat → Nat
/-- Whether the PUF unwraps the identity key at reset (R580). -/
opaque pufUnwraps : Bool

end Sys2Proof.Config
end

