-- ==== Sys2Proof/Machine/ObjTable.lean ====
section
/-! DEFINITION. The object dictionary as the chapters list it (R431 to R461): type, access, default and journaled flag of every subindex. -/
namespace Sys2Proof.Machine
open Sys2Proof

/-- The types of R433. `domain n upTo` is a DOMAIN of n bytes, or of up to n bytes. -/
inductive ObjType where
  | uint (bytes : Nat) | sint (bytes : Nat) | bool | f32 | time | str | domain (bytes : Nat) (upTo : Bool)
deriving DecidableEq, Repr

/-- The access rights of R435. -/
inductive Access where
  | const | ro | rw | rwd | wo
deriving DecidableEq, Repr

/-- The Default column (R437): a number, all ones, or a value that is fused, board-given or derived. -/
inductive ObjDefault where
  | num (n : Nat) | ones | grade | stepping | serial | partNumber | mac | ip6 | gradeMax10 | gradeMax1
  | zoneLimit | baseline | signMode
deriving DecidableEq, Repr

/-- One row of a chapter's object table: the indices and subindices it covers. -/
structure ObjRow where
  idx : Nat
  count : Nat
  subLo : Nat
  subHi : Nat
  type : ObjType
  access : Access
  dflt : ObjDefault
  journaled : Bool
deriving DecidableEq, Repr

/-- R270. -/
def objRows4000 : List ObjRow :=
  [⟨0x4000, 1, 0x00, 0x00, .uint 1, .const, .num 21, false⟩,
   ⟨0x4001, 23, 0x00, 0x00, .uint 1, .const, .num 17, false⟩,
   ⟨0x4000, 24, 0x01, 0x01, .uint 1, .ro, .num 0, false⟩,
   ⟨0x4000, 24, 0x02, 0x02, .uint 4, .ro, .num 0, false⟩,
   ⟨0x4000, 24, 0x03, 0x03, .uint 1, .const, .num 0, false⟩,
   ⟨0x4000, 24, 0x04, 0x04, .domain 64 false, .ro, .num 0, false⟩,
   ⟨0x4000, 24, 0x05, 0x05, .bool, .ro, .num 0, false⟩,
   ⟨0x4000, 24, 0x06, 0x06, .uint 2, .ro, .num 0, false⟩,
   ⟨0x4000, 24, 0x07, 0x07, .uint 8, .ro, .num 0, false⟩,
   ⟨0x4000, 24, 0x08, 0x08, .uint 8, .ro, .num 0, false⟩,
   ⟨0x4000, 24, 0x09, 0x09, .uint 8, .ro, .num 0, false⟩,
   ⟨0x4000, 24, 0x0A, 0x0A, .uint 8, .ro, .num 0, false⟩] ++
  [⟨0x4000, 24, 0x0B, 0x0B, .uint 8, .ro, .num 0, false⟩,
   ⟨0x4000, 24, 0x0C, 0x0C, .sint 4, .ro, .num 0, false⟩,
   ⟨0x4000, 24, 0x0D, 0x0D, .uint 8, .ro, .num 0, false⟩,
   ⟨0x4000, 24, 0x0E, 0x0E, .domain 32 false, .ro, .num 0, false⟩,
   ⟨0x4000, 24, 0x0F, 0x0F, .uint 8, .ro, .num 0, false⟩,
   ⟨0x4000, 24, 0x10, 0x10, .uint 8, .ro, .num 0, false⟩,
   ⟨0x4000, 1, 0x11, 0x11, .uint 1, .rwd, .num 64, false⟩,
   ⟨0x4000, 1, 0x12, 0x12, .uint 1, .rwd, .num 0, false⟩,
   ⟨0x4000, 1, 0x13, 0x13, .bool, .ro, .num 0, false⟩,
   ⟨0x4000, 1, 0x14, 0x14, .uint 4, .rw, .num 86400, false⟩]

/-- R274. -/
def objRows3200 : List ObjRow :=
  [⟨0x3200, 1, 0x00, 0x00, .uint 1, .const, .num 133, false⟩,
   ⟨0x3200, 1, 0x01, 0x01, .domain 64 false, .wo, .num 0, true⟩,
   ⟨0x3200, 1, 0x02, 0x02, .uint 2, .wo, .num 0, true⟩,
   ⟨0x3200, 1, 0x03, 0x03, .domain 4 false, .ro, .num 0, false⟩,
   ⟨0x3200, 1, 0x04, 0x04, .uint 1, .ro, .num 0, false⟩,
   ⟨0x3200, 1, 0x10, 0x8F, .domain 64 false, .ro, .num 0, false⟩]

/-- R277. -/
def objRows3100 : List ObjRow :=
  [⟨0x3100, 64, 0x00, 0x00, .uint 1, .const, .num 28, false⟩,
   ⟨0x3100, 64, 0x01, 0x01, .uint 1, .ro, .num 0, false⟩,
   ⟨0x3100, 64, 0x02, 0x02, .uint 1, .wo, .num 0, true⟩,
   ⟨0x3100, 64, 0x03, 0x03, .domain 23 false, .rwd, .num 0, false⟩,
   ⟨0x3100, 64, 0x04, 0x04, .uint 1, .rwd, .num 0, false⟩,
   ⟨0x3100, 64, 0x05, 0x05, .uint 2, .rw, .num 0xffff, false⟩,
   ⟨0x3100, 64, 0x06, 0x06, .uint 2, .rw, .num 0xffff, false⟩,
   ⟨0x3100, 64, 0x07, 0x07, .uint 1, .ro, .num 0, false⟩,
   ⟨0x3100, 64, 0x08, 0x08, .time, .rw, .num 16000000, false⟩,
   ⟨0x3100, 64, 0x09, 0x09, .time, .rw, .num 0, false⟩,
   ⟨0x3100, 64, 0x0A, 0x0A, .time, .rw, .num 320000, false⟩,
   ⟨0x3100, 64, 0x0B, 0x0B, .uint 4, .rw, .num 512, false⟩] ++
  [⟨0x3100, 64, 0x0C, 0x0C, .uint 4, .rw, .num 16384, false⟩,
   ⟨0x3100, 64, 0x0D, 0x0D, .uint 2, .rw, .num 256, false⟩,
   ⟨0x3100, 64, 0x0E, 0x0E, .uint 4, .rwd, .num 8192, false⟩,
   ⟨0x3100, 64, 0x0F, 0x0F, .uint 1, .rwd, .num 0, false⟩,
   ⟨0x3100, 64, 0x10, 0x10, .bool, .rw, .num 0, false⟩,
   ⟨0x3100, 64, 0x11, 0x11, .bool, .rw, .num 1, false⟩,
   ⟨0x3100, 64, 0x12, 0x12, .uint 8, .ro, .num 0, false⟩,
   ⟨0x3100, 64, 0x13, 0x13, .uint 2, .ro, .num 0, false⟩,
   ⟨0x3100, 64, 0x14, 0x14, .uint 4, .ro, .num 0, false⟩,
   ⟨0x3100, 64, 0x15, 0x15, .time, .ro, .num 0, false⟩,
   ⟨0x3100, 64, 0x16, 0x16, .time, .ro, .num 0, false⟩,
   ⟨0x3100, 64, 0x17, 0x17, .uint 8, .ro, .num 0, false⟩] ++
  [⟨0x3100, 64, 0x18, 0x18, .uint 8, .ro, .num 0, false⟩,
   ⟨0x3100, 64, 0x19, 0x19, .uint 1, .ro, .num 0, false⟩,
   ⟨0x3100, 64, 0x1A, 0x1A, .uint 1, .ro, .num 0, false⟩,
   ⟨0x3100, 64, 0x1B, 0x1B, .time, .rw, .num 16000000000, false⟩]

/-- R288. -/
def objRows3300 : List ObjRow :=
  [⟨0x3300, 1, 0x00, 0x00, .uint 1, .const, .num 9, false⟩,
   ⟨0x3300, 1, 0x01, 0x01, .domain 32 false, .wo, .num 0, true⟩,
   ⟨0x3300, 1, 0x02, 0x02, .uint 2, .wo, .num 0, true⟩,
   ⟨0x3300, 1, 0x03, 0x03, .domain 4 false, .ro, .num 0, false⟩,
   ⟨0x3300, 1, 0x04, 0x04, .uint 2, .ro, .num 0, false⟩,
   ⟨0x3300, 1, 0x05, 0x05, .uint 2, .rwd, .num 64, false⟩,
   ⟨0x3300, 1, 0x06, 0x06, .uint 8, .ro, .num 0, false⟩,
   ⟨0x3300, 1, 0x07, 0x07, .uint 8, .ro, .num 0, false⟩,
   ⟨0x3300, 1, 0x08, 0x08, .domain 4096 false, .ro, .num 0, false⟩]

/-- R308. -/
def objRows3400 : List ObjRow :=
  [⟨0x3400, 1, 0x00, 0x00, .uint 1, .const, .num 9, false⟩,
   ⟨0x3400, 1, 0x01, 0x01, .uint 2, .ro, .num 0, false⟩,
   ⟨0x3400, 1, 0x02, 0x02, .uint 8, .ro, .num 0, false⟩,
   ⟨0x3400, 1, 0x03, 0x03, .uint 8, .ro, .num 0, false⟩,
   ⟨0x3400, 1, 0x04, 0x04, .uint 8, .ro, .num 0, false⟩,
   ⟨0x3400, 1, 0x05, 0x05, .uint 8, .ro, .num 0, false⟩,
   ⟨0x3400, 1, 0x06, 0x06, .uint 8, .ro, .num 0, false⟩,
   ⟨0x3400, 1, 0x07, 0x07, .uint 4, .rw, .num 0, false⟩,
   ⟨0x3400, 1, 0x08, 0x08, .domain 32 false, .ro, .num 0, false⟩]

/-- R336. -/
def objRows3600 : List ObjRow :=
  [⟨0x3600, 1, 0x00, 0x00, .uint 1, .const, .num 20, false⟩,
   ⟨0x3600, 1, 0x01, 0x01, .uint 1, .rwd, .num 0, true⟩,
   ⟨0x3600, 1, 0x02, 0x02, .uint 1, .ro, .num 0, false⟩,
   ⟨0x3600, 1, 0x03, 0x03, .domain 32 false, .ro, .num 0, false⟩,
   ⟨0x3600, 1, 0x04, 0x04, .domain 24 false, .ro, .num 0, false⟩,
   ⟨0x3600, 1, 0x05, 0x05, .domain 1536 false, .rwd, .num 0, true⟩,
   ⟨0x3600, 1, 0x06, 0x06, .uint 1, .rw, .num 255, false⟩,
   ⟨0x3600, 1, 0x07, 0x07, .uint 8, .ro, .num 0, false⟩,
   ⟨0x3600, 1, 0x08, 0x08, .uint 8, .ro, .num 0, false⟩,
   ⟨0x3600, 1, 0x09, 0x09, .uint 8, .ro, .num 0, false⟩,
   ⟨0x3600, 1, 0x0A, 0x0A, .uint 4, .rwd, .num 4096, false⟩,
   ⟨0x3600, 1, 0x0B, 0x0B, .domain 32 false, .ro, .num 0, false⟩] ++
  [⟨0x3600, 1, 0x0C, 0x0C, .time, .rw, .num 16000000, false⟩,
   ⟨0x3600, 1, 0x0D, 0x0D, .domain 24 false, .rw, .num 0, false⟩,
   ⟨0x3600, 1, 0x0E, 0x0E, .uint 8, .rw, .num 0, false⟩,
   ⟨0x3600, 1, 0x0F, 0x0F, .domain 48 false, .wo, .num 0, false⟩,
   ⟨0x3600, 1, 0x10, 0x10, .uint 1, .ro, .num 0, false⟩,
   ⟨0x3600, 1, 0x11, 0x11, .domain 80 false, .ro, .num 0, false⟩,
   ⟨0x3600, 1, 0x12, 0x12, .domain 32 false, .rw, .num 0, false⟩,
   ⟨0x3600, 1, 0x13, 0x13, .uint 8, .ro, .num 0, false⟩]

/-- R363. -/
def objRows2200 : List ObjRow :=
  [⟨0x2200, 1, 0x00, 0x00, .uint 1, .const, .num 22, false⟩,
   ⟨0x2200, 1, 0x01, 0x01, .time, .ro, .num 0, false⟩,
   ⟨0x2200, 1, 0x02, 0x02, .uint 1, .ro, .num 0, false⟩,
   ⟨0x2200, 1, 0x03, 0x03, .uint 8, .rwd, .num 1577836800, false⟩,
   ⟨0x2200, 1, 0x04, 0x04, .uint 1, .rwd, .num 0, false⟩,
   ⟨0x2200, 1, 0x05, 0x05, .uint 1, .rwd, .num 0, false⟩,
   ⟨0x2200, 1, 0x06, 0x06, .uint 1, .ro, .num 0, false⟩,
   ⟨0x2200, 1, 0x07, 0x07, .sint 8, .ro, .num 0, false⟩,
   ⟨0x2200, 1, 0x08, 0x08, .sint 4, .ro, .num 0, false⟩,
   ⟨0x2200, 1, 0x09, 0x09, .time, .ro, .num 0, false⟩,
   ⟨0x2200, 1, 0x0A, 0x0A, .time, .rw, .num 960000000000, false⟩,
   ⟨0x2200, 1, 0x0B, 0x0B, .domain 16 false, .wo, .num 0, false⟩] ++
  [⟨0x2200, 1, 0x0C, 0x0C, .uint 1, .ro, .num 0, false⟩,
   ⟨0x2200, 1, 0x0D, 0x0D, .domain 16 false, .ro, .num 0, false⟩,
   ⟨0x2200, 1, 0x0E, 0x0E, .uint 4, .ro, .num 0, false⟩,
   ⟨0x2200, 1, 0x0F, 0x0F, .uint 4, .ro, .num 0, false⟩,
   ⟨0x2200, 1, 0x10, 0x10, .uint 4, .ro, .num 0, false⟩,
   ⟨0x2200, 1, 0x11, 0x11, .domain 16 false, .ro, .num 0, false⟩,
   ⟨0x2200, 1, 0x12, 0x12, .uint 4, .ro, .num 0, false⟩,
   ⟨0x2200, 1, 0x13, 0x13, .sint 4, .ro, .num 0, false⟩,
   ⟨0x2200, 1, 0x14, 0x14, .uint 4, .ro, .num 0, false⟩,
   ⟨0x2200, 1, 0x15, 0x15, .uint 8, .wo, .num 0, false⟩]

/-- R398. -/
def objRows2000 : List ObjRow :=
  [⟨0x2000, 1, 0x00, 0x00, .uint 1, .const, .num 19, false⟩,
   ⟨0x2000, 1, 0x01, 0x01, .uint 4, .rw, .gradeMax10, false⟩,
   ⟨0x2000, 1, 0x02, 0x02, .uint 4, .rw, .gradeMax1, false⟩,
   ⟨0x2000, 1, 0x03, 0x03, .time, .rw, .num 16384000, false⟩,
   ⟨0x2000, 1, 0x04, 0x04, .sint 4, .rw, .num 100, false⟩,
   ⟨0x2000, 1, 0x05, 0x05, .f32, .ro, .num 0, false⟩,
   ⟨0x2000, 1, 0x06, 0x06, .f32, .ro, .num 0, false⟩,
   ⟨0x2000, 1, 0x07, 0x07, .f32, .ro, .num 0, false⟩,
   ⟨0x2000, 1, 0x08, 0x08, .f32, .ro, .num 0, false⟩,
   ⟨0x2000, 1, 0x09, 0x09, .uint 1, .ro, .num 0, false⟩,
   ⟨0x2000, 1, 0x0A, 0x0A, .uint 2, .ro, .num 0, false⟩,
   ⟨0x2000, 1, 0x0B, 0x0B, .uint 2, .ro, .num 0, false⟩] ++
  [⟨0x2000, 1, 0x0C, 0x0C, .uint 2, .ro, .num 0, false⟩,
   ⟨0x2000, 1, 0x0D, 0x0D, .sint 4, .ro, .num 0, false⟩,
   ⟨0x2000, 1, 0x0E, 0x0E, .uint 4, .ro, .num 0, false⟩,
   ⟨0x2000, 1, 0x0F, 0x0F, .uint 4, .ro, .num 0, false⟩,
   ⟨0x2000, 1, 0x10, 0x10, .uint 1, .rwd, .num 30, false⟩,
   ⟨0x2000, 1, 0x11, 0x11, .uint 4, .const, .gradeMax10, false⟩,
   ⟨0x2000, 1, 0x12, 0x12, .uint 4, .const, .gradeMax1, false⟩]

/-- R399. -/
def objRows2010 : List ObjRow :=
  [⟨0x2010, 24, 0x00, 0x00, .uint 1, .const, .num 18, false⟩,
   ⟨0x2010, 24, 0x01, 0x01, .uint 1, .ro, .num 0, false⟩,
   ⟨0x2010, 24, 0x02, 0x02, .uint 2, .rwd, .zoneLimit, false⟩,
   ⟨0x2010, 24, 0x03, 0x03, .f32, .ro, .num 0, false⟩,
   ⟨0x2010, 24, 0x04, 0x04, .f32, .ro, .num 0, false⟩,
   ⟨0x2010, 24, 0x05, 0x05, .f32, .ro, .num 0, false⟩,
   ⟨0x2010, 24, 0x06, 0x06, .f32, .ro, .baseline, false⟩,
   ⟨0x2010, 24, 0x07, 0x07, .bool, .ro, .num 0, false⟩,
   ⟨0x2010, 24, 0x08, 0x08, .uint 1, .rw, .num 0, false⟩,
   ⟨0x2010, 24, 0x09, 0x09, .domain 8 false, .ro, .num 0, false⟩,
   ⟨0x2010, 24, 0x0A, 0x0A, .domain 8 false, .ro, .num 0, false⟩,
   ⟨0x2010, 24, 0x0B, 0x0B, .domain 8 false, .ro, .num 0, false⟩] ++
  [⟨0x2010, 24, 0x0C, 0x0C, .domain 16 false, .ro, .num 0, false⟩,
   ⟨0x2010, 24, 0x0D, 0x0D, .domain 32 false, .ro, .num 0, false⟩,
   ⟨0x2010, 24, 0x0E, 0x0E, .uint 8, .ro, .num 0, false⟩,
   ⟨0x2010, 24, 0x0F, 0x0F, .uint 4, .ro, .num 0, false⟩,
   ⟨0x2010, 24, 0x10, 0x10, .domain 8 false, .ro, .num 0, false⟩,
   ⟨0x2010, 24, 0x11, 0x11, .f32, .ro, .num 0x3F800000, false⟩]

/-- R400. -/
def objRows2100 : List ObjRow :=
  [⟨0x2100, 1, 0x00, 0x00, .uint 1, .const, .num 15, false⟩,
   ⟨0x2100, 1, 0x01, 0x01, .bool, .rw, .num 0, false⟩,
   ⟨0x2100, 1, 0x02, 0x02, .uint 4, .rwd, .num 0, false⟩,
   ⟨0x2100, 1, 0x03, 0x03, .domain 128 false, .rwd, .ones, false⟩,
   ⟨0x2100, 1, 0x04, 0x04, .uint 1, .ro, .num 255, false⟩,
   ⟨0x2100, 1, 0x05, 0x05, .uint 4, .rwd, .num 0, false⟩,
   ⟨0x2100, 1, 0x06, 0x06, .time, .rwd, .num 163840000, false⟩,
   ⟨0x2100, 1, 0x07, 0x07, .uint 4, .rwd, .num 1000, false⟩,
   ⟨0x2100, 1, 0x08, 0x08, .domain 8 false, .rwd, .num 0, false⟩,
   ⟨0x2100, 1, 0x09, 0x09, .uint 4, .ro, .num 0, false⟩,
   ⟨0x2100, 1, 0x0A, 0x0A, .domain 256 false, .ro, .num 0, false⟩,
   ⟨0x2100, 1, 0x0B, 0x0B, .domain 128 false, .ro, .num 0, false⟩] ++
  [⟨0x2100, 1, 0x0C, 0x0C, .uint 2, .ro, .num 0, false⟩,
   ⟨0x2100, 1, 0x0D, 0x0D, .uint 4, .ro, .num 0, false⟩,
   ⟨0x2100, 1, 0x0E, 0x0E, .uint 1, .ro, .num 0, false⟩]

/-- R448. -/
def objRows1000 : List ObjRow :=
  [⟨0x1000, 1, 0x00, 0x00, .uint 1, .const, .num 11, false⟩,
   ⟨0x1000, 1, 0x01, 0x01, .uint 2, .const, .num 0x4a58, false⟩,
   ⟨0x1000, 1, 0x02, 0x02, .uint 2, .const, .num 3090, false⟩,
   ⟨0x1000, 1, 0x03, 0x03, .uint 1, .const, .grade, false⟩,
   ⟨0x1000, 1, 0x04, 0x04, .uint 2, .const, .stepping, false⟩,
   ⟨0x1000, 1, 0x05, 0x05, .str, .const, .serial, false⟩,
   ⟨0x1000, 1, 0x06, 0x06, .domain 32 false, .ro, .num 0, false⟩,
   ⟨0x1000, 1, 0x07, 0x07, .domain 72 false, .ro, .num 0, false⟩,
   ⟨0x1000, 1, 0x08, 0x08, .str, .const, .partNumber, false⟩,
   ⟨0x1000, 1, 0x09, 0x09, .uint 1, .const, .num 1, false⟩,
   ⟨0x1000, 1, 0x0A, 0x0A, .uint 2, .const, .num 1, false⟩]

/-- R449. -/
def objRows1100 : List ObjRow :=
  [⟨0x1100, 1, 0x00, 0x00, .uint 1, .const, .num 22, false⟩,
   ⟨0x1101, 1, 0x00, 0x00, .uint 1, .const, .num 19, false⟩,
   ⟨0x1102, 1, 0x00, 0x00, .uint 1, .const, .num 8, false⟩,
   ⟨0x1100, 3, 0x01, 0x01, .uint 1, .ro, .num 0, false⟩,
   ⟨0x1100, 3, 0x02, 0x02, .bool, .rw, .num 1, false⟩,
   ⟨0x1100, 3, 0x03, 0x03, .uint 8, .const, .mac, false⟩,
   ⟨0x1100, 3, 0x04, 0x04, .uint 4, .rwd, .num 0, false⟩,
   ⟨0x1100, 3, 0x05, 0x05, .domain 16 false, .rwd, .ip6, false⟩,
   ⟨0x1100, 2, 0x06, 0x06, .uint 2, .rwd, .num 0, false⟩,
   ⟨0x1100, 2, 0x07, 0x07, .uint 4, .rwd, .num 0x70306, false⟩,
   ⟨0x1100, 1, 0x08, 0x08, .uint 2, .rw, .num 49420, false⟩,
   ⟨0x1100, 1, 0x09, 0x09, .domain 160 false, .rw, .num 0, false⟩] ++
  [⟨0x1100, 1, 0x0A, 0x0A, .uint 8, .ro, .num 0, false⟩,
   ⟨0x1100, 2, 0x0B, 0x0B, .uint 1, .rw, .num 75, false⟩,
   ⟨0x1100, 2, 0x0C, 0x0C, .uint 1, .rw, .num 50, false⟩,
   ⟨0x1100, 2, 0x0D, 0x0D, .domain 16 false, .ro, .num 0, false⟩,
   ⟨0x1100, 3, 0x0E, 0x0E, .uint 8, .ro, .num 0, false⟩,
   ⟨0x1100, 3, 0x0F, 0x0F, .uint 8, .ro, .num 0, false⟩,
   ⟨0x1100, 2, 0x10, 0x10, .uint 8, .ro, .num 0, false⟩,
   ⟨0x1100, 2, 0x11, 0x11, .uint 8, .ro, .num 0, false⟩,
   ⟨0x1100, 2, 0x12, 0x12, .uint 8, .ro, .num 0, false⟩,
   ⟨0x1100, 2, 0x13, 0x13, .uint 8, .ro, .num 0, false⟩,
   ⟨0x1100, 2, 0x14, 0x14, .uint 1, .ro, .num 0, false⟩,
   ⟨0x1100, 2, 0x15, 0x15, .uint 4, .ro, .num 0, false⟩]

/-- R453. -/
def objRows1140 : List ObjRow :=
  [⟨0x1140, 1, 0x00, 0x00, .uint 1, .const, .num 16, false⟩,
   ⟨0x1140, 1, 0x01, 0x01, .uint 1, .rwd, .num 0, false⟩,
   ⟨0x1140, 1, 0x02, 0x02, .uint 1, .rwd, .num 0, false⟩,
   ⟨0x1140, 1, 0x03, 0x03, .uint 1, .rwd, .num 3, false⟩,
   ⟨0x1140, 1, 0x04, 0x04, .uint 1, .rwd, .num 3, false⟩,
   ⟨0x1140, 1, 0x05, 0x05, .sint 4, .rwd, .num 4294967292, false⟩,
   ⟨0x1140, 1, 0x06, 0x06, .uint 1, .ro, .num 255, false⟩,
   ⟨0x1140, 1, 0x07, 0x07, .domain 10 false, .ro, .num 0, false⟩,
   ⟨0x1140, 1, 0x08, 0x08, .domain 8 false, .ro, .num 0, false⟩,
   ⟨0x1140, 1, 0x09, 0x09, .domain 4 false, .ro, .num 0, false⟩,
   ⟨0x1140, 1, 0x0A, 0x0A, .uint 2, .ro, .num 0, false⟩,
   ⟨0x1140, 1, 0x0B, 0x0B, .sint 8, .ro, .num 0, false⟩] ++
  [⟨0x1140, 1, 0x0C, 0x0C, .sint 4, .ro, .num 0, false⟩,
   ⟨0x1140, 1, 0x0D, 0x0D, .uint 8, .ro, .num 0, false⟩,
   ⟨0x1140, 1, 0x0E, 0x0E, .uint 4, .ro, .num 0, false⟩,
   ⟨0x1140, 1, 0x0F, 0x0F, .sint 4, .ro, .num 0, false⟩]

/-- R454. -/
def objRows1200 : List ObjRow :=
  [⟨0x1200, 1, 0x00, 0x00, .uint 1, .const, .num 6, false⟩,
   ⟨0x1200, 1, 0x01, 0x01, .uint 8, .ro, .num 0, false⟩,
   ⟨0x1200, 1, 0x02, 0x02, .uint 2, .ro, .num 0, false⟩,
   ⟨0x1200, 1, 0x03, 0x03, .uint 1, .ro, .num 0, false⟩,
   ⟨0x1200, 1, 0x04, 0x04, .domain 12288 false, .ro, .num 0, false⟩,
   ⟨0x1200, 1, 0x05, 0x05, .bool, .wo, .num 0, false⟩]

/-- R455. -/
def objRows1210 : List ObjRow :=
  [⟨0x1210, 1, 0x00, 0x00, .uint 1, .const, .num 18, false⟩,
   ⟨0x1210, 1, 0x01, 0x10, .domain 80 false, .ro, .num 0, false⟩,
   ⟨0x1210, 1, 0x11, 0x11, .uint 8, .ro, .num 0, false⟩]

/-- R457. -/
def objRows3000 : List ObjRow :=
  [⟨0x3000, 1, 0x00, 0x00, .uint 1, .const, .num 9, false⟩,
   ⟨0x3000, 1, 0x01, 0x01, .uint 1, .rw, .num 0, false⟩,
   ⟨0x3000, 1, 0x02, 0x02, .time, .rw, .num 16000000, false⟩,
   ⟨0x3000, 1, 0x03, 0x03, .time, .rw, .num 320000, false⟩,
   ⟨0x3000, 1, 0x04, 0x04, .uint 4, .rw, .num 512, false⟩,
   ⟨0x3000, 1, 0x05, 0x05, .uint 4, .rw, .num 16384, false⟩,
   ⟨0x3000, 1, 0x06, 0x06, .uint 2, .rw, .num 256, false⟩,
   ⟨0x3000, 1, 0x07, 0x07, .uint 4, .rw, .num 8192, false⟩,
   ⟨0x3000, 1, 0x08, 0x08, .uint 1, .rw, .num 0, false⟩]

/-- R458. -/
def objRows6000 : List ObjRow :=
  [⟨0x6000, 1, 0x00, 0x00, .uint 1, .const, .num 5, false⟩,
   ⟨0x6000, 1, 0x01, 0x01, .uint 8, .rw, .num 0, false⟩,
   ⟨0x6000, 1, 0x02, 0x02, .uint 4, .rw, .num 0, false⟩,
   ⟨0x6000, 1, 0x03, 0x03, .uint 2, .rw, .num 15, false⟩,
   ⟨0x6000, 1, 0x04, 0x04, .uint 2, .ro, .num 1, false⟩]

/-- R523. -/
def objRows4400 : List ObjRow :=
  [⟨0x4400, 1, 0x00, 0x00, .uint 1, .const, .num 25, false⟩,
   ⟨0x4401, 17, 0x00, 0x00, .uint 1, .const, .num 15, false⟩,
   ⟨0x4400, 18, 0x01, 0x01, .uint 1, .ro, .num 0, false⟩,
   ⟨0x4400, 18, 0x02, 0x02, .bool, .rw, .num 1, false⟩,
   ⟨0x4400, 18, 0x03, 0x03, .uint 1, .ro, .num 0, false⟩,
   ⟨0x4400, 18, 0x04, 0x04, .uint 1, .ro, .num 0, false⟩,
   ⟨0x4400, 18, 0x05, 0x05, .uint 2, .ro, .num 0xffff, false⟩,
   ⟨0x4400, 18, 0x06, 0x06, .uint 1, .ro, .num 255, false⟩,
   ⟨0x4400, 18, 0x07, 0x07, .domain 16 false, .ro, .num 0, false⟩,
   ⟨0x4400, 18, 0x08, 0x08, .uint 8, .ro, .num 0, false⟩,
   ⟨0x4400, 18, 0x09, 0x09, .uint 8, .ro, .num 0, false⟩,
   ⟨0x4400, 18, 0x0A, 0x0A, .uint 8, .ro, .num 0, false⟩] ++
  [⟨0x4400, 18, 0x0B, 0x0B, .uint 8, .ro, .num 0, false⟩,
   ⟨0x4400, 18, 0x0C, 0x0C, .uint 8, .ro, .num 0, false⟩,
   ⟨0x4400, 18, 0x0D, 0x0D, .uint 1, .ro, .num 0, false⟩,
   ⟨0x4400, 18, 0x0E, 0x0E, .uint 4, .ro, .num 0, false⟩,
   ⟨0x4400, 1, 0x20, 0x20, .uint 2, .rwd, .num 0xffff, false⟩,
   ⟨0x4400, 1, 0x21, 0x21, .domain 2048 false, .rw, .num 0, false⟩,
   ⟨0x4400, 1, 0x22, 0x22, .domain 512 false, .rw, .num 0, false⟩,
   ⟨0x4400, 1, 0x23, 0x23, .domain 512 false, .rw, .num 0, false⟩,
   ⟨0x4400, 1, 0x24, 0x24, .domain 32 false, .ro, .num 0, false⟩,
   ⟨0x4400, 1, 0x25, 0x25, .time, .rw, .num 1600000, false⟩,
   ⟨0x4400, 1, 0x26, 0x26, .domain 8 false, .rw, .num 0, false⟩,
   ⟨0x4400, 1, 0x27, 0x27, .uint 8, .ro, .num 0, false⟩] ++
  [⟨0x4400, 1, 0x28, 0x28, .uint 8, .ro, .num 0, false⟩,
   ⟨0x4400, 1, 0x29, 0x29, .uint 8, .ro, .num 0, false⟩]

/-- R524. -/
def objRows4800 : List ObjRow :=
  [⟨0x4800, 1, 0x00, 0x00, .uint 1, .const, .num 22, false⟩,
   ⟨0x4800, 1, 0x01, 0x01, .uint 1, .rw, .num 0, false⟩,
   ⟨0x4800, 1, 0x02, 0x02, .uint 1, .ro, .num 0, false⟩,
   ⟨0x4800, 1, 0x03, 0x03, .domain 64 false, .ro, .num 0, false⟩,
   ⟨0x4800, 1, 0x04, 0x04, .str, .rwd, .num 0, false⟩,
   ⟨0x4800, 1, 0x05, 0x05, .uint 1, .ro, .num 255, false⟩,
   ⟨0x4800, 1, 0x06, 0x06, .uint 4, .rw, .num 0, false⟩,
   ⟨0x4800, 1, 0x07, 0x07, .domain 16 false, .rw, .num 0, false⟩,
   ⟨0x4800, 1, 0x08, 0x08, .domain 8 false, .rw, .num 0, false⟩,
   ⟨0x4800, 1, 0x09, 0x09, .time, .rw, .num 960000000000, false⟩,
   ⟨0x4800, 1, 0x0A, 0x0A, .time, .rw, .num 800000000, false⟩,
   ⟨0x4800, 1, 0x0B, 0x0B, .time, .rwd, .num 160000, false⟩] ++
  [⟨0x4800, 1, 0x0C, 0x0C, .uint 1, .rwd, .num 3, false⟩,
   ⟨0x4800, 1, 0x0D, 0x0D, .time, .rwd, .num 8000000, false⟩,
   ⟨0x4800, 1, 0x0E, 0x0E, .uint 4, .ro, .num 0, false⟩,
   ⟨0x4800, 1, 0x0F, 0x0F, .domain 32 false, .ro, .num 0, false⟩,
   ⟨0x4800, 1, 0x10, 0x10, .uint 8, .ro, .num 0, false⟩,
   ⟨0x4800, 1, 0x11, 0x11, .time, .ro, .num 0, false⟩,
   ⟨0x4800, 1, 0x12, 0x12, .uint 8, .ro, .num 0, false⟩,
   ⟨0x4800, 1, 0x13, 0x13, .sint 8, .ro, .num 0, false⟩,
   ⟨0x4800, 1, 0x14, 0x14, .uint 4, .ro, .num 0, false⟩,
   ⟨0x4800, 1, 0x15, 0x15, .domain 256 false, .ro, .num 0, false⟩]

/-- R551. -/
def objRows5000 : List ObjRow :=
  [⟨0x5000, 1, 0x00, 0x00, .uint 1, .const, .num 14, false⟩,
   ⟨0x5000, 1, 0x01, 0x01, .uint 8, .ro, .num 0, false⟩,
   ⟨0x5000, 1, 0x02, 0x02, .uint 2, .ro, .num 0, false⟩,
   ⟨0x5000, 1, 0x03, 0x03, .uint 2, .ro, .num 0, false⟩,
   ⟨0x5000, 1, 0x04, 0x04, .domain 262144 false, .ro, .num 0, false⟩,
   ⟨0x5000, 1, 0x05, 0x05, .domain 64 false, .ro, .num 0, false⟩,
   ⟨0x5000, 1, 0x06, 0x06, .bool, .wo, .num 0, false⟩,
   ⟨0x5000, 1, 0x07, 0x07, .uint 8, .ro, .num 0, false⟩,
   ⟨0x5000, 1, 0x08, 0x08, .uint 1, .rw, .num 1, false⟩,
   ⟨0x5000, 1, 0x09, 0x09, .uint 1, .rw, .num 2, false⟩,
   ⟨0x5000, 1, 0x0A, 0x0A, .uint 8, .ro, .num 0, false⟩,
   ⟨0x5000, 1, 0x0B, 0x0B, .domain 4096 false, .ro, .num 0, false⟩] ++
  [⟨0x5000, 1, 0x0C, 0x0C, .uint 2, .ro, .num 0, false⟩,
   ⟨0x5000, 1, 0x0D, 0x0D, .uint 8, .ro, .num 0, false⟩]

/-- R552. -/
def objRows5100 : List ObjRow :=
  [⟨0x5100, 1, 0x00, 0x00, .uint 1, .const, .num 9, false⟩,
   ⟨0x5100, 1, 0x01, 0x01, .domain 16 false, .wo, .num 0, false⟩,
   ⟨0x5100, 1, 0x02, 0x02, .uint 4, .ro, .num 0, false⟩,
   ⟨0x5100, 1, 0x03, 0x03, .domain 2048 false, .ro, .num 0, false⟩,
   ⟨0x5100, 1, 0x04, 0x04, .uint 2, .ro, .num 0, false⟩,
   ⟨0x5100, 1, 0x05, 0x05, .uint 8, .ro, .num 0, false⟩,
   ⟨0x5100, 1, 0x06, 0x06, .uint 8, .ro, .num 0, false⟩,
   ⟨0x5100, 1, 0x07, 0x07, .uint 8, .ro, .num 0, false⟩,
   ⟨0x5100, 1, 0x08, 0x08, .domain 384 false, .ro, .num 0, false⟩]

/-- R553. -/
def objRows5200 : List ObjRow :=
  [⟨0x5200, 1, 0x00, 0x00, .uint 1, .const, .num 8, false⟩,
   ⟨0x5200, 1, 0x01, 0x01, .domain 8192 false, .ro, .num 0, false⟩,
   ⟨0x5200, 1, 0x02, 0x02, .uint 2, .ro, .num 0, false⟩,
   ⟨0x5200, 1, 0x03, 0x03, .uint 2, .ro, .num 0, false⟩,
   ⟨0x5200, 1, 0x04, 0x04, .domain 24 false, .rw, .num 0, false⟩,
   ⟨0x5200, 1, 0x05, 0x05, .uint 1, .rw, .num 255, false⟩,
   ⟨0x5200, 1, 0x06, 0x06, .uint 8, .ro, .num 0, false⟩,
   ⟨0x5200, 1, 0x07, 0x07, .uint 8, .ro, .num 0, false⟩]

/-- R567. -/
def objRows7000 : List ObjRow :=
  [⟨0x7000, 1, 0x00, 0x00, .uint 1, .const, .num 7, false⟩,
   ⟨0x7000, 1, 0x01, 0x01, .uint 1, .ro, .num 0, false⟩,
   ⟨0x7000, 1, 0x02, 0x02, .domain 4096 true, .ro, .num 0, false⟩,
   ⟨0x7000, 1, 0x03, 0x03, .str, .ro, .num 0, false⟩,
   ⟨0x7000, 1, 0x04, 0x04, .str, .ro, .num 0, false⟩,
   ⟨0x7000, 1, 0x05, 0x05, .str, .ro, .num 0, false⟩,
   ⟨0x7000, 1, 0x06, 0x06, .bool, .ro, .num 0, false⟩]

/-- R567. -/
def objRows7001 : List ObjRow :=
  [⟨0x7001, 24, 0x00, 0x00, .uint 1, .const, .num 7, false⟩,
   ⟨0x7001, 24, 0x01, 0x01, .uint 1, .ro, .num 0, false⟩,
   ⟨0x7001, 24, 0x02, 0x02, .uint 1, .ro, .num 0, false⟩,
   ⟨0x7001, 24, 0x03, 0x03, .str, .ro, .num 0, false⟩,
   ⟨0x7001, 24, 0x04, 0x04, .str, .ro, .num 0, false⟩,
   ⟨0x7001, 24, 0x05, 0x05, .uint 2, .ro, .num 0, false⟩,
   ⟨0x7001, 24, 0x06, 0x06, .f32, .ro, .num 0, false⟩]

/-- R567. -/
def objRows7020 : List ObjRow :=
  [⟨0x7020, 20, 0x00, 0x00, .uint 1, .const, .num 6, false⟩,
   ⟨0x7020, 20, 0x01, 0x01, .uint 1, .ro, .num 0, false⟩,
   ⟨0x7020, 20, 0x02, 0x02, .domain 128 false, .ro, .num 0, false⟩,
   ⟨0x7020, 20, 0x03, 0x03, .domain 128 false, .ro, .num 0, false⟩,
   ⟨0x7020, 20, 0x04, 0x04, .uint 1, .ro, .num 0, false⟩,
   ⟨0x7020, 20, 0x05, 0x05, .bool, .ro, .num 0, false⟩]

/-- R572. -/
def objRows3010 : List ObjRow :=
  [⟨0x3010, 1, 0x00, 0x00, .uint 1, .const, .num 9, false⟩,
   ⟨0x3010, 1, 0x01, 0x01, .uint 4, .ro, .num 0, false⟩,
   ⟨0x3010, 1, 0x02, 0x02, .domain 1048576 true, .ro, .num 0, false⟩,
   ⟨0x3010, 1, 0x03, 0x03, .domain 24 false, .ro, .num 0, false⟩,
   ⟨0x3010, 1, 0x04, 0x04, .domain 180 false, .ro, .num 0, false⟩,
   ⟨0x3010, 1, 0x05, 0x05, .domain 384 false, .ro, .num 0, false⟩,
   ⟨0x3010, 1, 0x06, 0x06, .uint 4, .ro, .num 0, false⟩,
   ⟨0x3010, 1, 0x07, 0x07, .uint 4, .ro, .num 0, false⟩,
   ⟨0x3010, 1, 0x08, 0x08, .uint 4, .ro, .num 0, false⟩]

/-- R572. -/
def objRows3011 : List ObjRow :=
  [⟨0x3011, 1, 0x00, 0x00, .uint 1, .const, .num 5, false⟩,
   ⟨0x3011, 1, 0x01, 0x01, .domain 24 false, .ro, .num 0, false⟩,
   ⟨0x3011, 1, 0x02, 0x02, .domain 23 false, .ro, .num 0, false⟩,
   ⟨0x3011, 1, 0x03, 0x03, .uint 2, .ro, .num 0, false⟩,
   ⟨0x3011, 1, 0x04, 0x04, .time, .ro, .num 0, false⟩]

/-- R600. -/
def objRows5800 : List ObjRow :=
  [⟨0x5800, 1, 0x00, 0x00, .uint 1, .const, .num 13, false⟩,
   ⟨0x5800, 1, 0x01, 0x01, .uint 1, .ro, .num 0, false⟩,
   ⟨0x5800, 1, 0x02, 0x02, .domain 4 false, .ro, .num 0, false⟩,
   ⟨0x5800, 1, 0x03, 0x03, .domain 256 false, .ro, .num 0, false⟩,
   ⟨0x5800, 1, 0x04, 0x04, .uint 1, .ro, .num 0, false⟩,
   ⟨0x5800, 1, 0x05, 0x05, .uint 1, .ro, .num 0, false⟩,
   ⟨0x5800, 1, 0x06, 0x06, .domain 32 false, .ro, .num 0, false⟩,
   ⟨0x5800, 1, 0x07, 0x07, .uint 1, .rw, .signMode, false⟩,
   ⟨0x5800, 1, 0x08, 0x08, .domain 9859 false, .wo, .num 0, false⟩,
   ⟨0x5800, 1, 0x09, 0x09, .domain 7267 false, .wo, .num 0, false⟩,
   ⟨0x5800, 1, 0x0A, 0x0A, .domain 7267 false, .wo, .num 0, false⟩,
   ⟨0x5800, 1, 0x0B, 0x0B, .uint 1, .wo, .num 0, false⟩] ++
  [⟨0x5800, 1, 0x0C, 0x0C, .uint 4, .ro, .num 0, false⟩]

/-- R600. -/
def objRows5810 : List ObjRow :=
  [⟨0x5810, 1, 0x00, 0x00, .domain 16777216 true, .wo, .num 0, false⟩]

/-- R600. -/
def objRows5811 : List ObjRow :=
  [⟨0x5811, 1, 0x00, 0x00, .uint 1, .const, .num 4, false⟩,
   ⟨0x5811, 1, 0x01, 0x01, .uint 1, .ro, .num 0, false⟩,
   ⟨0x5811, 1, 0x02, 0x02, .uint 1, .ro, .num 0, false⟩,
   ⟨0x5811, 1, 0x03, 0x03, .uint 2, .ro, .num 0, false⟩]

/-- R600. -/
def objRows5820 : List ObjRow :=
  [⟨0x5820, 1, 0x00, 0x00, .uint 1, .const, .num 5, false⟩,
   ⟨0x5820, 1, 0x01, 0x01, .domain 64 false, .wo, .num 0, false⟩,
   ⟨0x5820, 1, 0x02, 0x02, .domain 10019 true, .ro, .num 0, false⟩,
   ⟨0x5820, 1, 0x03, 0x03, .domain 32768 true, .ro, .num 0, false⟩,
   ⟨0x5820, 1, 0x04, 0x04, .uint 4, .ro, .num 0, false⟩]

/-- R600. -/
def objRows5840 : List ObjRow :=
  [⟨0x5840, 1, 0x00, 0x00, .uint 1, .const, .num 6, false⟩,
   ⟨0x5840, 1, 0x01, 0x01, .domain 1568 false, .ro, .num 0, false⟩,
   ⟨0x5840, 1, 0x02, 0x02, .domain 4627 false, .ro, .num 0, false⟩,
   ⟨0x5840, 1, 0x03, 0x03, .domain 1568 false, .wo, .num 0, false⟩,
   ⟨0x5840, 1, 0x04, 0x04, .domain 108 false, .wo, .num 0, false⟩,
   ⟨0x5840, 1, 0x05, 0x05, .domain 160 false, .ro, .num 0, false⟩]

/-- The debug object of a logical tile (R243): three subindices for each of 48 semaphores. -/
def objRowsDebug (idx sub : Nat) : List ObjRow :=
  if sub = 0 then [⟨idx, 1, 0, 0, .uint 1, .const, .num 145, false⟩]
  else if sub > 144 then []
  else if sub % 3 = 1 then [⟨idx, 1, sub, sub, .uint 2, .ro, .num 0, false⟩]
  else if sub % 3 = 2 then [⟨idx, 1, sub, sub, .domain 36 false, .ro, .num 0, false⟩]
  else [⟨idx, 1, sub, sub, .domain 16 false, .ro, .num 0, false⟩]

/-- The master map (R447): the rows of the object at an index. -/
def objRowsAt (idx sub : Nat) : List ObjRow :=
  if idx = 0x1000 then objRows1000
  else if 0x1100 ≤ idx ∧ idx < 0x1103 then objRows1100
  else if idx = 0x1140 then objRows1140
  else if idx = 0x1200 then objRows1200
  else if idx = 0x1210 then objRows1210
  else if idx = 0x2000 then objRows2000
  else if 0x2010 ≤ idx ∧ idx < 0x2028 then objRows2010
  else if idx = 0x2100 then objRows2100
  else if idx = 0x2200 then objRows2200
  else if idx = 0x3000 then objRows3000
  else if idx = 0x3010 then objRows3010
  else if idx = 0x3011 then objRows3011
  else if 0x3100 ≤ idx ∧ idx < 0x3140 then objRows3100
  else if idx = 0x3200 then objRows3200
  else if idx = 0x3300 then objRows3300
  else if idx = 0x3400 then objRows3400
  else if idx = 0x3600 then objRows3600
  else if 0x4000 ≤ idx ∧ idx < 0x4018 then objRows4000
  else if 0x4400 ≤ idx ∧ idx < 0x4412 then objRows4400
  else if idx = 0x4800 then objRows4800
  else if idx = 0x5000 then objRows5000
  else if idx = 0x5100 then objRows5100
  else if idx = 0x5200 then objRows5200
  else if idx = 0x5800 then objRows5800
  else if idx = 0x5810 then objRows5810
  else if idx = 0x5811 then objRows5811
  else if idx = 0x5820 then objRows5820
  else if idx = 0x5840 then objRows5840
  else if idx = 0x6000 then objRows6000
  else if idx = 0x7000 then objRows7000
  else if 0x7001 ≤ idx ∧ idx < 0x7019 then objRows7001
  else if 0x7020 ≤ idx ∧ idx < 0x7034 then objRows7020
  else if 0x9000 ≤ idx ∧ idx < 0x9A8C then objRowsDebug idx sub
  else []

/-- The row of a subindex, if its object lists it (R432). -/
def objRow (idx sub : Nat) : Option ObjRow :=
  (objRowsAt idx sub).find? fun r => decide (r.idx ≤ idx ∧ idx < r.idx + r.count ∧ r.subLo ≤ sub ∧ sub ≤ r.subHi)

/-- The fixed size of a type in bytes; a string and an "up to" DOMAIN have none. -/
def ObjType.size : ObjType → Option Nat
  | .uint n => some n
  | .sint n => some n
  | .bool => some 1
  | .f32 => some 4
  | .time => some 8
  | .str => none
  | .domain n upTo => if upTo then none else some n

end Sys2Proof.Machine
end

