-- ==== Sys2Proof/Machine/RegMap.lean ====
section
/-! DEFINITION. Register block space (R462): the blocks, the addresses of the named registers, each register's fields by access code (R468) and its reset value. -/
namespace Sys2Proof.Machine
open Sys2Proof

/-- A register block, in its physical form (R462). -/
inductive RegBlock where
  | array (s : Nat) | spad (s : Nat) | net (s : Nat) | sync (s : Nat) | hub (c : Nat) | vr (c : Nat)
  | field (n : Nat) | barrier | err | mbox
deriving DecidableEq, Repr

def tileBase (s : Nat) : Nat := 0xF00000000000 + s * 0x10000
def logicalTileBase : Nat := 0xF00100000000
def arrayReg (s off : Nat) : Nat := tileBase s + off
def spadReg (s off : Nat) : Nat := tileBase s + 0x1000 + off
def netReg (s off : Nat) : Nat := tileBase s + 0x2000 + off
def syncReg (s off : Nat) : Nat := tileBase s + 0x3000 + off
def hubReg (c off : Nat) : Nat := 0xF00200000000 + c * 0x10000 + off
def vrReg (c off : Nat) : Nat := hubReg c (0x1000 + off)
def fieldReg (n off : Nat) : Nat := 0xF00300000000 + n * 0x10000 + off
def barrierReg (off : Nat) : Nat := 0xF00400000000 + off
def bgReg (g off : Nat) : Nat := barrierReg (32 * g + off)
def errReg (off : Nat) : Nat := 0xF00500000000 + off
def mboxReg (off : Nat) : Nat := 0xF00600000000 + off
def mbReg (m off : Nat) : Nat := mboxReg (0x40 * m + off)

/-- The base address of a block. -/
def RegBlock.base : RegBlock → Nat
  | .array s => arrayReg s 0
  | .spad s => spadReg s 0
  | .net s => netReg s 0
  | .sync s => syncReg s 0
  | .hub c => hubReg c 0
  | .vr c => vrReg c 0
  | .field n => fieldReg n 0
  | .barrier => barrierReg 0
  | .err => errReg 0
  | .mbox => mboxReg 0

/-- The block and offset of a physical register address (R462). -/
def regBlockAt (a : Nat) : Option (RegBlock × Nat) :=
  if a < 0xF00000000000 then none
  else
    let r := a - 0xF00000000000
    let page := r / 0x100000000
    let q := r % 0x100000000
    let i := q / 0x10000
    let off := q % 0x10000
    if page = 0 then
      if i < 3072 then
        if off < 0x1000 then some (.array i, off)
        else if off < 0x2000 then some (.spad i, off - 0x1000)
        else if off < 0x3000 then some (.net i, off - 0x2000)
        else if off < 0x4000 then some (.sync i, off - 0x3000)
        else none
      else none
    else if page = 2 then
      if i < 192 then
        if off < 0x1000 then some (.hub i, off)
        else if off < 0x2000 then some (.vr i, off - 0x1000)
        else none
      else none
    else if page = 3 then (if i < 12 then some (.field i, off) else none)
    else if page = 4 then (if i = 0 then some (.barrier, off) else none)
    else if page = 5 then (if i = 0 then some (.err, off) else none)
    else if page = 6 then (if i = 0 then some (.mbox, off) else none)
    else none

/-- The fields of a register by access code: RW, RWD and W1C bits; every other bit is RO or reserved. `wm` marks a write-masked register (R473). -/
structure RegSpec where
  rw : Nat
  rwd : Nat
  w1c : Nat
  wm : Bool
deriving DecidableEq, Repr

/-- A register with RO fields only. -/
def RegSpec.ro : RegSpec := ⟨0, 0, 0, false⟩

/-- The registers of an array block (R95 to R98). -/
def arraySpec (off : Nat) : Option RegSpec :=
  if off = 0x000 then some ⟨0x1, 0xFF00, 0, false⟩
  else if off = 0x004 then some ⟨0, 0, 0x100, false⟩
  else if 0x010 ≤ off ∧ off ≤ 0x048 then some .ro
  else none

/-- The registers of a scratchpad block (R171 to R174). -/
def spadSpec (off : Nat) : Option RegSpec :=
  if off = 0x000 then some ⟨0x1, 0, 0, false⟩
  else if off = 0x004 then some ⟨0, 0, 0x200, false⟩
  else if off = 0x008 then some ⟨0xFFFF, 0, 0, true⟩
  else if (0x00C ≤ off ∧ off ≤ 0x02C) ∨ off = 0x030 ∨ off = 0x034 ∨ off = 0x038 then some .ro
  else if 0x040 ≤ off ∧ off ≤ 0x05C then some ⟨0x1FFFFFFF, 0, 0, false⟩
  else if 0x100 ≤ off ∧ off ≤ 0x2FC then some ⟨0, 0x83FF, 0, false⟩
  else none

/-- The registers of a network block (R208 to R210). -/
def netSpec (off : Nat) : Option RegSpec :=
  if off = 0x000 then some ⟨0x1, 0, 0, false⟩
  else if off = 0x004 then some ⟨0, 0, 0x100, false⟩
  else if off = 0x008 then some ⟨0, 0x1FFF, 0, false⟩
  else if 0x010 ≤ off ∧ off ≤ 0x028 then some .ro
  else if 0x100 ≤ off ∧ off ≤ 0x23C then some ⟨0x1F, 0, 0, false⟩
  else none

/-- The registers of a sync block (R237 to R239). -/
def syncSpec (off : Nat) : Option RegSpec :=
  if off = 0x000 then some ⟨0x1, 0x2, 0, false⟩
  else if off = 0x004 then some ⟨0, 0, 0x107, false⟩
  else if 0x008 ≤ off ∧ off ≤ 0x01C then some .ro
  else none

/-- The registers of a cluster hub block (R474). -/
def hubSpec (off : Nat) : Option RegSpec :=
  if off = 0x000 then some ⟨0x1, 0, 0, false⟩
  else if off = 0x004 then some ⟨0, 0, 0x100, false⟩
  else if off = 0x008 then some ⟨0, 0x1FF, 0, false⟩
  else if off = 0x00C then some ⟨0, 0xFFFF, 0, false⟩
  else if 0x010 ≤ off ∧ off ≤ 0x048 then some ⟨0, 0x1F, 0, false⟩
  else if 0x050 ≤ off ∧ off ≤ 0x05C then some .ro
  else none

/-- The registers of a cluster regulator block (R479). -/
def vrSpec (off : Nat) : Option RegSpec :=
  if off = 0x000 then some ⟨0x1, 0xFF00, 0, false⟩
  else if off = 0x004 then some ⟨0, 0, 0x10000, false⟩
  else if 0x008 ≤ off ∧ off ≤ 0x028 then some .ro
  else none

/-- The registers of a field hub block (R211, R212, R478). -/
def fieldSpec (off : Nat) : Option RegSpec :=
  if off = 0x000 then some ⟨0x1, 0, 0, false⟩
  else if off = 0x004 then some ⟨0, 0, 0x100, false⟩
  else if off = 0x008 ∨ off = 0x00C then some ⟨0xFFFFFFFF, 0, 0, false⟩
  else if 0x010 ≤ off ∧ off ≤ 0x028 then some .ro
  else if 0x1000 ≤ off ∧ off ≤ 0x19FC then some ⟨0x7F7F7F7F, 0, 0, false⟩
  else if 0x2000 ≤ off ∧ off ≤ 0x21FC then some ⟨0x7F, 0, 0, false⟩
  else if 0x3000 ≤ off ∧ off ≤ 0x3038 then some ⟨0, 0x1F, 0, false⟩
  else if off = 0x3040 then some .ro
  else none

/-- The registers of the barrier unit (R240 to R242). -/
def barrierSpec (off : Nat) : Option RegSpec :=
  if off < 0x800 then
    let o := off % 32
    if o = 0 then some ⟨0x1, 0x0FFF3F06, 0, false⟩
    else if o = 4 then some ⟨0, 0, 0x03000000, false⟩
    else if o = 8 ∨ o = 12 ∨ o = 16 ∨ o = 20 then some ⟨0xFFFFFFFF, 0, 0, false⟩
    else if o = 24 ∨ o = 28 then some .ro
    else none
  else if off ≤ 0x8FC then some .ro
  else none

/-- The registers of the error block (R480). -/
def errSpec (off : Nat) : Option RegSpec :=
  if off = 0x000 then some ⟨0x101, 0, 0, false⟩
  else if off = 0x004 then some ⟨0, 0, 0x102, false⟩
  else if off = 0x008 then some ⟨0xFF, 0, 0, false⟩
  else if off = 0x00C then some ⟨0, 0, 0xFF, false⟩
  else if 0x010 ≤ off ∧ off ≤ 0x024 then some .ro
  else none

/-- The registers of the mailbox block (R482, R483). -/
def mboxSpec (off : Nat) : Option RegSpec :=
  if off < 0x1000 then
    let o := off % 0x40
    if o = 0 ∨ o = 4 then some ⟨0xFFFFFFFF, 0, 0, false⟩
    else if o = 8 then some ⟨0, 0, 0xE, false⟩
    else if o = 12 ∨ o = 16 ∨ o = 20 then some .ro
    else none
  else if off < 0x1200 then (if off % 8 = 0 then some ⟨0, 0x3FFFFF, 0, false⟩ else some ⟨0, 0xFFFFFFFF, 0, false⟩)
  else if off = 0x1800 then some ⟨0, 0x1, 0, false⟩
  else if off = 0x1804 then some ⟨0, 0, 0x101, false⟩
  else none

/-- The register at an offset of a block; none where no map lists the offset (R464). The capture of R470 stands in every block with a WRITE_IGNORED flag. -/
def regSpec (b : RegBlock) (off : Nat) : Option RegSpec :=
  if off % 4 ≠ 0 then none
  else if 0xFF0 ≤ off ∧ off ≤ 0xFFC then some .ro
  else match b with
    | .array _ => arraySpec off
    | .spad _ => spadSpec off
    | .net _ => netSpec off
    | .sync _ => syncSpec off
    | .hub _ => hubSpec off
    | .vr _ => vrSpec off
    | .field _ => fieldSpec off
    | .barrier => barrierSpec off
    | .err => errSpec off
    | .mbox => mboxSpec off

/-- Whether the LO word of a 64-bit pair stands at an offset (R472). -/
def isPairLo (b : RegBlock) (off : Nat) : Bool :=
  decide (off = 0xFF0) || match b with
    | .array _ => decide (off = 0x010 ∨ off = 0x018 ∨ off = 0x040)
    | .spad _ => decide (off = 0x010 ∨ off = 0x034)
    | .net _ => decide (off = 0x010 ∨ off = 0x018)
    | .sync _ => decide (off = 0x010)
    | .hub _ => decide (off = 0x050 ∨ off = 0x058)
    | .vr _ => decide (off = 0x020)
    | .field _ => decide (off = 0x008)
    | .barrier => decide (off < 0x800 ∧ (off % 32 = 8 ∨ off % 32 = 16 ∨ off % 32 = 24))
    | .err => decide (off = 0x010 ∨ off = 0x020)
    | .mbox => decide ((off < 0x1000 ∧ (off % 0x40 = 0 ∨ off % 0x40 = 16)) ∨ (0x1000 ≤ off ∧ off < 0x1200 ∧ off % 8 = 0))

/-- Whether the HI word of a pair stands at an offset. -/
def isPairHi (b : RegBlock) (off : Nat) : Bool := decide (4 ≤ off) && isPairLo b (off - 4)

/-- The reset value of the register at an offset of a block, as its chapter's table gives it. -/
def regResetAt (b : RegBlock) (off : Nat) : Word32 :=
  if off = 0xFF8 then 0x3FF
  else match b with
    | .net _ => if off = 0x008 then 0x1FFF else 0
    | .hub _ => if off = 0x008 then 0xFF else 0
    | .vr _ => if off = 0x008 then 0xFF else 0
    | .field _ =>
      if off = 0x008 then 0x00186A00
      else if 0x1000 ≤ off ∧ off ≤ 0x19FC then 0x40404040
      else if 0x2000 ≤ off ∧ off ≤ 0x21FC then 0x7F
      else 0
    | .err => if off = 0x008 then 0xFE else 0
    | .mbox => if 0x1000 ≤ off ∧ off < 0x1200 ∧ off % 8 = 4 then 0x2710 else 0
    | _ => 0

/-- The reset value of the register at a physical address. -/
def regReset (a : Nat) : Word32 :=
  match regBlockAt a with
  | some (b, off) => regResetAt b off
  | none => 0

/-- The address and bit of the enable that judges RWD fields of a register (R469, R483). -/
def regEnable : RegBlock → Nat → Nat × Nat
  | .barrier, off => (barrierReg (off / 32 * 32), 0)
  | .mbox, _ => (mboxReg 0x1800, 0)
  | b, _ => (b.base, 0)

/-- The address and bit of the WRITE_IGNORED flag of a register's block. -/
def regIgnoredFlag : RegBlock → Nat → Nat × Nat
  | .spad s, _ => (spadReg s 4, 9)
  | .vr c, _ => (vrReg c 4, 16)
  | .barrier, off => (barrierReg (off / 32 * 32 + 4), 24)
  | .mbox, _ => (mboxReg 0x1804, 8)
  | b, _ => (b.base + 4, 8)

end Sys2Proof.Machine
end

