-- ==== Sys2Proof/Machine/State.lean ====
section
/-! DEFINITION. The state of the block as plain data: every memory, register, object, queue and record the spec gives the Ossil L12, and the state after reset. -/
namespace Sys2Proof.Machine

/-- A sparse map in one canonical form: keys strictly rising, no entry equal to the value an unlisted key reads as. -/
abbrev SMap (α : Type) := List (Nat × α)

/-- A memory: bytes by address in canonical form; an unlisted byte reads 0 (log entry 5). -/
abbrev Memory := List Host.Cell

/-- What a scalar core is doing (R102, R107, R108, R216, R226). `halted` is a HALT; `trapped` is the halt of R107, which lasts until CONFIGURE. -/
inductive CoreStatus where
  | running | halted | trapped | sleeping | waiting | fenced
deriving DecidableEq, Repr

/-- A fence in progress: its scope and the commands it covers (R226). -/
structure FenceRec where
  scope : Nat
  covered : List (QueueId × BitVec 16)
deriving DecidableEq, Repr

/-- An LLD in progress: its row and pc, and the row its granted read took, or none where the access was refused (R104, R105, R148). -/
structure LldRec where
  row : BitVec 13
  pc : BitVec 16
  taken : Option (List Byte × BitVec 8)
deriving DecidableEq, Repr

/-- One scalar core of a tile (R99, R105, R106). -/
structure Core where
  gregs : SMap Word64
  pc : BitVec 16
  status : CoreStatus
  latch : Memory
  latchTags : BitVec 8
  lld : Option LldRec
  fence : Option FenceRec
  woken : Bool
  trapDue : Option (BitVec 16)
  tvec : Word64
  epc : Word64
  cause : Word64
  entry : Word64
deriving DecidableEq, Repr

/-- How far a queued command has come (R112 to R116). -/
inductive Progress where
  | queued | waiting | granted | running | done (status : BitVec 8)
deriving DecidableEq, Repr

/-- A command accepted into a queue and not yet retired (R112, R114, R117). -/
structure QEntry where
  seq : BitVec 16
  desc : BitVec 128
  prog : Progress
  covers : List (QueueId × BitVec 16)
deriving DecidableEq, Repr

/-- A command queue: CR_QDONE and CR_QERR stand beside its entries (R106, R114, R116). -/
structure CmdQueue where
  entries : List QEntry
  nextSeq : BitVec 16
  retired : BitVec 16
  err : Word64
deriving DecidableEq, Repr

/-- The agents that wait on a tile's semaphores (R215). -/
inductive Agent where
  | core (c : CoreId) | queue (q : QueueId)
deriving DecidableEq, Repr

/-- A wait in progress (R215, R216). -/
structure Waiter where
  agent : Agent
  sem : Nat
  watch : Bool
  count : Nat
  /-- The tile cycle in which the wait began (R216 step 2). -/
  cycle : Nat
deriving DecidableEq, Repr

/-- The last-signaller entry of a semaphore (R243). -/
structure LastSignal where
  time : Nat
  source : BitVec 16
  master : Master
  path : Nat
  ord : Bool
  units : Nat
deriving DecidableEq, Repr

/-- A generator key slot with the tag and step fields beside it (R133, R320). -/
structure KeySlot where
  key : BitVec 128
  tag : BitVec 32
  step : BitVec 32
deriving DecidableEq, Repr

/-- The power state of a scratchpad bank (R147); WAKE and FILL carry the instant they began. -/
inductive BankState where
  | on | retain | off | wake (since : Nat) | fill (since : Nat)
deriving DecidableEq, Repr

/-- Where a pass of the MMA in execution stands: a first run, a repeat after a disagreement, or one of the later runs of a sampled pass (R86, R91, R92). `kind` is the transient code of R98 for the disagreement met so far. -/
inductive PassPhase where
  | first | repeated (kind : Nat) | sampleRotated (kind : Option Nat) | sampleThird (kind : Nat) | sampleFourth (kind : Nat)
deriving DecidableEq, Repr

/-- A streamed weight tile in the shadow weights (R61, R119). -/
structure Shadow where
  tile : Nat
  bytes : List Byte
  poison : Bool
deriving DecidableEq, Repr

/-- A hold buffer of the drain (R85): a pass's rows with their values by column and MX half, the check column's after the real columns, its magnitude sums, and the results of its sum row (R80, R94). -/
structure HeldPass where
  pass : Nat
  rows : List (List (List Word32))
  mags : List Word32
  sumRow : List Word32
deriving DecidableEq, Repr

/-- The command that entered an idle array queue: the instant of its load warning, and whether the array had been idle for 256 cycles (R77, R78). -/
structure IdleEntry where
  seq : BitVec 16
  warned : Nat
  ramp : Bool
deriving DecidableEq, Repr

/-- The MMA in execution (R66 to R68, R78, R85). `ready` is the tile's cycle count when the command could start but for its warning hold; `current` is the weight tile in the cells; `held` are the hold buffers in use, at most two, in order of entry; `tileDue` is the instant from which the array waits for a streamed tile (R64). -/
structure MmaExec where
  seq : BitVec 16
  started : Bool
  ready : Nat
  pass : Nat
  phase : PassPhase
  current : Option Shadow
  shadow : Option Shadow
  held : List HeldPass
  tileDue : Option Nat
deriving DecidableEq, Repr

/-- What one target of a multicast has taken: its rows, and the instants of the first and the last of them (R203, R204). -/
structure McTake where
  rows : Nat
  first : Nat
  last : Nat
deriving DecidableEq, Repr

/-- A MOVE in execution: the packets still awaited and what its targets answered (R130, R162, R205). `sent` counts the rows that its source has injected (R203); `flight` is a free value, the time that the first row of a multicast takes to a fork (R204; log entry 136). -/
structure MoveExec where
  seq : BitVec 16
  pending : List Nat
  status : BitVec 8
  targets : List Nat
  failedTargets : List Nat
  /-- The targets on abandoned branches (R204). -/
  dropped : List Nat
  abandoned : Bool
  windowRefused : Bool
  otherError : Bool
  sent : Nat
  taken : SMap McTake
  started : Nat
  flight : Nat
deriving DecidableEq, Repr

/-- A release notice a tile or a regulator holds (R232, R234). -/
structure Notice where
  src : NoticeSrc
  gen : Nat
  time : Nat
deriving DecidableEq, Repr

/-- One tile site: cores, queues, semaphores, slots, banks and the unit state that no register shows. -/
structure Tile where
  core0 : Core
  core1 : Core
  arrayQ : CmdQueue
  vectorQ : CmdQueue
  moveQ : CmdQueue
  syncQ : CmdQueue
  vflags : BitVec 2
  qstat : BitVec 4
  sems : SMap (BitVec 16)
  waiters : List Waiter
  /-- Of each semaphore, the last cycle in which waits took units from it, and how many (R216). -/
  semTaken : SMap (Nat × Nat)
  lastSig : SMap LastSignal
  keySlots : SMap KeySlot
  baseSlots : SMap (BitVec 48)
  syncFence : Option FenceRec
  mma : Option MmaExec
  moves : List MoveExec
  /-- The tile's cycle count when the array last became idle (R77). -/
  idleSince : Option Nat
  rampDue : Bool
  lastWarn : Option Nat
  preWarn : Option Nat
  idleEntry : Option IdleEntry
  passNo : Nat
  banks : SMap BankState
  rot : SMap Nat
  writebacks : List (BitVec 13 × Nat)
  ceReads : SMap Nat
  repairs : List (BitVec 13)
  unscrubbed : Bool
  rtPending : List (Nat × Word32)
  attachMoved : Bool
  step : Word64
  stepPending : Option Notice
  notices : List Notice
  bgGen : SMap Nat
  bgMissed : SMap Nat
  slip : Nat
  stretched : Nat
  /-- The tile's cycle counts at its latest release slot and its latest HALT (R321, R323). -/
  releasedAt : Nat
  haltedAt : Nat
deriving DecidableEq, Repr

/-- What a packet on the die carries (R187, R203, R219, R229). -/
inductive PacketKind where
  | writeRow (data : List Byte) (tags : BitVec 8)
  | readRow
  | signal (sem : Nat) (count : Nat) (ord : Bool) (pendingRows : Nat)
  | rsem (sem : Nat)
  | arrive (group : Nat) (gen : Nat)
  | answer (status : BitVec 8) (data : List Byte) (tags : BitVec 8)
deriving DecidableEq, Repr

/-- A packet in flight (R179, R187, R195). `order` names it; `turn` is the number of its injection, an answer's being that of its own sending (R195); `mcast` names a multicast delivery; `credits` is a free value, bit i of which says whether router i of a VC2 packet's way has more credits in the column (R192). -/
structure Packet where
  order : Nat
  turn : Nat
  credits : Word64
  vc : Nat
  source : Option Site
  master : Master
  addr : Nat
  seq : BitVec 16
  index : Nat
  mcast : Bool
  kind : PacketKind
deriving DecidableEq, Repr

/-- A unit's local counter (R339, R347, R348): its value at the tick `at_` of the base clock, the error being removed from there on, whether it is held until device time reaches it, the packets missed in a row, and the latest time packet with its correction. -/
structure UnitClock where
  value : Nat
  at_ : Nat
  left : Int
  held : Bool
  missed : Nat
  packet : Option (Nat × Nat)
deriving DecidableEq, Repr

/-- A barrier group's state beside its registers (R229 to R236). `deadlineSet` is false from reset until BG_DEADLINE is first written, and again once a deadline has lapsed (R231; log entry 142). -/
structure Group where
  arrived : List Site
  pendingArrive : List (Site × Nat)
  armed : Option (Nat × Nat)
  armDue : Option Nat
  deferredClear : Bool
  deferredCfg : Option Word32
  deadlineSet : Bool
  noticesDue : List NoticeDst
deriving DecidableEq, Repr

/-- A weight tile that a gang sequencer has read and multicasts: the command's sequence number, the tile of the whole matrix, what the read gave, and the sites that have still to take it (R138). -/
structure GangTile where
  seq : BitVec 16
  tile : Nat
  status : Nat
  bytes : List Byte
  poison : Bool
  left : List Nat
deriving DecidableEq, Repr

/-- A field's gang sequencer for one region: its queue of descriptors and its numbering (R136, R137). -/
structure Gang where
  entries : List (QueueId × BitVec 128)
  seqs : SMap (BitVec 16)
  streams : List GangTile
deriving DecidableEq, Repr

/-- The power state of a cluster (0x2010 + z:09). -/
inductive ClusterPower where
  | off | softStart | on | deferred | dark | poweringDown
deriving DecidableEq, Repr

/-- A cluster and its regulator (R366 to R383, R390 to R392). Instants are in DTU. -/
structure ClusterRec where
  power : ClusterPower
  since : Nat
  holed : Bool
  offOver : BitVec 8
  offImbalance : BitVec 8
  offTest : BitVec 8
  tripped : Bool
  trim : Nat
  trimPending : Option Nat
  derateAt : Option Nat
  derated : Bool
  fastThermal : Nat
  fastZone : Nat
  fastDropAt : Option Nat
  lastDrop : Option Nat
  zoneDropAt : Option Nat
  lastZoneDrop : Option Nat
  celsius : Int
  code : Nat
  lagging : Bool
  raised : Option Nat
  rises : List (Bool × Nat)
  cycleBase : Nat
  cycleTicks : Nat
  warnBoost : Option (Nat × Nat)
  relBoosts : List (Nat × Nat)
  relActive : Option Nat
deriving DecidableEq, Repr

/-- A zone and its fuse (R365, R373, R385). -/
structure ZoneRec where
  fuseOpen : Bool
  inputFault : Bool
  stageValid : Bool
  ratedAmps : Nat
  milliAmps : Nat
  gainQ : Nat
  measured : Nat
  replaced : Bool
  suspectSince : Option Nat
deriving DecidableEq, Repr

/-- The Crown's power estimator and cap (R384 to R389), in milliwatts. -/
structure PowerRec where
  buckets : List Nat
  bucketSum : Nat
  bucketCount : Nat
  offset : Int
  epochSum : Nat
  epochCount : Nat
  capCode : Nat
  nextCap : Option (Nat × Nat)
  hostCode : Nat
  nextPoint : Option (Nat × Nat)
  appliedCode : Nat
  a1 : Nat
  a10 : Nat
  capAt : Nat
  straggler : Bool
deriving DecidableEq, Repr

/-- The group budget's epoch state (R394 to R397). -/
structure GroupBudget where
  running : Bool
  shares : List Nat
  slacks : List Nat
  reports : List SlackReport
  epoch : Nat
  computed : Bool
  ownSlack : Nat
deriving DecidableEq, Repr

/-- The time unit (R337 to R345). -/
inductive TimeState where
  | free | acquiring | locked | holdover | untrusted
deriving DecidableEq, Repr

structure TimeRec where
  now : Nat
  ticks : Nat
  rateAcc : Nat
  rate : Int
  st : TimeState
  enabled : Bool
  loaded : Bool
  good : Nat
  holdStart : Option Nat
  refA : Bool
  refB : Bool
  refAGoodSince : Option Nat
  refBGoodSince : Option Nat
  useB : Bool
  ppsSecond : Option Nat
  ppsPresent : Bool
  lastDiscipline : Nat
  lastPacket : Nat
  twinDiscipline : Bool
  /-- TIME_UNTRUSTED (R344). -/
  untrusted : Bool
deriving DecidableEq, Repr

/-- The state of an HBM stack (R267). -/
inductive StackState where
  | absent | training | up | failed | selfRefresh
deriving DecidableEq, Repr

structure StackRec where
  st : StackState
  retraining : Bool
  /-- When each bank was last refreshed (R261). -/
  lastRefresh : SMap Nat
  patrolPass : SMap Nat
  /-- When the patrol pass began (R259). -/
  patrolSince : Nat
  dead : Bool
deriving DecidableEq, Repr

/-- A range of memory: base and length in bytes. -/
abbrev Range := Nat × Nat

/-- A range of HBM being zeroed: whose it was, and the stacks that have still to finish their part of it (R168, R260). Keys up to 63 are regions. -/
structure ZeroRec where
  key : Nat
  range : Range
  left : List Nat
deriving DecidableEq, Repr

/-- A hood of the hood table (R272 to R274). -/
structure HoodRec where
  state : Nat
  request : List Byte
  base : Nat
  len : Nat
  image : List Byte
  signer : BitVec 8
  sigResult : BitVec 8
  /-- The queue pair that the READ of its image travels on (R420). -/
  qp : Option Nat
  /-- The partner's latest WEIGHT_DIGEST of the hood differs from the manifest (R515, R516). -/
  partnerBad : Bool
deriving DecidableEq, Repr

/-- An adapter of the adapter table (R286). -/
structure AdapterRec where
  state : Nat
  hood : BitVec 16
  base : Nat
  len : Nat
  image : List Byte
  request : List Byte
  qp : Option Nat
deriving DecidableEq, Repr

/-- An entry of a field's adapter cache (R287). -/
structure CacheEntry where
  adapter : BitVec 16
  field : Nat
  size : Nat
  /-- The 4 KiB blocks of the field's cache that hold it. -/
  blocks : List Nat
  used : Nat
  ready : Bool
  holders : List (BitVec 32)
deriving DecidableEq, Repr

/-- The states of a region (0x3100 + r:01). -/
inductive RegionState where
  | free | configured | staging | ready | serving | draining | scrub | held | holed
deriving DecidableEq, Repr

/-- A slot of a region (0x3100 + r:07). -/
inductive SlotState where
  | empty | staging | standby | active
deriving DecidableEq, Repr

/-- A closed batch waiting for its release, or a step in flight: hood slot, members with allotments, close instant (R301, R302). -/
structure Batch where
  slot : Nat
  members : List (BitVec 32 × Nat)
  closedAt : Nat
  releaseAt : Option Nat
  recovery : Bool
  switching : Bool
deriving DecidableEq, Repr

/-- The values of 0x3100 + r:08, :0A, :0B, :0C and :0D that are in force: a write takes effect at the next batch close (R277). -/
structure StepParams where
  period : Nat
  lead : Nat
  chunk : Nat
  budget : Nat
  maxBatch : Nat
deriving DecidableEq, Repr

/-- A region (R275 to R283, R301, R533). -/
structure Region where
  state : RegionState
  slotA : SlotState
  slotB : SlotState
  hoodA : BitVec 16
  hoodB : BitVec 16
  /-- Whether slot B's image stands in IMEM units 64 to 127 (R280). -/
  splitImem : Bool
  stageMask : BitVec 2
  stepNo : Nat
  skipped : Nat
  lastStep : Nat
  lastSwitch : Nat
  stagingLeft : Nat
  kvCommitted : Nat
  killCause : Nat
  stageStatus : Nat
  batch : Option Batch
  lastSlot : Nat
  lastEnd : Nat
  tileNotices : List NoticeDst
  kvRange : Range
  fmBase : Nat
  recovering : List (BitVec 32)
  recoveryPages : SMap Nat
  pounceHold : Bool
  protected_ : Bool
  resync : Bool
  prefillTokens : Nat
  prefillTime : Nat
  cmdFault : Bool
  trapSeen : Bool
  /-- Which of the records that a step writes once the present step has written: 0 a closed window, 1 an overtaken signal, 2 a late arrival (R163, R223, R235). -/
  marks : BitVec 3
  /-- The release from which the region's slides count (R355). -/
  slidesFrom : Nat
  lastRelease : Nat
  heldUntil : Nat
  set : List Byte
  orphans : List (BitVec 32 × List Range)
  watch : Nat × Nat
  adopted : Bool
  /-- A Pounce test with twin cover: the home delivers the region's steps without comparison, and the shadow runs them after the test (R539). -/
  cover : Bool
  /-- At the home, the latest step delivered without comparison; at the shadow, the latest step that TOKENS reported (R539). -/
  coverStep : Nat
  /-- The digest of each pinned copy as it was staged: slot, site and digest (R515). -/
  pins : List (Nat × Nat × List Byte)
  params : StepParams
deriving DecidableEq, Repr

/-- The states of a work order (R297). -/
inductive OrderState where
  | pending | eligible | running | retained
deriving DecidableEq, Repr

/-- An open or retained work order (R295 to R307, R532). -/
structure Order where
  tag : BitVec 32
  record : List Byte
  session : Nat
  region : Nat
  state : OrderState
  heldSlot : Option Nat
  context : List (BitVec 32)
  landed : Bool
  fieldsLeft : List Nat
  processed : Nat
  generated : List (BitVec 32)
  resultBytes : List Byte
  pages : SMap (BitVec 64)
  /-- The slots that the order commits: its open slot, then a stored slot for each page from its first own one on (R294). -/
  slots : List Range
  committed : Nat
  resumes : Nat
  cancelPending : Bool
  stepsDone : Nat
  latestStep : Nat
  accepted : Nat
  mirrored : Nat
  replayed : Bool
  admitNo : Nat
  /-- The step whose ADMIT record a shadow's order follows (R513). -/
  admitStep : Nat
  shadowOnly : Bool
  prefixTokens : List (BitVec 32)
  prefixPages : SMap (BitVec 64)
deriving DecidableEq, Repr

/-- A slot of the held-result area (R425). -/
structure HeldSlot where
  state : Nat
  tag : BitVec 32
  status : BitVec 8
  valid : Nat
  reuse : Nat
  data : List Byte
deriving DecidableEq, Repr

/-- A journal record with the order it belongs to and the match key in force when it was written (R325, R328, R334). -/
structure JEntry where
  record : JRecord
  tag : Option (BitVec 32)
  key : List Byte
  streamed : Bool
deriving DecidableEq, Repr

structure Journal where
  started : Bool
  entries : List JEntry
  next : Nat
  range : Range
  epoch : Nat
  epochAt : Nat
  period : Nat
  partnerAcked : Nat
  streamedTo : Nat
  hostAcked : Bool
  lost : Bool
deriving DecidableEq, Repr

/-- A replay in progress (R332 to R335). -/
structure Replay where
  state : Nat
  request : List Byte
  records : List JRecord
  keys : List (List Byte)
  at_ : Nat
  lastEnd : Nat
  orders : List Order
deriving DecidableEq, Repr

/-- An ODP request after its frame was accepted (R410). -/
inductive OdpRequest where
  | sessionClose
  | ping (data : BitVec 64)
  | read (idx : BitVec 16) (sub : BitVec 8) (find : WindowFind)
  | write (idx : BitVec 16) (sub : BitVec 8) (value : List Byte) (aid : List JRecord)
  | readGroup (items : List ObjRef) (finds : List WindowFind)
  | writeGroup (items : List ObjWrite) (aid : List JRecord)
  | blockRead (idx : BitVec 16) (sub : BitVec 8) (offset len : Nat) (find : WindowFind)
  | blockWrite (seg : Segment) (aid : List JRecord)
  | subscribe (mask : BitVec 32) (watches : List ObjRef)
  | submit (order : List Byte)
  | cancel (target : BitVec 32)
  | complete (tag : BitVec 32) (rel : Bool) (offset len : Nat)
deriving DecidableEq, Repr

/-- A response: opcode, status and payload (R407, R411). -/
structure Response where
  opcode : BitVec 8
  status : BitVec 16
  payload : List Byte
deriving DecidableEq, Repr

/-- A BLOCK_WRITE transfer in progress (R414). -/
structure Transfer where
  idx : BitVec 16
  sub : BitVec 8
  total : Nat
  data : List Byte
  last : Nat
deriving DecidableEq, Repr

/-- A BLOCK_READ snapshot (R443). -/
structure Snapshot where
  idx : BitVec 16
  sub : BitVec 8
  data : List Byte
  used : Nat
deriving DecidableEq, Repr

/-- An EVENT awaiting the host's response (R427). -/
structure EventRec where
  seq : BitVec 32
  payload : List Byte
  sentAt : Nat
  tries : Nat
deriving DecidableEq, Repr

/-- A watched object with the value of its last EVENT (R456). -/
structure Watch where
  idx : BitVec 16
  sub : BitVec 8
  value : List Byte
  sentAt : Option Nat
deriving DecidableEq, Repr

/-- An open ODP session (R407 to R415, R417, R427, R429). -/
structure Session where
  role : Nat
  token : BitVec 32
  port : HostPort
  ip : BitVec 128
  udp : BitVec 16
  altIp : BitVec 128
  altUdp : BitVec 16
  odpPort : BitVec 16
  pair : Bool
  low : BitVec 32
  received : BitVec 32
  answered : BitVec 32
  held : List (BitVec 32 × Frame × OdpRequest)
  started : List (BitVec 32 × HostPort)
  cache : List (BitVec 32 × Response)
  keepalive : Nat
  lastFrame : Nat
  rings : List RingDesc
  consumer : BitVec 32
  producer : BitVec 32
  transfers : List Transfer
  snapshot : Option Snapshot
  mask : BitVec 32
  watches : List Watch
  events : List EventRec
  eventSeq : BitVec 32
  sent : BitVec 32
  lost : BitVec 32
  bucket : Nat
  bucketAt : Nat
  lastLimited : Option Nat
  lastLimitLog : Option Nat
  limitedCount : Nat
deriving DecidableEq, Repr

/-- A queue pair (R419, R420). -/
structure QueuePair where
  session : Nat
  error : Bool
  retries : Nat
deriving DecidableEq, Repr

/-- A completion ring of a session (R422 to R424). `due` holds entries not yet written, oldest first, with their result data. -/
structure Ring where
  desc : RingDesc
  written : Nat
  consumer : Nat
  due : List (List Byte × List (Nat × Nat × List Byte))
  lastRead : Option Nat
  bad : Bool
deriving DecidableEq, Repr

/-- A host port (R403 to R405, 0x1100 + p). -/
structure Port where
  up : Bool
  faultSince : Option Nat
  upSince : Option Nat
  movedAway : Bool
  carries : Bool
  training : Bool
  paused : BitVec 8
  loose : Nat
  looseAt : Nat
  looseLog : Option Nat
  looseDropped : Nat
deriving DecidableEq, Repr

/-- An entry of the protocol-violation log (R430, R454). -/
structure VEntry where
  time : Nat
  mac : BitVec 48
  port : Nat
  repeats : Nat
  ip : BitVec 128
  udp : BitVec 16
  session : BitVec 16
  status : BitVec 16
  opcode : BitVec 8
  detail : BitVec 64
deriving DecidableEq, Repr

structure VLog where
  entries : SMap VEntry
  held : Nat
  next : Nat
  total : Nat
deriving DecidableEq, Repr

/-- An entry of the error log (R546, R547). -/
structure LogEntry where
  record : ErrRecord
  seq : Nat
  classes : BitVec 8
  repeats : Nat
deriving DecidableEq, Repr

structure ErrLog where
  entries : SMap LogEntry
  held : Nat
  next : Nat
  made : Nat
  records : Nat
  counts : List Nat
deriving DecidableEq, Repr

/-- What waits behind a journal acknowledgement before it is answered or applied (R20, R439). -/
structure Deferred where
  session : Nat
  seq : BitVec 32
  upTo : Nat
  response : Response
  writes : List ObjWrite
  read_ : List JRecord
  ringEntry : Option (Nat × List Byte)
  fetch : Option (BitVec 32)
deriving DecidableEq, Repr

/-- A bring-up step in progress or done (R557 to R561, R574). -/
structure Boot where
  inReset : Bool
  firmware : Bool
  lastStep : Nat
  running : Option (Nat × BitVec 8 × BitVec 48)
  auto : Option (BitVec 8)
  autoReduced : Option Nat
  wave : Nat
  restart : Bool
  bootDefects : List Defect
  seamOff : List (Nat × Nat)
  answers : List Word64
  lockWait : Option Nat
  zoneMask : BitVec 24
  linkMask : BitVec 18
  warm : Bool
  warmDict : List Nat
  warmIds : SMap (List Byte)
  zoneUnpowered : BitVec 24
  hoodsKept : List (BitVec 16 × HoodRec)
  adaptersKept : List (BitVec 16 × AdapterRec)
  orderEngines : Bool
  hbmTrained : Bool
  powerEnabled : Bool
  relayEnabled : Bool
  firstSubmit : Bool
deriving DecidableEq, Repr

/-- One-time-programmable contents that commands change (R549, R579). -/
structure Otp where
  field : List (BitVec 8 × Defect)
  appending : List (Defect × Nat)
  ownerState : SMap Nat
  ownerHash : SMap (List Byte)
  rollback : Nat
deriving DecidableEq, Repr

/-- An installed key awaiting or in force (R595, R596). -/
structure KeyRec where
  target : Nat
  slot : Nat
  keyId : BitVec 32
  activeAt : Nat
  active : Bool
  material : List Byte
deriving DecidableEq, Repr

/-- The security engine (R585 to R600). -/
structure Sec where
  nonces : List (List Byte × Nat)
  debugScope : BitVec 8
  kek : Option (List Byte)
  lastIv : Option Nat
  keys : List KeyRec
  previous : SMap Nat
  authFails : SMap Nat
  reportTime : Option (Nat × List Byte)
  report : Option (List Byte)
  reports : Nat
  imageState : Nat
  reason : Nat
  version : Nat
  identityOk : Bool
deriving DecidableEq, Repr

/-- A fabric or twin link (R493 to R497, 0x4400 + i). -/
structure Link where
  st : Nat
  media : Nat
  lanes : BitVec 5
  twinPresent : Bool
  replay : List (FabPacket × Nat)
  resends : Nat
  expectSeq : Nat
  sendSeq : Nat
  /-- Packets that wait at the port for a place in the replay buffer or for credits, oldest first (R496, R497). -/
  queue : List FabPacket
  /-- Whether VC2 has its turn before VC1 (R497). -/
  turn2 : Bool
deriving DecidableEq, Repr

/-- Contributions gathered for one row and generation of a reduction tree (R503). -/
structure Reduction where
  tree : Nat
  offset : Nat
  gen : BitVec 16
  contributions : List (Nat × List Byte × BitVec 64)
  since : Nat
deriving DecidableEq, Repr

/-- The pair states (R518, R525). -/
inductive PairState where
  | solo | forming | syncing | paired | suspect | alone | isolated | mismatch
deriving DecidableEq, Repr

/-- What an order delivers: a held slot made ready, result data, and a completion entry on a ring (R424, R425). -/
structure Delivery where
  region : Nat
  step : Nat
  tag : BitVec 32
  ring : Nat
  entry : List Byte
  data : List (Nat × Nat × List Byte)
  held : Option (Nat × Nat × List Byte)
  order : Order
deriving DecidableEq, Repr

/-- An order whose step's digests disagree, while both members check the hood of the step (R517): what this member found of its own copy, and the partner of its own; true is a copy that matches. -/
structure Referee where
  region : Nat
  step : Nat
  tag : BitVec 32
  hood : Nat
  own : Option Bool
  partner : Option Bool
deriving DecidableEq, Repr

/-- The twin pair (R506 to R525). -/
structure Twin where
  st : PairState
  before : PairState
  member : Option Nat
  front : Bool
  mode : Nat
  modeAt : Option (Nat × Nat)
  partnerMode : Nat
  partnerSerial : List Byte
  partnerFabric : BitVec 16
  partnerKey : List Byte
  linkPeer : SMap (List Byte)
  excluded : List Nat
  lastBeat : Nat
  beatSent : Nat
  suspectSince : Option Nat
  probeNonce : Option (BitVec 64)
  answered : Bool
  beatAcked : Nat
  partnerRates : List Byte
  shadowNext : Nat
  shadowRecords : List JRecord
  shadowTokens : List (Nat × Nat × TokenMsg)
  shadowPages : List (Nat × BitVec 32 × Nat × List Byte)
  shadowSessions : List SessionMsg
  digests : List (Nat × Nat × BitVec 32 × BitVec 64 × Bool)
  ownDigests : List (Nat × Nat × BitVec 32 × BitVec 64 × Bool)
  mismatched : List (Nat × BitVec 32)
  refereed : List Referee
  /-- The orders of the steps that wait for their comparison, with the step, as each stood before it (R517). -/
  stepStart : List (Nat × Order)
  shadowDue : List (Nat × List Byte × List (Nat × Nat × List Byte))
  incoming : List (Bool × BitVec 16 × List Byte)
  forwarded : List (List Byte)
  takeover : Option Nat
  withheld : List Delivery
deriving DecidableEq, Repr

/-- A queued or running maintenance activity or Pounce test (R537 to R545, R552, R553). -/
structure Maint where
  id : Nat
  activity : Nat
  scope : Nat
  test : Nat
  urgency : Nat
  twinCover : Bool
  requester : Master
  time : Nat
  running : Bool
  started : Nat
  waits : Bool
deriving DecidableEq, Repr

/-- A scheduled event accepted from a peer (R505). -/
structure Scheduled where
  id : BitVec 32
  kind : Nat
  instant : Nat
  argument : BitVec 64
deriving DecidableEq, Repr

/-- What leaves the block (log entry 4). -/
inductive Output where
  | odp (port : HostPort) (session : Nat) (seq ack : BitVec 32) (r : Response)
  | odpAbort (port : HostPort) (session seq : Nat) (status : BitVec 16)
  | odpEvent (session : Nat) (seq : BitVec 32) (payload : List Byte)
  | rdmaRead (qp : Nat) (addr : BitVec 64) (key : BitVec 32) (len : Nat)
  | rdmaWrite (qp : Nat) (addr : BitVec 64) (key : BitVec 32) (data : List Byte)
  | roceNak (qp : Nat) (code : Nat)
  | roceReject (qp : Nat)
  | announceAddr (port : Nat) (ip4 : List Byte) (ip6 : List Byte)
  | timePacket (t : Nat)
  | fabric (port : Nat) (p : FabPacket)
  | fabricControl (dst : Nat) (subtype : BitVec 8) (payload : List Byte)
  | twin (kind : BitVec 8) (epoch : Nat) (payload : List Byte)
  | hostPing
  | fabricResend (link : Nat) (from_ : Nat)
deriving DecidableEq, Repr

/-- The pins and the always-on domain: `alert` is ALERT_N asserted (R481, R554, R597, R608, R615). -/
structure Pins where
  powerGood : Bool
  alert : Bool
  thermTrip : Bool
  jtag : List Byte
  jtagRun : Bool
deriving DecidableEq, Repr

/-- The state of the block. Registers are 32-bit words keyed by their canonical physical address; objects are byte strings keyed by index × 256 + subindex. -/
structure State where
  pending : List Instr
  out : List Output
  freeCount : Nat
  regs : SMap Word32
  shadows : SMap Word32
  dict : SMap (List Byte)
  spad : Memory
  /-- The three stored copies of each sector tag of the scratchpads (R151). -/
  spadTag : SMap (BitVec 3)
  /-- The bits of each stored 72-bit scratchpad word, 64 of data and 8 of check, that differ from the codeword of its data (R139, R151). -/
  spadErr : SMap (BitVec 72)
  imem : Memory
  fmem : Memory
  /-- The three stored copies of each sector tag of the field memories, and the departures of their stored words, as in the scratchpads (R199). -/
  fmemTag : SMap (BitVec 3)
  fmemErr : SMap (BitVec 72)
  hbm : Memory
  hbmTag : SMap Bool
  tiles : SMap Tile
  net : List Packet
  netSeq : Nat
  groups : SMap Group
  gangs : SMap Gang
  mcast : SMap (List (Nat × Nat))
  fmUnits : SMap Nat
  fmCe : SMap Nat
  clusters : SMap ClusterRec
  zones : SMap ZoneRec
  power : PowerRec
  budget : GroupBudget
  time : TimeRec
  /-- The local counters: tiles by site, then cluster hubs from 10,000, field hubs from 11,000 and the others from 12,000 (R339). -/
  units : SMap UnitClock
  /-- The slides (R355), keyed by 64 × the domain's number, plus the region. -/
  slides : SMap Nat
  hbmStacks : SMap StackRec
  hbmAlloc : List Range
  hbmZero : List ZeroRec
  hoods : SMap HoodRec
  adapters : SMap AdapterRec
  caches : List CacheEntry
  regions : SMap Region
  orders : List Order
  heldResults : SMap HeldSlot
  journal : Journal
  replay : Replay
  sessions : SMap Session
  qps : SMap QueuePair
  rings : SMap Ring
  ports : SMap Port
  vlog : VLog
  errBuf : List ErrRecord
  errLog : ErrLog
  deferred : List Deferred
  boot : Boot
  otp : Otp
  sec : Sec
  links : SMap Link
  reductions : List Reduction
  twin : Twin
  maint : List Maint
  maintNext : Nat
  schedules : List Scheduled
  pins : Pins
  mbSince : SMap Nat
  redGens : SMap Nat
deriving DecidableEq, Repr

/-- Faults of the block. The spec answers every violation in a defined way (R17), so no command stops the block: no constructor is needed, and claims may rest on that (safe). -/
inductive Fault where
deriving DecidableEq, Repr

/-- Refusals of the block: only a command that has no meaning yet. -/
inductive Refusal where
  /-- Raised by an arm of `exec` whose command has no meaning yet; safe: nothing is claimed of it. -/
  | notModelled (mnemonic : String)
deriving DecidableEq, Repr

def Core.reset : Core :=
  { gregs := [], pc := 0, status := .halted, latch := [], latchTags := 0, lld := none, fence := none, woken := false,
    trapDue := none, tvec := 0, epc := 0, cause := 0, entry := 0 }

def CmdQueue.reset : CmdQueue := { entries := [], nextSeq := 0, retired := 0, err := 0 }

def Tile.reset : Tile :=
  { core0 := Core.reset, core1 := Core.reset, arrayQ := CmdQueue.reset, vectorQ := CmdQueue.reset,
    moveQ := CmdQueue.reset, syncQ := CmdQueue.reset, vflags := 0, qstat := 0, sems := [], waiters := [], semTaken := [],
    lastSig := [], keySlots := [], baseSlots := [], syncFence := none, mma := none, moves := [],
    idleSince := some 0, rampDue := false, lastWarn := none, preWarn := none, idleEntry := none, passNo := 0, banks := [], rot := [],
    writebacks := [], ceReads := [], repairs := [], unscrubbed := false, rtPending := [], attachMoved := false,
    step := 0, stepPending := none, notices := [], bgGen := [], bgMissed := [], slip := 0,
    stretched := 0, releasedAt := 0, haltedAt := 0 }

def Group.reset : Group :=
  { arrived := [], pendingArrive := [], armed := none, armDue := none, deferredClear := false, deferredCfg := none,
    deadlineSet := false, noticesDue := [] }

def Gang.reset : Gang := { entries := [], seqs := [], streams := [] }

def ClusterRec.reset : ClusterRec :=
  { power := .off, since := 0, holed := false, offOver := 0, offImbalance := 0, offTest := 0, tripped := false,
    trim := 0, trimPending := none, derateAt := none, derated := false, fastThermal := 0, fastZone := 0,
    fastDropAt := none, lastDrop := none, zoneDropAt := none, lastZoneDrop := none, celsius := 0, code := 0, lagging := false,
    raised := none, rises := [], cycleBase := 0, cycleTicks := 0, warnBoost := none, relBoosts := [],
    relActive := none }

def ZoneRec.reset : ZoneRec :=
  { fuseOpen := false, inputFault := false, stageValid := false, ratedAmps := 0, milliAmps := 0, gainQ := 1048576, measured := 0,
    replaced := false, suspectSince := none }

def StackRec.reset : StackRec :=
  { st := .absent, retraining := false, lastRefresh := [], patrolPass := [], patrolSince := 0, dead := false }

def Region.reset : Region :=
  { state := .free, slotA := .empty, slotB := .empty, hoodA := 0xFFFF, hoodB := 0xFFFF, splitImem := false, stageMask := 0,
    stepNo := 0, skipped := 0, lastStep := 0, lastSwitch := 0, stagingLeft := 0, kvCommitted := 0,
    killCause := 0, stageStatus := 0, batch := none, lastSlot := 1, lastEnd := 0, tileNotices := [],
    kvRange := (0, 0), fmBase := 0, recovering := [], recoveryPages := [], pounceHold := false,
    protected_ := false, resync := false, prefillTokens := 0, prefillTime := 0, cmdFault := false,
    trapSeen := false, marks := 0, slidesFrom := 0, lastRelease := 0, heldUntil := 0, set := [], orphans := [], watch := (0, 0), adopted := false,
    cover := false, coverStep := 0, pins := [],
    params := { period := 16000000, lead := 320000, chunk := 512, budget := 16384, maxBatch := 256 } }

def HeldSlot.reset : HeldSlot := { state := 0, tag := 0, status := 0, valid := 0, reuse := 0, data := [] }

def Port.reset : Port :=
  { up := false, faultSince := none, upSince := none, movedAway := false, carries := false, training := false,
    paused := 0, loose := 0, looseAt := 0, looseLog := none, looseDropped := 0 }

def Link.reset : Link :=
  { st := 0, media := 0, lanes := 0, twinPresent := true, replay := [], resends := 0,
    expectSeq := 0, sendSeq := 0, queue := [], turn2 := false }

def TimeRec.reset : TimeRec :=
  { now := 0, ticks := 0, rateAcc := 0, rate := 0, st := .free, enabled := false, loaded := false, good := 0,
    holdStart := none, refA := true, refB := true, refAGoodSince := none, refBGoodSince := none, useB := false,
    ppsSecond := none, ppsPresent := false, lastDiscipline := 0, lastPacket := 0, twinDiscipline := false, untrusted := false }

def PowerRec.reset : PowerRec :=
  { buckets := [], bucketSum := 0, bucketCount := 0, offset := 0, epochSum := 0, epochCount := 0, capCode := 0,
    nextCap := none, hostCode := 0, nextPoint := none, appliedCode := 0, a1 := 0, a10 := 0, capAt := 0, straggler := false }

def GroupBudget.reset : GroupBudget :=
  { running := false, shares := [], slacks := [], reports := [], epoch := 0, computed := true, ownSlack := 0 }

def Journal.reset : Journal :=
  { started := false, entries := [], next := 0, range := (0, 0), epoch := 0, epochAt := 0, period := 16000000,
    partnerAcked := 0, streamedTo := 0, hostAcked := false, lost := false }

def Replay.reset : Replay := { state := 0, request := [], records := [], keys := [], at_ := 0, lastEnd := 0, orders := [] }

def Boot.reset : Boot :=
  { inReset := true, firmware := false, lastStep := 0, running := none, auto := none,
    autoReduced := none, wave := 0, restart := false, bootDefects := [], seamOff := [], answers := [], lockWait := none, zoneMask := 0, linkMask := 0, warm := false,
    warmDict := [], warmIds := [], zoneUnpowered := 0, hoodsKept := [], adaptersKept := [], orderEngines := false,
    hbmTrained := false, powerEnabled := false, relayEnabled := false, firstSubmit := false }

def Otp.reset : Otp := { field := [], appending := [], ownerState := [], ownerHash := [], rollback := 0 }

def Sec.reset : Sec :=
  { nonces := [], debugScope := 0, kek := none, lastIv := none, keys := [],
    previous := [], authFails := [], reportTime := none, report := none, reports := 0, imageState := 0,
    reason := 0, version := 0, identityOk := true }

def Twin.reset : Twin :=
  { st := .solo, before := .solo, member := none, front := false, mode := 0, modeAt := none, partnerMode := 0,
    partnerSerial := [], partnerFabric := 0, partnerKey := [], linkPeer := [], excluded := [], lastBeat := 0,
    beatSent := 0, suspectSince := none, probeNonce := none, answered := false, beatAcked := 0, partnerRates := [], shadowNext := 0,
    shadowRecords := [], shadowTokens := [], shadowPages := [], shadowSessions := [], digests := [],
    ownDigests := [], mismatched := [], refereed := [], stepStart := [], shadowDue := [], incoming := [], forwarded := [], takeover := none, withheld := [] }

/-- The block right after reset (R554, R555): every block reset, every cluster off, device time 0, no session, the queue empty. Values the spec does not give are those of log entries 2 to 8. -/
def State.reset : State :=
  { pending := [], out := [], freeCount := 0, regs := [], shadows := [], dict := [], spad := [], spadTag := [], spadErr := [],
    imem := [], fmem := [], fmemTag := [], fmemErr := [], hbm := [], hbmTag := [], tiles := [], net := [], netSeq := 0,
    groups := [], gangs := [], mcast := [], fmUnits := [], fmCe := [], clusters := [], zones := [], power := PowerRec.reset,
    budget := GroupBudget.reset, time := TimeRec.reset, units := [], slides := [], hbmStacks := [], hbmAlloc := [], hbmZero := [],
    hoods := [], adapters := [], caches := [], regions := [], orders := [], heldResults := [],
    journal := Journal.reset, replay := Replay.reset, sessions := [], qps := [], rings := [], ports := [],
    vlog := { entries := [], held := 0, next := 0, total := 0 }, errBuf := [],
    errLog := { entries := [], held := 0, next := 0, made := 0, records := 0, counts := [] }, deferred := [],
    boot := Boot.reset, otp := Otp.reset, sec := Sec.reset, links := [], reductions := [], twin := Twin.reset,
    maint := [], maintNext := 0, schedules := [], pins := { powerGood := false, alert := false, thermTrip := false, jtag := [], jtagRun := false },
    mbSince := [], redGens := [] }

end Sys2Proof.Machine
end

