-- ==== Sys2Proof/Machine/Ops.lean ====
section
/-! DEFINITION. The operations that every family shares: registers, objects, tiles, regions, free values, outputs and error records. -/
namespace Sys2Proof.Machine
open Sys2Proof

/-- What a command answers. -/
abbrev Answer := Host.Outcome State Fault Refusal

/-! ## Registers -/

def regGet (s : State) (a : Nat) : Word32 := mget (regReset a) s.regs a

def regPut (s : State) (a : Nat) (v : Word32) : State := { s with regs := mset (regReset a) s.regs a v }

/-- A register with bits [lo+n-1:lo] set to `v`. -/
def regField (s : State) (a lo n v : Nat) : State := regPut s a (rset (regGet s a) lo n v)

def regBit (s : State) (a i : Nat) : Bool := rbit (regGet s a) i

def regSetBit (s : State) (a i : Nat) (b : Bool) : State := regField s a i 1 (boolNat b)

/-- A 32-bit counter advanced by `n`, modulo 2³². -/
def regAdd (s : State) (a n : Nat) : State := regPut s a (regGet s a + BitVec.ofNat 32 n)

/-- The value of a LO/HI pair (R472). -/
def reg64 (s : State) (lo : Nat) : Nat := (regGet s lo).toNat + (regGet s (lo + 4)).toNat * 2 ^ 32

def reg64Put (s : State) (lo v : Nat) : State :=
  regPut (regPut s lo (BitVec.ofNat 32 v)) (lo + 4) (BitVec.ofNat 32 (v / 2 ^ 32))

/-- A 64-bit counter pair advanced by `n`, modulo 2⁶⁴. -/
def reg64Add (s : State) (lo n : Nat) : State := reg64Put s lo ((reg64 s lo + n) % 2 ^ 64)

/-! ## Answers -/

/-- Whether the error block drives `ALERT_N`: ALERT_EN, and a received class that the mask lets through (R481). -/
def alertDue (s : State) : Bool :=
  regBit s (errReg 0) 8 && decide (regGet s (errReg 0x00C) &&& regGet s (errReg 0x008) &&& 0xFF ≠ 0)

/-- `ALERT_N` follows the error block's registers after every command (R481). -/
def settlePins (s : State) : State := { s with pins := { s.pins with alert := alertDue s } }

/-- A command's answer: its next state, with the pin that follows it. -/
def answer (s : State) : Answer := .next (settlePins s)

/-- The effect of a command whose precondition is `p`: a command that does not meet it changes nothing (log entry 13). -/
def guarded (p : Bool) (s : State) (effect : State) : Answer := if p then answer effect else .next s

/-! ## Objects -/

/-- The 10-s maximum of the grade in watts (0x2000:11). -/
def gradeMax10 : Nat := match Config.fusedGrade with
  | 0 => 7200
  | 1 => 6000
  | _ => 4800

/-- The 1-s maximum of the grade in watts (0x2000:12). -/
def gradeMax1 : Nat := match Config.fusedGrade with
  | 0 => 8000
  | 1 => 6600
  | _ => 5300

/-- The link-local IPv6 address made from a MAC address (0x1100 + p:05; PRESUMED modified EUI-64). -/
def linkLocal (mac : BitVec 48) : List Byte :=
  let m := beBytes 6 mac.toNat
  [0xFE, 0x80] ++ zeros 6 ++ [m.getD 0 0 ^^^ 2] ++ (m.drop 1).take 2 ++ [0xFF, 0xFE] ++ m.drop 3

/-- The value an object's row holds after reset (R437). -/
def objDefaultBytes (r : ObjRow) (idx : Nat) : List Byte :=
  match r.type.size with
  | none => match r.dflt with
    | .serial => Config.fusedSerial.take 24
    | .partNumber => Config.fusedPartNumber.take 32
    | _ => []
  | some n => match r.dflt with
    | .num v => leBytes n v
    | .ones => List.replicate n 0xFF
    | .grade => leBytes n Config.fusedGrade.val
    | .stepping => leBytes n Config.fusedStepping.toNat
    | .serial => Config.fusedSerial.take n
    | .partNumber => Config.fusedPartNumber.take n
    | .mac => leBytes n (Config.fusedMac (idx - r.idx)).toNat
    | .ip6 => linkLocal (Config.fusedMac (idx - r.idx))
    | .gradeMax10 => leBytes n gradeMax10
    | .gradeMax1 => leBytes n gradeMax1
    | .zoneLimit => leBytes n 220
    | .baseline => leBytes n (Config.fusedBaseline (idx - r.idx)).toNat
    | .signMode => leBytes n (if (List.range 4).any fun i => decide (Config.fusedOwnerState i = 1) then 2 else 0)

def objKey (idx sub : Nat) : Nat := idx * 256 + sub

/-- What an object holds after reset; nothing for an absent one. -/
def objReset (idx sub : Nat) : List Byte :=
  match objRow idx sub with
  | some r => objDefaultBytes r idx
  | none => []

/-- The stored value of an object. -/
def dget (s : State) (idx sub : Nat) : List Byte := mget (objReset idx sub) s.dict (objKey idx sub)

def dput (s : State) (idx sub : Nat) (v : List Byte) : State :=
  { s with dict := mset (objReset idx sub) s.dict (objKey idx sub) v }

/-- The stored value of a numeric object. -/
def dnum (s : State) (idx sub : Nat) : Nat := leNat (dget s idx sub)

def dint (s : State) (idx sub : Nat) : Int := leInt (dget s idx sub)

/-- A numeric object of `n` bytes set to `v`, modulo its width. -/
def dputNum (s : State) (idx sub n v : Nat) : State := dput s idx sub (leBytes n v)

def dputInt (s : State) (idx sub n : Nat) (v : Int) : State := dput s idx sub (leIntBytes n v)

/-- An RO counter of `n` bytes advanced, modulo its width (R441). -/
def dcount (s : State) (idx sub n k : Nat) : State := dputNum s idx sub n (dnum s idx sub + k)

/-! ## Time, free values and outputs -/

/-- Device time in DTU (R337). -/
def now (s : State) : Nat := s.time.now

/-- A 64-bit value the spec leaves open, and the state with the draw counted (log entry 3). -/
def freeWord (s : State) : Word64 × State := (Config.freeWord s.freeCount, { s with freeCount := s.freeCount + 1 })

/-- `n` bytes the spec leaves open. -/
def freeBytes (s : State) (n : Nat) : List Byte × State :=
  ((List.range n).map (Config.freeByte s.freeCount), { s with freeCount := s.freeCount + 1 })

def emit (s : State) (o : Output) : State := { s with out := s.out ++ [o] }

/-! ## Tiles, clusters, fields -/

/-- The physical cluster of a site (R462). -/
def siteCluster (s : Nat) : Nat := s / 16
/-- The field of a site. -/
def siteField (s : Nat) : Nat := s / 256
def clusterField (c : Nat) : Nat := c / 16

def tileOf (s : State) (i : Nat) : Tile := mget Tile.reset s.tiles i
def setTile (s : State) (i : Nat) (t : Tile) : State := { s with tiles := mset Tile.reset s.tiles i t }
def modTile (s : State) (i : Nat) (f : Tile → Tile) : State := setTile s i (f (tileOf s i))

def coreOf (t : Tile) (c : CoreId) : Core := if c = 0 then t.core0 else t.core1
def setCore (t : Tile) (c : CoreId) (k : Core) : Tile := if c = 0 then { t with core0 := k } else { t with core1 := k }

def queueOf (t : Tile) : QueueId → CmdQueue
  | .array => t.arrayQ
  | .vector => t.vectorQ
  | .move => t.moveQ
  | .sync => t.syncQ

def setQueue (t : Tile) (q : QueueId) (v : CmdQueue) : Tile :=
  match q with
  | .array => { t with arrayQ := v }
  | .vector => { t with vectorQ := v }
  | .move => { t with moveQ := v }
  | .sync => { t with syncQ := v }

def queueNo : QueueId → Nat
  | .array => 0
  | .vector => 1
  | .move => 2
  | .sync => 3

def queueAt (n : Nat) : QueueId :=
  if n = 0 then .array else if n = 1 then .vector else if n = 2 then .move else .sync

def clusterRec (s : State) (c : Nat) : ClusterRec := mget ClusterRec.reset s.clusters c
def setCluster (s : State) (c : Nat) (r : ClusterRec) : State :=
  { s with clusters := mset ClusterRec.reset s.clusters c r }
def modCluster (s : State) (c : Nat) (f : ClusterRec → ClusterRec) : State := setCluster s c (f (clusterRec s c))

def zoneRec (s : State) (z : Nat) : ZoneRec := mget ZoneRec.reset s.zones z
def setZone (s : State) (z : Nat) (r : ZoneRec) : State := { s with zones := mset ZoneRec.reset s.zones z r }

def stackRec (s : State) (h : Nat) : StackRec := mget StackRec.reset s.hbmStacks h
def setStack (s : State) (h : Nat) (r : StackRec) : State := { s with hbmStacks := mset StackRec.reset s.hbmStacks h r }

def groupOf (s : State) (g : Nat) : Group := mget Group.reset s.groups g
def setGroup (s : State) (g : Nat) (r : Group) : State := { s with groups := mset Group.reset s.groups g r }

def gangKey (n r : Nat) : Nat := n * 64 + r
def gangOf (s : State) (n r : Nat) : Gang := mget Gang.reset s.gangs (gangKey n r)
def setGang (s : State) (n r : Nat) (g : Gang) : State := { s with gangs := mset Gang.reset s.gangs (gangKey n r) g }

def regionOf (s : State) (r : Nat) : Region := mget Region.reset s.regions r
def setRegion (s : State) (r : Nat) (v : Region) : State := { s with regions := mset Region.reset s.regions r v }
def modRegion (s : State) (r : Nat) (f : Region → Region) : State := setRegion s r (f (regionOf s r))

def portOf (s : State) (p : Nat) : Port := mget Port.reset s.ports p
def setPort (s : State) (p : Nat) (v : Port) : State := { s with ports := mset Port.reset s.ports p v }

def linkOf (s : State) (i : Nat) : Link := mget Link.reset s.links i
def setLink (s : State) (i : Nat) (v : Link) : State := { s with links := mset Link.reset s.links i v }

/-- Whether a cluster's blocks answer (R466): it is on. -/
def clusterOn (s : State) (c : Nat) : Bool := decide ((clusterRec s c).power = .on)

/-- VR_PHASES (R370, R479): the working phases, less those that PH_OFF holds off, and the disabled ones by cause. -/
def phasesWord (s : State) (c : Nat) : Word32 :=
  let r := clusterRec s c
  let off := r.offOver ||| r.offImbalance ||| r.offTest
  let held := BitVec.ofNat 8 (rfld (regGet s (vrReg c 0x000)) 8 8)
  BitVec.ofNat 32 ((~~~(off ||| held)).toNat + r.offOver.toNat * 2 ^ 8 + r.offImbalance.toNat * 2 ^ 16 + r.offTest.toNat * 2 ^ 24)

/-- The phases that count for a cluster's rating: all that are not disabled (R369, R479). -/
def workingPhases (s : State) (c : Nat) : Nat :=
  let r := clusterRec s c
  let off := r.offOver ||| r.offImbalance ||| r.offTest
  ((List.range 8).filter fun i => !off.toNat.testBit i).length

/-- The logical index i that a cluster's tile remap gives a site, if it gives one (R475). -/
def remapIndex (s : State) (site : Nat) : Option Nat :=
  (List.range 15).find? fun i =>
    let e := regGet s (hubReg (siteCluster site) (0x010 + 4 * i))
    rbit e 4 && decide (rfld e 0 4 = site % 16)

def clusterSurplus (s : State) (c : Nat) : Bool := regBit s (hubReg c 0x008) 8

/-- The logical cluster a physical cluster serves, if it serves one (R474). -/
def logicalCluster (s : State) (c : Nat) : Option Nat :=
  let w := regGet s (hubReg c 0x008)
  if rbit w 8 then none
  else if rfld w 0 8 < 180 then some (rfld w 0 8) else none

/-- The logical tile that a site serves (R475). -/
def ltOfSite (s : State) (site : Nat) : Option Nat :=
  match logicalCluster s (siteCluster site), remapIndex s site with
  | some lc, some i => some (15 * lc + i)
  | _, _ => none

/-- Whether a site lies in a surplus cluster (R313). -/
def siteSurplus (s : State) (site : Nat) : Bool := clusterSurplus s (siteCluster site)

/-- How a site is named in a field of 16 bits or more that holds a logical tile (R314). -/
def tileName (s : State) (site : Nat) : Nat :=
  if siteSurplus s site then 0x1000 + site else (ltOfSite s site).getD 0xFFFF

/-- The physical cluster behind a logical cluster, by the cluster remap of its field (R478); a holed or dark one is not whole. -/
def clusterOfLc (s : State) (lc : Nat) : Option Nat :=
  if 180 ≤ lc then none
  else
    let e := regGet s (fieldReg (lc / 15) (0x3000 + 4 * (lc % 15)))
    let c := 16 * (lc / 15) + rfld e 0 4
    if rbit e 4 && clusterOn s c && !(clusterRec s c).holed then some c else none

/-- The site that logical tile t is mapped onto (R463). -/
def siteOfLt (s : State) (t : Nat) : Option Nat :=
  match clusterOfLc s (t / 15) with
  | none => none
  | some c =>
    let e := regGet s (hubReg c (0x010 + 4 * (t % 15)))
    if rbit e 4 then some (16 * c + rfld e 0 4) else none

/-! ## Regions -/

/-- Whether a region holds resources: any state but FREE (R275). -/
def regionUsed (s : State) (r : Nat) : Bool := decide ((regionOf s r).state ≠ .free)

/-- Whether logical cluster `lc` is in region `r`: in the set that CONFIGURE took from 0x3100 + r:03. -/
def regionHasLc (s : State) (r lc : Nat) : Bool := regionUsed s r && bitAt (regionOf s r).set lc

/-- Whether surplus cluster `c` is assigned to region `r` in the extended profile (R311, R313; 0x3600:05, 24 bytes for each region). -/
def regionHasSurplus (s : State) (r c : Nat) : Bool :=
  decide (dnum s 0x3600 0x02 = 1) && regionUsed s r && clusterSurplus s c && bitAt ((dget s 0x3600 0x05).drop (24 * r)) c

/-- The region that holds a physical cluster. -/
def regionOfCluster (s : State) (c : Nat) : Option Nat :=
  match logicalCluster s c with
  | some lc => (List.range 64).find? fun r => regionHasLc s r lc
  | none => if clusterSurplus s c then (List.range 64).find? fun r => regionHasSurplus s r c else none

def regionOfSite (s : State) (site : Nat) : Option Nat := regionOfCluster s (siteCluster site)

/-- The logical clusters of a region, ascending. -/
def regionLcs (s : State) (r : Nat) : List Nat :=
  (List.range 180).filter fun lc => bitAt (regionOf s r).set lc

/-- The physical clusters of a region: those behind its logical clusters, then its surplus ones. -/
def regionClusters (s : State) (r : Nat) : List Nat :=
  (regionLcs s r).filterMap (clusterOfLc s) ++ ((List.range 192).filter fun c => regionHasSurplus s r c)

/-- The sites of a region: the fifteen mapped sites of each of its clusters (R475). -/
def regionSites (s : State) (r : Nat) : List Nat :=
  (regionClusters s r).flatMap fun c =>
    (List.range 15).filterMap fun i =>
      let e := regGet s (hubReg c (0x010 + 4 * i))
      if rbit e 4 then some (16 * c + rfld e 0 4) else none

/-! ## Error records -/

/-- The classes of a record as a bit mask (R481, R548). -/
def recordClasses (kind : Nat) (body : List Byte) : Nat :=
  let b := 1
  if kind = 0x0103 ∨ kind = 0x0702 ∨ kind = 0x0703 then b + 4
  else if kind = 0x0201 ∨ kind = 0x0203 ∨ kind = 0x0205 then b + 2
  else if kind = 0x0204 then (if 2 ≤ leAt body 24 1 ∧ leAt body 24 1 ≤ 6 then b + 2 else b)
  else if kind = 0x0302 then b + 32
  else if 0x0401 ≤ kind ∧ kind ≤ 0x0405 then b + 16
  else if 0x0501 ≤ kind ∧ kind ≤ 0x0507 then b + 8
  else if 0x0601 ≤ kind ∧ kind ≤ 0x0603 then b + 32
  else if 0x0604 ≤ kind ∧ kind ≤ 0x0608 then b + 64
  else if kind = 0x0704 then b + 4 + 64
  else if 0x0900 ≤ kind ∧ kind ≤ 0x09FF then b + 128
  else b

/-- A record's arrival in the error block (R480). -/
def errArrive (s : State) (r : ErrRecord) : State :=
  if regBit s (errReg 0x000) 0 then
    let cls := recordClasses r.kind.toNat r.body
    let s := regPut s (errReg 0x00C) (regGet s (errReg 0x00C) ||| BitVec.ofNat 32 cls)
    let s := reg64Put (reg64Add s (errReg 0x010) 1) (errReg 0x020) r.time
    if s.errBuf.length < 256 then { s with errBuf := s.errBuf ++ [r] }
    else regSetBit (regAdd s (errReg 0x018) 1) (errReg 0x004) 1 true
  else regAdd s (errReg 0x018) 1

/-- A record of a unit, sent to the error block (R480, R547): its body is padded to 32 bytes. -/
def record (s : State) (kind region tile unit : Nat) (body : List Byte) : State :=
  errArrive s { time := now s, kind := BitVec.ofNat 16 kind, region := BitVec.ofNat 8 region, master := 0x3FF,
                tile := BitVec.ofNat 16 tile, unit := BitVec.ofNat 16 unit, body := slice body 0 32 }

/-- A record about a tile: its region, its logical tile and its site. -/
def tileRecord (s : State) (kind site : Nat) (body : List Byte) : State :=
  record s kind ((regionOfSite s site).getD 0xFF) (tileName s site) site body

/-- A record that the first event of its kind in each step of a tile's region writes (R163, R223, R235); `k` is the kind's mark. A tile in no region has no step and writes none. -/
def oncePerStep (s : State) (site k : Nat) (rec : State → State) : State :=
  match regionOfSite s site with
  | none => s
  | some r =>
    if (regionOf s r).marks.toNat.testBit k then s
    else rec (modRegion s r fun g => { g with marks := g.marks ||| BitVec.ofNat 3 (2 ^ k) })

end Sys2Proof.Machine
end

