-- ==== Sys2Proof/Machine/Operands.lean ====
section
/-! DEFINITION. Operand forms: the fields of a scalar immediate and of the 128-bit command descriptors (R101, R117 to R133). -/
namespace Sys2Proof.Machine
open Sys2Proof

/-- imm16 sign-extended to 64 bits (R101). -/
def immS (imm : BitVec 16) : Word64 := imm.signExtend 64

/-- imm16 zero-extended. -/
def immZ (imm : BitVec 16) : Word64 := imm.zeroExtend 64

/-- Bits [lo+n-1:lo] of word Wi of a descriptor (R117). -/
def dfield (d : BitVec 128) (word lo n : Nat) : Nat := fld d.toNat (32 * word + lo) n

def dbit (d : BitVec 128) (word i : Nat) : Bool := d.toNat.testBit (32 * word + i)

/-- KIND of the common header: 1 MMA, 2 VEC, 3 SFU, 4 MOVE, 5 SYNC, 6 CTRL. -/
def dKind (d : BitVec 128) : Nat := dfield d 0 0 4
def dWaitSem (d : BitVec 128) : Nat := dfield d 0 4 6
def dSigSem (d : BitVec 128) : Nat := dfield d 0 10 6

/-- Whether a semaphore field of the header names S00 to S47 or none (R117). -/
def semField (n : Nat) : Bool := decide (n < 48 ∨ n = 0x3F)

/-- The operation field of a VEC (VOP), SFU (FUNC), MOVE (MOP), SYNC (SOP) or CTRL (COP) descriptor. -/
def dVop (d : BitVec 128) : Nat := dfield d 0 16 6
def dOp (d : BitVec 128) : Nat := dfield d 0 16 4

/-- The queue that a KIND is routed to (R112). -/
def queueForKind (k : Nat) : QueueId :=
  if k = 1 then .array else if k = 2 ∨ k = 3 then .vector else if k = 4 then .move else .sync

/-- The depth of a queue (R112). -/
def queueDepth : QueueId → Nat
  | .array => 16
  | .vector => 32
  | .move => 32
  | .sync => 32

/-- MMA fields (R118). -/
def mmaWfmt (d : BitVec 128) : Nat := dfield d 0 16 4
def mmaAfmt (d : BitVec 128) : Nat := dfield d 0 20 4
def mmaOfmt (d : BitVec 128) : Nat := dfield d 0 24 4
def mmaInit (d : BitVec 128) : Bool := dbit d 0 28
def mmaWmx (d : BitVec 128) : Bool := dbit d 0 29
def mmaAmx (d : BitVec 128) : Bool := dbit d 0 30
def mmaRowchk (d : BitVec 128) : Bool := dbit d 0 31
def mmaWaddr (d : BitVec 128) : Nat := dfield d 1 0 13
def mmaAaddr (d : BitVec 128) : Nat := dfield d 1 13 13
def mmaWsrc (d : BitVec 128) : Bool := dbit d 1 26
def mmaAccaddr (d : BitVec 128) : Nat := dfield d 2 0 13
def mmaOutaddr (d : BitVec 128) : Nat := dfield d 2 13 13
def mmaM (d : BitVec 128) : Nat := 16 * (dfield d 3 0 10 + 1)
def mmaN (d : BitVec 128) : Nat := 16 * (dfield d 3 10 10 + 1)
def mmaK (d : BitVec 128) : Nat := 16 * (dfield d 3 20 10 + 1)
def mmaInt32 (d : BitVec 128) : Bool := dbit d 3 30

/-- VEC fields (R120). -/
def vecSfmt (d : BitVec 128) : Nat := dfield d 0 22 4
def vecDfmt (d : BitVec 128) : Nat := dfield d 0 26 4
def vecNonsat (d : BitVec 128) : Bool := dbit d 0 30
def vecSr (d : BitVec 128) : Bool := dbit d 0 31
def vecSrca (d : BitVec 128) : Nat := dfield d 1 0 13
def vecSrcb (d : BitVec 128) : Nat := dfield d 1 13 13
def vecBmode (d : BitVec 128) : Nat := dfield d 1 26 2
def vecMx (d : BitVec 128) : Bool := dbit d 1 28
def vecAcc (d : BitVec 128) : Bool := dbit d 1 29
def vecDst (d : BitVec 128) : Nat := dfield d 2 0 13
def vecLen (d : BitVec 128) : Nat := dfield d 2 13 16
/-- SERIAL of a VEC or SFU descriptor. -/
def dSerial (d : BitVec 128) : Bool := dbit d 2 31
def vecImm (d : BitVec 128) : Nat := dfield d 3 0 32

/-- SFU fields (R126). -/
def sfuSfmt (d : BitVec 128) : Nat := dfield d 0 20 4
def sfuDfmt (d : BitVec 128) : Nat := dfield d 0 24 4
def sfuNonsat (d : BitVec 128) : Bool := dbit d 0 28
def sfuSrc (d : BitVec 128) : Nat := dfield d 1 0 13
def sfuDst (d : BitVec 128) : Nat := dfield d 1 13 13
def sfuLen (d : BitVec 128) : Nat := dfield d 2 0 16
def sfuPrescale (d : BitVec 128) : Nat := dfield d 3 0 32

/-- MOVE fields (R128). -/
def moveVc2 (d : BitVec 128) : Bool := dbit d 0 20
def moveRsem (d : BitVec 128) : Nat := dfield d 0 21 6
def moveGrel (d : BitVec 128) : Bool := dbit d 0 27
def moveRemote (d : BitVec 128) : Nat := dfield d 1 0 32 + dfield d 2 0 16 * 2 ^ 32
def moveLocal (d : BitVec 128) : Nat := dfield d 2 16 13
def moveRows (d : BitVec 128) : Nat := dfield d 3 0 14
def moveGroup (d : BitVec 128) : Nat := dfield d 3 14 8

/-- SYNC fields (R131). -/
def syncOrd (d : BitVec 128) : Bool := dbit d 0 20
def syncSem (d : BitVec 128) : Nat := dfield d 0 21 6
def syncScope (d : BitVec 128) : Nat := dfield d 0 27 3
def syncCount (d : BitVec 128) : Nat := dfield d 1 0 16
def syncTarget (d : BitVec 128) : Nat := dfield d 1 16 12
def syncTime (d : BitVec 128) : Nat := dfield d 2 0 64

/-- CTRL fields (R133). -/
def ctrlKslot (d : BitVec 128) : Nat := dfield d 1 0 2
def ctrlKrow (d : BitVec 128) : Nat := dfield d 1 2 13
def ctrlBslot (d : BitVec 128) : Nat := dfield d 1 0 4
def ctrlBase (d : BitVec 128) : Nat := dfield d 2 0 48

end Sys2Proof.Machine
end

