-- ==== Sys2Proof/Machine/Spad.lean ====
section
/-! DEFINITION. Scratchpad rows: banks, spare rows, arbitration, error correction, poison tags and windows (R139 to R164, R171 to R174). -/
namespace Sys2Proof.Machine
open Sys2Proof

/-- The requestor numbers of R143. -/
def reqLoader : Nat := 0
def reqFeed : Nat := 1
def reqDrain : Nat := 2
def reqVector : Nat := 3
def reqSfu : Nat := 4
def reqMove : Nat := 5
def reqNetwork : Nat := 6
def reqCore (c : CoreId) : Nat := 7 + c.val
def reqMaintenance : Nat := 9

def bankOf (row : Nat) : Nat := row / 1024 % 8

/-- The stored row of a row address within its bank: the lowest-numbered valid remap entry that names it gives its spare row (R156). -/
def physRow (s : State) (site row : Nat) : Nat :=
  let b := bankOf row
  let r := row % 1024
  match (List.range 16).find? fun e =>
      let w := regGet s (spadReg site (0x100 + 64 * b + 4 * e))
      rbit w 15 && decide (rfld w 0 10 = r) with
  | some e => 1024 + e
  | none => r

/-- The key of a stored row: 1,040 rows in each of 8 banks of each site (R139). -/
def rowKey (s : State) (site row : Nat) : Nat := (site * 8 + bankOf row) * 1040 + physRow s site row

def bankState (s : State) (site bank : Nat) : BankState := mget BankState.off (tileOf s site).banks bank

def setBank (s : State) (site bank : Nat) (b : BankState) : State :=
  modTile s site fun t => { t with banks := mset BankState.off t.banks bank b }

/-- Whether the region that holds a site is HELD (R169). -/
def siteHeld (s : State) (site : Nat) : Bool :=
  match regionOfSite s site with
  | some r => decide ((regionOf s r).state = .held)
  | none => false

/-- Whether a requestor's access to a bank is served: the bank is ON, and the block is enabled and not HELD for every requestor but 9 (R147, R169, R171). -/
def bankServes (s : State) (site row req : Nat) : Bool :=
  decide (bankState s site (bankOf row) = .on) &&
    (decide (req = 9) || (regBit s (spadReg site 0x000) 0 && !siteHeld s site))

/-- SP_ERR_ADDR: row, word, requestor and kind (R171). -/
def errAddr (row word req kind : Nat) : Word32 := BitVec.ofNat 32 (row % 8192 + word * 2 ^ 13 + req * 2 ^ 19 + kind * 2 ^ 23)

/-- What R150 records of an access to an OFF bank. -/
def offAccess (s : State) (site row req : Nat) : State :=
  regPut (regAdd s (spadReg site 0x020) 1) (spadReg site 0x024) (errAddr row 0 req 1)

/-- The requestor a bank grants among those that want it: the first at or after the pointer, modulo 10 (R144). -/
def grantPick (ptr : Nat) (want : List Nat) : Option Nat :=
  ((List.range 10).map fun i => (ptr + i) % 10).find? fun r => want.contains r

/-- Cycles of arbitration until every want is served: the stalled requestor-cycles and the last pointer (R144, R146). A requestor listed twice asks again after its grant. -/
def arbitrate : Nat → Nat → List Nat → Nat → Nat × Nat
  | 0, ptr, _, stalls => (stalls, ptr)
  | fuel + 1, ptr, want, stalls =>
    match grantPick ptr want with
    | none => (stalls, ptr)
    | some r => arbitrate fuel ((r + 1) % 10) (want.erase r) (stalls + want.eraseDups.length - 1)

/-- The other requestors that an access of a requestor to a row meets (R144). -/
def rivalsOf (row req : Nat) : List RowEvent → List Nat
  | [] => []
  | .rivals r q others :: es => if r = row ∧ q.val = req then others.map Fin.val else rivalsOf row req es
  | _ :: es => rivalsOf row req es

/-- The grant of one access of a requestor (R144): arbitration with the requestors it meets, whose stalled cycles SP_CONFLICT counts (R146). -/
def grant (s : State) (site row req : Nat) (events : List RowEvent) : State :=
  let want := req :: rivalsOf row req events
  let (stalls, ptr) := arbitrate want.length (mget 0 (tileOf s site).rot (bankOf row)) want 0
  let s := modTile s site fun t => { t with rot := mset 0 t.rot (bankOf row) ptr }
  if stalls = 0 then s else reg64Add s (spadReg site 0x010) stalls

/-- The majority of a tag's three copies (R151). -/
def majority (c : BitVec 3) : Bool := decide (2 ≤ (List.range 3).countP fun i => c.toNat.testBit i)

/-- A sector's tag as it is read (R151). -/
def tagAt (s : State) (key sector : Nat) : Bool := majority (mget 0 s.spadTag (key * 8 + sector))

/-- A sector's tag written in all three copies. -/
def setTag (s : State) (key sector : Nat) (v : Bool) : State :=
  { s with spadTag := mset 0 s.spadTag (key * 8 + sector) (if v then 7 else 0) }

/-- The eight sector tags of a stored row. -/
def rowTags (s : State) (key : Nat) : BitVec 8 :=
  (List.range 8).foldl (fun a i => if tagAt s key i then a ||| BitVec.ofNat 8 (2 ^ i) else a) 0

def setRowTags (s : State) (key : Nat) (tags : BitVec 8) : State :=
  (List.range 8).foldl (fun s i => setTag s key i (tags.toNat.testBit i)) s

/-- The queue's order (R544): request time, then activity code, then scope. -/
def maintBefore (a b : Maint) : Bool :=
  decide (a.time < b.time) || (decide (a.time = b.time) && (decide (a.activity < b.activity) || (decide (a.activity = b.activity) && decide (a.scope < b.scope))))

def maintInsert (m : Maint) : List Maint → List Maint
  | [] => [m]
  | x :: xs => if maintBefore m x && !x.running then m :: x :: xs else x :: maintInsert m xs

/-- An activity entered in the maintenance queue (R544): one equal in activity and scope is merged; with 256 queued it is skipped (0x5200:07). -/
def queueMaint (s : State) (activity scope test urgency : Nat) (twin : Bool) (requester : Master) : State :=
  if s.maint.any fun m => decide (m.activity = activity ∧ m.scope = scope ∧ m.test = test ∧ !m.running) then s
  else if 256 ≤ s.maint.length then dcount s 0x5200 0x07 8 1
  else
    let m : Maint :=
      { id := s.maintNext, activity := activity, scope := scope, test := test, urgency := urgency, twinCover := twin,
        requester := requester, time := now s, running := false, started := 0, waits := false }
    { s with maint := maintInsert m s.maint, maintNext := s.maintNext + 1 }

/-- A Pounce target in the form of 0x5100:01: a physical site, cluster or link. -/
def physTarget (i : Nat) : Nat := 0x8000 + i

/-- A row found to be a repair candidate, logged once; its repair enters the maintenance queue (R158, R542). -/
def repairCandidate (s : State) (site row : Nat) : State :=
  if (tileOf s site).repairs.contains (BitVec.ofNat 13 row) then s
  else
    let s := modTile s site fun t => { t with repairs := t.repairs ++ [BitVec.ofNat 13 row] }
    queueMaint (tileRecord s 0x0202 site (leBytes 4 0 ++ leBytes 4 row)) 8 site 0 0 false 0

/-- The bits of a word that changed in storage. -/
def errBits (e : BitVec 72) : List (Fin 72) := (List.finRange 72).filter fun i => e.toNat.testBit i.val

/-- How the code sees a stored word whose bits `e` changed (R151): uncorrectable, no error, or a single error of one bit. -/
def secded (e : BitVec 72) : Option (Option (Fin 72)) :=
  match errBits e with
  | [] => some none
  | [k] => some (some k)
  | [_, _] => none
  | _ => Config.secdedWide e

/-- A stored word with some of its data bits flipped. -/
def wordFlip (mem : Memory) (a : Nat) (x : BitVec 72) : Memory :=
  memWrite mem a (leBytes 8 (leAt (memRead mem a 8) 0 8 ^^^ x.toNat % 2 ^ 64))

/-- What a read of the stored row `key` finds in its words (R151): the memory and departures as the code takes them, an undetected or miscorrected error being a codeword of other data, and each word found with whether it is uncorrectable. -/
def eccWords (mem : Memory) (err : SMap (BitVec 72)) (key : Nat) : Memory × SMap (BitVec 72) × List (Nat × Bool) :=
  (err.filter fun p => decide (p.1 / 64 = key)).foldl (fun a p =>
    match secded p.2 with
    | none => (a.1, a.2.1, a.2.2 ++ [(p.1 % 64, true)])
    | some none => (wordFlip a.1 (p.1 * 8) p.2, mset 0 a.2.1 p.1 0, a.2.2)
    | some (some k) =>
      let bit : BitVec 72 := BitVec.ofNat 72 (2 ^ k.val)
      (wordFlip a.1 (p.1 * 8) (p.2 ^^^ bit), mset 0 a.2.1 p.1 bit, a.2.2 ++ [(p.1 % 64, false)])) (mem, err, [])

/-- The stored words and tag copies of a row that changed, as the events name them. -/
def upsets (err : SMap (BitVec 72)) (tags : SMap (BitVec 3)) (row key : Nat) : List RowEvent → SMap (BitVec 72) × SMap (BitVec 3)
  | [] => (err, tags)
  | .upset r w x :: es => if r = row then upsets (mset 0 err (key * 64 + w.val) (mget 0 err (key * 64 + w.val) ^^^ x)) tags row key es else upsets err tags row key es
  | .tagUpset r i c :: es => if r = row then upsets err (mset 0 tags (key * 8 + i.val) (mget 0 tags (key * 8 + i.val) ^^^ c)) row key es else upsets err tags row key es
  | .rivals _ _ _ :: es => upsets err tags row key es

/-- One word that a read finds in error: corrected and queued for write-back (R152), or poisoning its sector (R153). -/
def eccFound (s : State) (site req row : Nat) (e : Nat × Bool) : State :=
  if e.2 then
    let s := setTag s (rowKey s site row) (e.1 / 8) true
    let s := regPut (regAdd s (spadReg site 0x01C) 1) (spadReg site 0x024) (errAddr row e.1 req 3)
    let s := tileRecord s 0x0201 site (leBytes 4 row ++ leBytes 4 e.1 ++ leBytes 4 req)
    repairCandidate s site row
  else
    let s := regPut (regAdd s (spadReg site 0x018) 1) (spadReg site 0x024) (errAddr row e.1 req 2)
    modTile s site fun t => { t with writebacks := t.writebacks ++ [(BitVec.ofNat 13 row, e.1)] }

/-- The errors that one read of a row finds, and the count of reads that corrected a word of it: the fourth makes it a repair candidate (R151 to R153, R158). -/
def eccRead (s : State) (site row req : Nat) (events : List RowEvent) : State :=
  let key := rowKey s site row
  let (err, tags) := upsets s.spadErr s.spadTag row key events
  let (mem, err, found) := eccWords s.spad err key
  let s := found.foldl (fun s e => eccFound s site req row e) { s with spad := mem, spadErr := err, spadTag := tags }
  if found.any fun e => !e.2 then
    let n := mget 0 (tileOf s site).ceReads row + 1
    let s := modTile s site fun t => { t with ceReads := mset 0 t.ceReads row n }
    if 4 ≤ n then repairCandidate s site row else s
  else s

/-- A row read that a bank serves: the state after arbitration and error correction, the bytes and the tags. -/
def rowRead (s : State) (site row req : Nat) (events : List RowEvent) : State × List Byte × BitVec 8 :=
  let s := eccRead (grant s site row req events) site row req events
  let key := rowKey s site row
  (s, memRead s.spad (key * 512) 512, rowTags s key)

/-- A row stored whole: its bytes, its tags and fresh check bits. -/
def rowStore (s : State) (key off : Nat) (bytes : List Byte) (tags : BitVec 8) : State :=
  setRowTags { s with spad := memWrite s.spad (key * 512 + off) bytes, spadErr := mdrop s.spadErr (key * 64) 64 } key tags

/-- A whole row written with its tags (R141, R154). -/
def rowWrite (s : State) (site row req : Nat) (events : List RowEvent) (bytes : List Byte) (tags : BitVec 8) : State :=
  let s := grant s site row req events
  rowStore s (rowKey s site row) 0 bytes tags

/-- The tag that each sector of a row takes when bytes [lo, hi) are written with data whose poison is `poison`: wholly covered, the data's; partly covered, set when either was (R154, R619). -/
def mergeTags (old : BitVec 8) (lo hi : Nat) (poison : Bool) : BitVec 8 :=
  (List.range 8).foldl (fun a i =>
    let was := old.toNat.testBit i
    let touched := decide (lo < 64 * i + 64 ∧ 64 * i < hi)
    let whole := decide (lo ≤ 64 * i ∧ 64 * i + 64 ≤ hi)
    let v := if whole then poison else if touched then was || poison else was
    if v then a ||| BitVec.ofNat 8 (2 ^ i) else a) 0

/-- Whether a window admits a direction, a row and a source of its scope (R160, R174). -/
def windowAdmits (w : Word32) (row : Nat) (write inRegion : Bool) : Bool :=
  let mode := rfld w 26 2
  decide (rfld w 0 13 ≤ row ∧ row ≤ rfld w 13 13) && (if write then decide (2 ≤ mode) else mode.testBit 0) &&
    (rbit w 28 || inRegion)

/-- Whether some window of a tile allows a remote access to a row (R160). -/
def windowAllows (s : State) (site row : Nat) (write inRegion : Bool) : Bool :=
  (List.range 8).any fun i => windowAdmits (regGet s (spadReg site (0x040 + 4 * i))) row write inRegion

/-- The value of SP_WLOG_SRC for a source (R171, R314). -/
def wlogSrc (s : State) (source : Option Site) (master : Master) (write : Bool) : Word32 :=
  let t := match source with
    | none => 0xFFF
    | some x => if siteSurplus s x.val then x.val + 2 ^ 23 else (ltOfSite s x.val).getD 0xFFF
  BitVec.ofNat 32 (t + master.toNat * 2 ^ 12 + boolNat write * 2 ^ 22)

/-- The record of a refused row at its target (R163). -/
def windowRefused (s : State) (site row : Nat) (source : Option Site) (master : Master) (write first : Bool) : State :=
  let s := regAdd s (spadReg site 0x028) 1
  let s := if first then
      let s := regPut s (spadReg site 0x02C) (wlogSrc s source master write)
      reg64Put (regPut s (spadReg site 0x030) (BitVec.ofNat 32 row)) (spadReg site 0x034) (now s)
    else s
  oncePerStep s site 0 fun s => tileRecord s 0x0301 site (leBytes 4 (wlogSrc s source master write).toNat ++ leBytes 4 row ++ leBytes 8 (now s))

end Sys2Proof.Machine
end

