-- ==== Sys2Proof/Machine/Queue.lean ====
section
/-! DEFINITION. What cores, semaphores and command queues share: traps, waits, load warnings, acceptance, the head of a queue and retirement (R107, R112 to R116, R134, R214 to R217). -/
namespace Sys2Proof.Machine
open Sys2Proof

/-! ## The tile clock -/

/-- The clock of an operating point code in MHz (R358). -/
def pointMHz (code : Nat) : Nat :=
  match code with
  | 0 => 2400
  | 1 => 2200
  | 2 => 2000
  | 3 => 1800
  | 4 => 1600
  | 5 => 1200
  | _ => 800

/-- The top clock of the grade in MHz (R358). -/
def gradeTopMHz : Nat := match Config.fusedGrade with
  | 0 => 2400
  | 1 => 2100
  | _ => 1800

/-- The tile clock of a cluster in MHz: the point's, clamped to the grade (R358). -/
def clusterMHz (s : State) (c : Nat) : Nat := min (pointMHz (clusterRec s c).code) gradeTopMHz

/-- Tile cycles in a span of device time. -/
def cyclesIn (mhz dtu : Nat) : Nat := dtu * mhz / 16000

/-- Tile cycles since reset (CR_CYCLE): a stretched period is one cycle (R79), so quarter periods of stretch count nothing. -/
def tileCycles (s : State) (site : Nat) : Nat :=
  let c := clusterRec s (siteCluster site)
  if c.power = .on then c.cycleTicks + cyclesIn (clusterMHz s (siteCluster site)) (now s - c.cycleBase) - (tileOf s site).stretched / 4
  else c.cycleTicks

/-- The tile cycles since reset at an instant no later than now, as the present clock counts them back to its last change. -/
def tileCyclesAt (s : State) (site t : Nat) : Nat :=
  tileCycles s site - cyclesIn (clusterMHz s (siteCluster site)) (now s - t)

/-- A local counter that has followed the base clock from reset (R339, R344). -/
def UnitClock.reset : UnitClock := { value := 0, at_ := 0, left := 0, held := false, missed := 0, packet := none }

/-- What a local counter reads after so many ticks of the base clock: 8 DTU a tick, 9 or 7 on the first |e| ticks of a correction, and 0 while it is held (R339, R347, R348; log entry 35). -/
def UnitClock.read (c : UnitClock) (ticks : Nat) : Nat :=
  if c.held then c.value
  else
    let n := ticks - c.at_
    let k := min n c.left.natAbs
    if c.left < 0 then c.value + 8 * n - k else c.value + 8 * n + k

/-- The local counter of a unit. -/
def unitTime (s : State) (key : Nat) : Nat := (mget UnitClock.reset s.units key).read s.time.ticks

/-- The Crown's local counter. -/
def crownTime (s : State) : Nat := unitTime s 12044

/-- A tile's local counter (CR_TIME, R339). -/
def localTime (s : State) (site : Nat) : Nat := unitTime s site

/-- A core of a tile stops at this cycle (R321). -/
def haltNoted (s : State) (site : Nat) : State := modTile s site fun t => { t with haltedAt := tileCycles s site }

/-! ## Traps (R107, R617) -/

/-- Whether a control-transfer target is valid (R617). -/
def validTarget (t : Nat) : Bool := decide (t % 4 = 0 ∧ t < 0x10000)

/-- Whether a core can issue an instruction: it runs and its cluster is on. -/
def coreReady (s : State) (site : Nat) (c : CoreId) : Bool :=
  clusterOn s (siteCluster site) && decide ((coreOf (tileOf s site) c).status = .running)

def modCore (s : State) (site : Nat) (c : CoreId) (f : Core → Core) : State :=
  modTile s site fun t => setCore t c (f (coreOf t c))

/-- Notes a trap of the step, for its region (R529). -/
def noteTrap (s : State) (site : Nat) : State :=
  match regionOfSite s site with
  | some r => modRegion s r fun g => { g with trapSeen := true }
  | none => s

/-- A trap: the core continues at CR_TVEC, or halts with a TILE_TRAP record (R107, R617). -/
def trapCore (s : State) (site : Nat) (c : CoreId) (cause epc : Nat) : State :=
  let tv := (coreOf (tileOf s site) c).tvec.toNat
  if tv ≠ 0 ∧ validTarget tv then
    modCore s site c fun k => { k with epc := BitVec.ofNat 64 epc, cause := BitVec.ofNat 64 cause, status := .running, pc := BitVec.ofNat 16 tv }
  else
    let s := modCore (haltNoted s site) site c fun k => { k with epc := BitVec.ofNat 64 epc, cause := BitVec.ofNat 64 cause, status := .trapped }
    let s := tileRecord s 0x0103 site (leBytes 4 c.val ++ leBytes 4 epc ++ leBytes 4 cause)
    noteTrap s site

/-- A core that issues again takes the trap of an LLD that completed while it could not issue (R105). -/
def settleTrap (s : State) (site : Nat) (c : CoreId) : State :=
  let k := coreOf (tileOf s site) c
  match k.trapDue with
  | some pc => if k.status = .running then trapCore (modCore s site c fun k => { k with trapDue := none }) site c 7 pc.toNat else s
  | none => s

/-- Sequential execution onward: the next instruction, or the trap after the one at 0xFFFC (R617). -/
def seqNext (s : State) (site : Nat) (c : CoreId) : State :=
  let pc := (coreOf (tileOf s site) c).pc.toNat
  if pc = 0xFFFC then trapCore s site c 3 0xFFFC
  else modCore s site c fun k => { k with pc := BitVec.ofNat 16 (pc + 4) }

/-- A stalled core proceeds past its instruction. -/
def coreResume (s : State) (site : Nat) (c : CoreId) : State :=
  settleTrap (seqNext (modCore s site c fun k => { k with status := .running, woken := false }) site c) site c

/-- A core starts at CR_ENTRY (R108); an invalid one traps with cause 3 (R617). The trap of an LLD that completed meanwhile is taken at its first issue slot (R105). -/
def coreRestart (s : State) (site : Nat) (c : CoreId) : State :=
  let entry := (coreOf (tileOf s site) c).entry
  settleTrap (if validTarget entry.toNat then modCore s site c fun k => { k with status := .running, pc := entry.truncate 16 }
    else trapCore s site c 3 entry.toNat) site c

/-- A retirement or a semaphore change wakes the cores that sleep in WFE (R102). -/
def wakeCores (s : State) (site : Nat) : State :=
  modTile s site fun t =>
    let w (k : Core) : Core := if k.status = .sleeping then { k with woken := true } else k
    { t with core0 := w t.core0, core1 := w t.core1 }

/-! ## Load warnings (R134, R382) -/

/-- Whether a warning of some tile of a cluster was given less than 2 µs ago (R382). -/
def warnAwaited (s : State) (c : Nat) : Bool :=
  (List.range 16).any fun k => match (tileOf s (16 * c + k)).lastWarn with
    | some w => decide (now s < w + 32000)
    | none => false

/-- A load warning reaches the cluster regulator. -/
def loadWarning (s : State) (site : Nat) : State :=
  let c := siteCluster site
  let s := modTile s site fun t => { t with lastWarn := some (now s) }
  let s := reg64Add s (vrReg c 0x020) 1
  modCluster s c fun r => { r with warnBoost := some (now s, now s + 32000) }

/-! ## Semaphores (R214 to R217) -/

def semValue (t : Tile) (n : Nat) : Nat := (mget 0 t.sems n).toNat

def semPut (t : Tile) (n v : Nat) : Tile := { t with sems := mset 0 t.sems n (BitVec.ofNat 16 v) }

/-- Consuming waiters of one semaphore served oldest first until one cannot be satisfied (R216 step 4): those left, the value left and those released. -/
def serveConsumers (n : Nat) : List Waiter → Nat → List Waiter × Nat × List Agent
  | [], v => ([], v, [])
  | w :: ws, v =>
    if w.sem = n ∧ !w.watch then
      if w.count ≤ v then
        let (left, v', rel) := serveConsumers n ws (v - w.count)
        (left, v', w.agent :: rel)
      else (w :: ws, v, [])
    else
      let (left, v', rel) := serveConsumers n ws v
      (w :: left, v', rel)

/-- The units that waits have taken from a semaphore in a cycle. -/
def takenIn (t : Tile) (cycle n : Nat) : Nat :=
  let p := mget (0, 0) t.semTaken n
  if p.1 = cycle then p.2 else 0

/-- Steps 3 and 4 of R216 for one semaphore: watchers that see the value, then consumers. The cycle's signals are added together before either step, so a watcher sees what consumers have taken in this cycle as well (log entry 123). A head that was waiting when its array's EN was cleared keeps its place and takes its unit: DESIGN CHOICE, unsafe (log entry 154). -/
def semServe (t : Tile) (cycle n : Nat) : Tile × List Agent :=
  let v := semValue t n
  let gone := takenIn t cycle n
  let seen := fun (w : Waiter) => decide (w.sem = n) && w.watch && decide (w.count ≤ v + gone)
  let watched := (t.waiters.filter seen).map (·.agent)
  let (left, v', rel) := serveConsumers n (t.waiters.filter fun w => !seen w) v
  (semPut { t with waiters := left, semTaken := if v' = v then t.semTaken else mset (0, 0) t.semTaken n (cycle, gone + (v - v')) } n v',
    watched ++ rel)

/-- A queue's entry whose wait is over: a head on its WAIT_SEM is granted; a SYNC WAIT or WATCH in execution is done. -/
def grantEntry : List QEntry → List QEntry
  | [] => []
  | e :: es =>
    if e.prog = .waiting then { e with prog := .granted } :: es
    else if e.prog = .running ∧ dKind e.desc = 5 ∧ (dOp e.desc = 1 ∨ dOp e.desc = 2) then { e with prog := .done 0 } :: es
    else e :: grantEntry es

/-- A released agent proceeds (R216). -/
def releaseAgent (s : State) (site : Nat) (a : Agent) : State :=
  match a with
  | .core c => coreResume s site c
  | .queue q => modTile s site fun t => setQueue t q { queueOf t q with entries := grantEntry (queueOf t q).entries }

/-- Serves one semaphore and lets the released agents go. -/
def semSettle (s : State) (site n : Nat) : State :=
  let (t, rel) := semServe (tileOf s site) (tileCycles s site) n
  rel.foldl (fun s a => releaseAgent s site a) (setTile s site t)

/-- A signal of `units` to a semaphore (R216 step 1, R217, R243): the sum that saturates is that of the cycle's signals, before any wait takes from it. -/
def semSignal (s : State) (site n units : Nat) (src : LastSignal) : State :=
  let t := tileOf s site
  let gone := takenIn t (tileCycles s site) n
  let v := semValue t n + gone + units
  let t := { semPut t n (min v 65535 - gone) with lastSig := mset ⟨0, 0, 0, 0, false, 0⟩ t.lastSig n src }
  let s := setTile s site t
  let s := if 65535 < v then
      let s := regAdd (regSetBit s (syncReg site 0x004) 2 true) (syncReg site 0x01C) 1
      tileRecord s 0x0303 site (leBytes 4 n ++ leBytes 4 src.source.toNat)
    else s
  wakeCores (semSettle s site n) site

/-- The fixed order of agents (R216 step 2). -/
def agentNo : Agent → Nat
  | .core c => c.val
  | .queue q => 2 + queueNo q

/-- A waiter joins behind every older one; among those of its cycle, in the fixed agent order (R216 step 2). -/
def joinWaiters (ws : List Waiter) (w : Waiter) : List Waiter :=
  let before (x : Waiter) : Bool := decide (x.cycle ≠ w.cycle) || decide (agentNo x.agent ≤ agentNo w.agent)
  ws.takeWhile before ++ w :: ws.dropWhile before

/-- A wait that begins (R216 step 2): served at once where its units are there, which changes the semaphore and wakes sleeping cores (R102). -/
def semWaitBegin (s : State) (site : Nat) (a : Agent) (n : Nat) (watch : Bool) (count : Nat) : State :=
  let w : Waiter := ⟨a, n, watch, count, tileCycles s site⟩
  let s' := semSettle (modTile s site fun t => { t with waiters := joinWaiters t.waiters w }) site n
  if semValue (tileOf s' site) n = semValue (tileOf s site) n then s' else wakeCores s' site

/-- The last-signaller entry of a signal made in the tile itself. -/
def ownSignal (s : State) (site path units : Nat) : LastSignal :=
  { time := now s, source := BitVec.ofNat 16 (tileName s site), master := 0x3FF, path := path, ord := false, units := units }

/-- Whether a tile's semaphores are in use (R238). -/
def syncEnabled (s : State) (site : Nat) : Bool := regBit s (syncReg site 0x000) 0

/-! ## Gangs (R70, R136) -/

def gangGrain (s : State) (r : Nat) : Bool := decide (dnum s (0x3100 + r) 0x04 = 1)

/-- The sites of a region's gang in field n, in ascending LT order (R70). -/
def gangSites (s : State) (r n : Nat) : List Nat :=
  ((regionLcs s r).filter fun lc => decide (lc / 15 = n)).flatMap fun lc =>
    (List.range 15).filterMap fun i => siteOfLt s (15 * lc + i)

/-- The region, the gang's sites and this site's position, for a site in a gang region. -/
def gangPlace (s : State) (site : Nat) : Option (Nat × List Nat × Nat) :=
  match regionOfSite s site with
  | some r =>
    if gangGrain s r then
      let g := gangSites s r (siteField site)
      match findPos (fun x => decide (x = site)) g with
      | some i => some (r, g, i)
      | none => none
    else none
  | none => none

/-! ## Command queues (R112 to R116) -/

/-- Whether a queue's count of accepted and unretired commands, with `extra` on the way, reaches its depth (R112). -/
def queueFull (t : Tile) (q : QueueId) (extra : Nat) : Bool :=
  decide (queueDepth q ≤ (queueOf t q).entries.length + extra)

/-- What an MMA's entry into the array queue does beside being queued: the load warning of R134, or the PREWARN that stands for it, and the idle time of R77. -/
def arrayEntry (s : State) (site : Nat) : State :=
  let t := tileOf s site
  match t.idleSince with
  | none => modTile s site fun t => { t with preWarn := none }
  | some i =>
    let ramp := decide (256 ≤ tileCycles s site - i)
    let enter (s : State) (w : Nat) : State :=
      modTile s site fun t => { t with idleSince := none, preWarn := none, idleEntry := some ⟨t.arrayQ.nextSeq, w, ramp⟩ }
    match t.preWarn with
    | some w => if now s ≤ w + 32000 then enter s w else enter (loadWarning s site) (now s)
    | none => enter (loadWarning s site) (now s)

/-- Every command of a tile that is accepted and not retired. -/
def unretired (t : Tile) : List (QueueId × BitVec 16) :=
  [QueueId.array, .vector, .move, .sync].flatMap fun q => (queueOf t q).entries.map fun e => (q, e.seq)

/-- Accepts a descriptor into a queue of a tile; a SYNC FENCE notes what was accepted before it (R226). -/
def enqueue (s : State) (site : Nat) (q : QueueId) (d : BitVec 128) : State :=
  let s := if q = .array then arrayEntry s site else s
  modTile s site fun t =>
    let c := queueOf t q
    let e : QEntry := { seq := c.nextSeq, desc := d, prog := .queued, covers := if dKind d = 5 ∧ dOp d = 4 then unretired t else [] }
    setQueue t q { c with entries := c.entries ++ [e], nextSeq := c.nextSeq + 1 }

/-- Whether an entry has not started. -/
def QEntry.unstarted (e : QEntry) : Bool := decide (e.prog = .queued ∨ e.prog = .waiting ∨ e.prog = .granted)

/-- The head of a queue: its first command that has not started (R113). -/
def queueHead (t : Tile) (q : QueueId) : Option QEntry := (queueOf t q).entries.find? QEntry.unstarted

/-- An entry of a queue by its sequence number, with its progress changed. -/
def setProg (t : Tile) (q : QueueId) (seq : BitVec 16) (p : Progress) : Tile :=
  let c := queueOf t q
  setQueue t q { c with entries := c.entries.map fun e => if e.seq = seq then { e with prog := p } else e }

def setProgS (s : State) (site : Nat) (q : QueueId) (seq : BitVec 16) (p : Progress) : State :=
  modTile s site fun t => setProg t q seq p

/-- Takes the head of a queue through its check and its wait (R115, R116): the check's status when it is not OK, else the wait of one unit on WAIT_SEM. Of several failures the lowest status is given: DESIGN CHOICE, unsafe (log entry 132). -/
def headStep (s : State) (site : Nat) (q : QueueId) (e : QEntry) (status : Nat) : State :=
  if e.prog ≠ .queued then s
  else
    let st := if semField (dWaitSem e.desc) && semField (dSigSem e.desc) then status else if status ≠ 0 ∧ status < 0x0D then status else 0x0D
    if st ≠ 0 then setProgS s site q e.seq (.done (BitVec.ofNat 8 st))
    else if dWaitSem e.desc = 0x3F then setProgS s site q e.seq .granted
    else if syncEnabled s site then
      semWaitBegin (setProgS s site q e.seq .waiting) site (.queue q) (dWaitSem e.desc) false 1
    else s

/-- The head of a queue once its wait is over. -/
def headGranted (s : State) (site : Nat) (q : QueueId) (seq : BitVec 16) : Bool :=
  (queueOf (tileOf s site) q).entries.any fun e => decide (e.seq = seq ∧ e.prog = .granted)

/-- Whether every earlier command of a queue has retired. -/
def queueFirst (s : State) (site : Nat) (q : QueueId) (seq : BitVec 16) : Bool :=
  match (queueOf (tileOf s site) q).entries with
  | e :: _ => decide (e.seq = seq)
  | [] => false

/-- Whether the statuses 0x07, 0x08, 0x0B, and 0x09 of a command that SUSPECT stopped, write a COMMAND_ERROR record (R116). -/
def commandErrorDue (t : Tile) (q : QueueId) (e : QEntry) (st : BitVec 8) : Bool :=
  decide (st = 0x07 ∨ st = 0x08 ∨ st = 0x0B) ||
    (decide (st = 0x09 ∧ q = .array) && (match t.mma with | some m => decide (m.seq ≠ e.seq) | none => true))

/-- What a status that is not OK leaves in CR_QSTAT and CR_QERRn (R116), and with the region (R529). -/
def noteStatus (s : State) (site : Nat) (q : QueueId) (e : QEntry) (st : BitVec 8) : State :=
  if st = 0 then s
  else
    let err := commandErrorDue (tileOf s site) q e st
    let s := modTile s site fun t =>
      let t := { t with qstat := t.qstat ||| BitVec.ofNat 4 (2 ^ queueNo q) }
      setQueue t q { queueOf t q with err := BitVec.ofNat 64 (e.seq.toNat * 2 ^ 48 + st.toNat) }
    let s := if err then
        tileRecord s 0x0104 site (leBytes 4 (queueNo q) ++ leBytes 4 e.seq.toNat ++ leBytes 4 st.toNat ++ leBytes 8 (if q = .move then moveRemote e.desc else 0))
      else s
    if st = 0x08 ∨ st = 0x09 then s
    else match regionOfSite s site with
      | some r => modRegion s r fun g => { g with cmdFault := true }
      | none => s

/-- Retirement (R113 to R116): the entry leaves, CR_QDONE counts it, its status is noted and SIG_SEM is signalled by one unit. -/
def retire (s : State) (site : Nat) (q : QueueId) (e : QEntry) (st : BitVec 8) : State :=
  let s := noteStatus s site q e st
  let s := modTile s site fun t =>
    let c := queueOf t q
    let c := { c with entries := c.entries.filter (fun x => decide (x.seq ≠ e.seq)), retired := c.retired + 1 }
    let t := setQueue t q c
    match q with
    | .array => { t with mma := none, idleSince := if c.entries.isEmpty then some (tileCycles s site) else t.idleSince }
    | .move => { t with moves := t.moves.filter fun m => decide (m.seq ≠ e.seq) }
    | _ => t
  let s := wakeCores s site
  if dSigSem e.desc < 48 then semSignal s site (dSigSem e.desc) 1 (ownSignal s site (2 + queueNo q) 1) else s

/-- Whether a retirement may signal: SIG_SEM names none, or the tile's semaphores are in use (R238). -/
def retireReady (s : State) (site : Nat) (e : QEntry) : Bool :=
  decide (48 ≤ dSigSem e.desc) || syncEnabled s site

end Sys2Proof.Machine
end

