-- ==== Sys2Proof/Machine/Area.lean ====
section
/-! DEFINITION. Operand areas of a unit in scratchpad: the rows a span of bytes covers, reading it, patching it (R109, R141, R155, R619), and the maintenance queue. -/
namespace Sys2Proof.Machine
open Sys2Proof

/-- The rows that bytes [off, off + n) of an area that begins at row `base` cover, each with the first and last byte taken in it. -/
def areaRows (base off n : Nat) : List (Nat × Nat × Nat) :=
  if n = 0 then []
  else
    (List.range ((off + n - 1) / 512 - off / 512 + 1)).map fun i =>
      let r := off / 512 + i
      (base + r, off - r * 512, min 512 (off + n - r * 512))

/-- The first row of a span that is not served to a requestor (R150). -/
def areaOff (s : State) (site req base off n : Nat) : Option Nat :=
  ((areaRows base off n).find? fun p => !bankServes s site p.1 req).map (·.1)

/-- The rows of a span granted, and read with the errors they hold. -/
def areaEcc (s : State) (site req base off n : Nat) (events : List RowEvent) : State :=
  (areaRows base off n).foldl (fun s p => eccRead (grant s site p.1 req events) site p.1 req events) s

def areaRead (s : State) (site base off n : Nat) : List Byte :=
  (areaRows base off n).flatMap fun p => memRead s.spad (rowKey s site p.1 * 512 + p.2.1) (p.2.2 - p.2.1)

/-- Whether a sector that holds a byte of the span is poisoned (R155). -/
def areaPoison (s : State) (site base off n : Nat) : Bool :=
  (areaRows base off n).any fun p =>
    let key := rowKey s site p.1
    (List.range 8).any fun i => decide (p.2.1 < 64 * i + 64 ∧ 64 * i < p.2.2) && tagAt s key i

/-- Bytes merged into the rows of a span, each row written back whole (R619): bytes beyond the span keep their values, and tags follow R154 and R619. A row covered in part is read first, so its errors are met. -/
def areaPatch (s : State) (site req base off : Nat) (events : List RowEvent) (bytes : List Byte) : State :=
  ((areaRows base off bytes.length).foldl (fun (a : State × List Byte) p =>
      let n := p.2.2 - p.2.1
      let s := if n = 512 then a.1 else eccRead (grant a.1 site p.1 req events) site p.1 req events
      let key := rowKey s site p.1
      let tags := mergeTags (rowTags s key) p.2.1 p.2.2 false
      let s := grant s site p.1 req events
      (rowStore s key p.2.1 (a.2.take n) tags, a.2.drop n)) (s, bytes)).1

/-- The tags of every sector of a span set (R88, R155). -/
def areaTaint (s : State) (site base off n : Nat) : State :=
  (areaRows base off n).foldl (fun s p =>
    let key := rowKey s site p.1
    (List.range 8).foldl (fun s i => if p.2.1 < 64 * i + 64 ∧ 64 * i < p.2.2 then setTag s key i true else s) s) s

/-- Packed elements of `bits` bits merged into the rows of an area: bits beyond them in their last byte keep their values, and a sector that such a byte ends is covered in part (R619). -/
def areaPatchBits (s : State) (site req base bits : Nat) (events : List RowEvent) (bytes : List Byte) : State :=
  let r := bits % 8
  let last := bytes.length - 1
  if r = 0 then areaPatch s site req base 0 events bytes
  else
    let was := leAt (areaRead s site base last 1) 0 1
    let byte := leAt bytes last 1 % 2 ^ r + was / 2 ^ r * 2 ^ r
    let keep := areaPoison s site base last 1
    let s := areaPatch s site req base 0 events (bytes.take last ++ leBytes 1 byte)
    if keep then areaTaint s site base last 1 else s

/-- Whether an area lies within rows 0 to 8,191 (R116). -/
def areaFits (base n : Nat) : Bool := decide (base * 512 + n ≤ 8192 * 512)

/-- Whether two areas share a row byte range (R119). -/
def areasOverlap (b1 n1 b2 n2 : Nat) : Bool :=
  decide (b1 * 512 < b2 * 512 + n2 ∧ b2 * 512 < b1 * 512 + n1 ∧ n1 ≠ 0 ∧ n2 ≠ 0)

/-- Bytes of a 64-element group in a format (R109). -/
def groupBytes (code : Nat) : Nat :=
  match formatOf code with
  | some f => 8 * f.bits
  | none => 0

/-- The first row after a data area, where its scale area begins (R111). -/
def scaleRow (base dataBytes : Nat) : Nat := base + ceilDiv dataBytes 512

end Sys2Proof.Machine
end

