-- ==== Sys2Proof/Machine/Hbm.lean ====
section
/-! DEFINITION. HBM addresses, sectors and error records (R245 to R260, R267 to R269, R620), and the append of field defect records (R549, R550). -/
namespace Sys2Proof.Machine
open Sys2Proof

/-! ## Field defect records -/

/-- PTP seconds at the present device time (R337). -/
def ptpSeconds (s : State) : Nat := dnum s 0x2200 0x03 + now s / 16000000000

/-- The bytes of a field defect record (R549). -/
def defectBytes (d : Defect) : List Byte :=
  leBytes 1 d.kind.toNat ++ leBytes 1 d.source.toNat ++ leBytes 2 d.unit.toNat ++ leBytes 4 d.detail.toNat ++ leBytes 8 d.ptp.toNat

def sameDefect (a b : Defect) : Bool := decide (a.kind = b.kind ∧ a.unit = b.unit ∧ a.detail = b.detail)

/-- Whether the factory map already holds a defect (R550). -/
def inFactoryMap (kind unit detail : Nat) : Bool :=
  Config.factoryMap.any fun e => decide (e.1 = kind ∧ e.2.1 = unit ∧ (kind = 1 ∨ e.2.2.1 = detail))

/-- The append of a permanent defect: begun unless it is known already, or kept for this boot and logged as FIELD_OTP_FULL when all 256 slots are used (R550). -/
def defectAppend (s : State) (kind source unit detail : Nat) : State :=
  let d : Defect := ⟨BitVec.ofNat 8 kind, BitVec.ofNat 8 source, BitVec.ofNat 16 unit, BitVec.ofNat 32 detail, BitVec.ofNat 64 (ptpSeconds s)⟩
  if inFactoryMap kind unit detail || s.otp.field.any (fun x => sameDefect x.2 d && decide (x.1 ≠ 0xFF)) ||
      s.otp.appending.any (fun x => sameDefect x.1 d) then s
  else if s.boot.bootDefects.any (sameDefect d) then s
  else if 256 ≤ s.otp.field.length + s.otp.appending.length then
    record { s with boot := { s.boot with bootDefects := s.boot.bootDefects ++ [d] } } 0x0803 0xFF 0xFFFF unit (defectBytes d)
  else { s with otp := { s.otp with appending := s.otp.appending ++ [(d, now s)] } }

/-- A permanent defect found: a FIELD_DEFECT record, and the append (R527, R540). -/
def fieldDefect (s : State) (kind source unit detail : Nat) : State :=
  let d : Defect := ⟨BitVec.ofNat 8 kind, BitVec.ofNat 8 source, BitVec.ofNat 16 unit, BitVec.ofNat 32 detail, BitVec.ofNat 64 (ptpSeconds s)⟩
  defectAppend (record s 0x0802 0xFF 0xFFFF unit (defectBytes d)) kind source unit detail

/-! ## Addresses (R249 to R251) -/

def gib : Nat := 2 ^ 30

/-- The stacks of field n (R8). -/
def stackCount (n : Nat) : Nat := [3, 2, 3, 2, 0, 2, 2, 0, 2, 3, 2, 3].getD n 0

/-- The first stack of field n. -/
def firstStack (n : Nat) : Nat := ((List.range n).map stackCount).foldl (· + ·) 0

/-- The field of a stack. -/
def stackField (h : Nat) : Nat := ((List.range 12).find? fun n => decide (firstStack n ≤ h ∧ h < firstStack n + stackCount n)).getD 0

/-- The split S in force. -/
def splitS (s : State) : Nat := dnum s 0x4000 0x11

def spreadEnd (s : State) : Nat := 24 * splitS s * gib

def windowLen (s : State) (n : Nat) : Nat := stackCount n * (128 - splitS s) * gib

def windowBase (s : State) (n : Nat) : Nat := spreadEnd s + firstStack n * (128 - splitS s) * gib

/-- The live stacks of field n, ascending: those that did not fail at training (R251). -/
def liveStacks (s : State) (n : Nat) : List Nat :=
  (List.range (stackCount n)).filterMap fun i => if (stackRec s (firstStack n + i)).dead then none else some (firstStack n + i)

/-- The stack and stack offset of an HBM address; none where no live stack backs it (R250, R251). -/
def hbmPlace (s : State) (a : Nat) : Option (Nat × Nat) :=
  if a < spreadEnd s then
    let u := a / 4096
    some (u % 24, u / 24 * 4096 + a % 4096)
  else
    match (List.range 12).find? fun n => decide (windowBase s n ≤ a ∧ a < windowBase s n + windowLen s n) with
    | none => none
    | some n =>
      let live := liveStacks s n
      let r := a - windowBase s n
      let u := r / 4096
      if live.length = 0 then none
      else
        let off := splitS s * gib + u / live.length * 4096 + r % 4096
        if off < 128 * gib then some (live.getD (u % live.length) 0, off) else none

/-- The device address of a stack offset: the inverse of `hbmPlace`. -/
def hbmAddr (s : State) (h off : Nat) : Nat :=
  if off < splitS s * gib then (off / 4096 * 24 + h) * 4096 + off % 4096
  else
    let n := stackField h
    let live := liveStacks s n
    let r := off - splitS s * gib
    windowBase s n + (r / 4096 * live.length + (findPos (fun x => decide (x = h)) live).getD 0) * 4096 + r % 4096

/-- Whether an address is backed by a stack that is not FAILED (R251, R264). -/
def hbmBacked (s : State) (a : Nat) : Bool :=
  match hbmPlace s a with
  | some (h, _) => decide ((stackRec s h).st ≠ .failed)
  | none => false

/-- The key of a stored HBM byte: 128 GiB for each stack. -/
def hbmKey (h off : Nat) : Nat := h * (128 * gib) + off

/-- Whether an address lies in a range that is being zeroed (R168, R260). -/
def hbmZeroing (s : State) (a n : Nat) : Bool :=
  s.hbmZero.any fun z => decide (a < z.range.1 + z.range.2 ∧ z.range.1 < a + n)

/-- The 4 KiB units of [u0, u1) that fall to position i among k. -/
def unitsAt (u0 u1 i k : Nat) : Nat := if k = 0 then 0 else (u1 + k - 1 - i) / k - (u0 + k - 1 - i) / k

/-- The bytes of a range that lie in stack h. -/
def rangeInStack (s : State) (h : Nat) (r : Range) : Nat :=
  let part (lo hi i k : Nat) : Nat :=
    let a := max r.1 lo
    let b := min (r.1 + r.2) hi
    if a < b then unitsAt ((a - lo) / 4096) (ceilDiv (b - lo) 4096) i k * 4096 else 0
  let n := stackField h
  let live := liveStacks s n
  let loc := match findPos (fun x => decide (x = h)) live with
    | some i => part (windowBase s n) (windowBase s n + windowLen s n) i live.length
    | none => 0
  part 0 (spreadEnd s) h 24 + loc

/-- :0F of every stack after a change of the ranges being zeroed: the parts that it has not finished (R260). -/
def zeroPending (s : State) : State :=
  (List.range 24).foldl (fun s h =>
    dputNum s (0x4000 + h) 0x0F 8 ((s.hbmZero.map fun z => if z.left.contains h then rangeInStack s h z.range else 0).foldl (· + ·) 0)) s

/-- The zeroing of a range begins in every stack that holds part of it (R168, R260). -/
def zeroBegin (s : State) (key : Nat) (r : Range) : State :=
  zeroPending { s with hbmZero := s.hbmZero ++ [⟨key, r, (List.range 24).filter fun h => decide (rangeInStack s h r ≠ 0 ∧ (stackRec s h).st ≠ .failed)⟩] }

/-- The ranges that every stack has zeroed return to the free pool (R168, R260). -/
def zeroSettle (s : State) : State :=
  let gone := s.hbmZero.filter fun z => z.left.isEmpty
  zeroPending { s with hbmZero := s.hbmZero.filter fun z => !z.left.isEmpty
                       hbmAlloc := s.hbmAlloc.filter fun r => !gone.any fun z => decide (z.range = r) }

/-- Whether an access to an address waits for its stack to retrain (R262). -/
def stackHolds (s : State) (a : Nat) : Bool :=
  match hbmPlace s a with
  | some (h, _) => decide (a < 0x030000000000) && (stackRec s h).retraining
  | none => false

/-! ## Sectors and records -/

def hbmTagAt (s : State) (key sector : Nat) : Bool := mget false s.hbmTag (key / 64 + sector)

def setHbmTag (s : State) (key sector : Nat) (v : Bool) : State :=
  { s with hbmTag := mset false s.hbmTag (key / 64 + sector) v }

/-- Who accessed HBM: the requestor code of R269, its master identity and its region. -/
structure HbmReq where
  code : Nat
  master : Nat
  region : Nat
deriving DecidableEq, Repr

/-- An HBM error record, kept in :0E and sent to the log (R268, R269). -/
def hbmRecord (s : State) (addr h off kind : Nat) (q : HbmReq) : State :=
  let body := leBytes 8 (now s) ++ leBytes 8 addr ++ leBytes 1 h ++ leBytes 1 (off / 4096 % 32) ++
    leBytes 6 (Config.hbmPlace off) ++ leBytes 1 kind ++ leBytes 1 q.code ++ leBytes 2 q.master ++ leBytes 1 q.region ++ zeros 3
  errArrive (dput s (0x4000 + h) 0x0E body)
    { time := now s, kind := 0x0204, region := BitVec.ofNat 8 q.region, master := BitVec.ofNat 10 q.master,
      tile := 0xFFFF, unit := BitVec.ofNat 16 h, body := body }

/-- The record of an access to an unbacked address, kind 5, or to one being zeroed, kind 6. An address behind no stack is recorded by the first stack of its field, with the pseudo-channel, bank, row and column of that stack's offset 0 (DESIGN CHOICE, log entry 16). -/
def hbmRefused (s : State) (addr kind : Nat) (q : HbmReq) : State :=
  match hbmPlace s addr with
  | some (h, off) => hbmRecord s addr h off kind q
  | none =>
    let n := ((List.range 12).find? fun n => decide (windowBase s n ≤ addr ∧ addr < windowBase s n + windowLen s n)).getD 0
    hbmRecord s addr (firstStack n) 0 kind q

/-- A sector stored as poison: :09 advances (R256). -/
def poisonStore (s : State) (h key sector : Nat) : State := dcount (setHbmTag s key sector true) (0x4000 + h) 0x09 8 1

/-- An uncorrectable sector: stored as poison, counted and recorded with kind 2 (R256). -/
def hbmUncorrectable (s : State) (addr h off sector : Nat) (q : HbmReq) : State :=
  hbmRecord (poisonStore (dcount s (0x4000 + h) 0x08 8 1) h (hbmKey h off) sector) (addr + 64 * sector) h (off + 64 * sector) 2 q

/-- What a read finds in the sectors that are not poison already, or a write in its command and data, counted and recorded (R253 to R256): stored poison is a pattern that no data carries. -/
def hbmFound (s : State) (addr h off : Nat) (write : Bool) (found : HbmFind) (q : HbmReq) : State :=
  let stored := s
  let live (i : Fin 8) : Bool := !write && !hbmTagAt stored (hbmKey h off) i.val
  let s := dcount s (0x4000 + h) 0x0A 8 found.onDie
  let s := (found.corrected.filter live).foldl (fun s i =>
    hbmRecord (dcount s (0x4000 + h) 0x07 8 1) (addr + 64 * i.val) h (off + 64 * i.val) 1 q) s
  let s := (found.bad.filter live).foldl (fun s i => hbmUncorrectable s addr h off i.val q) s
  match found.parity with
  | none => s
  | some (i, n) =>
    let s := dcount s (0x4000 + h) 0x0B 8 (min n 4)
    if n < 5 then s
    else
      let s := poisonStore s h (hbmKey h off) i.val
      let s := hbmRecord s (addr + 64 * i.val) h (off + 64 * i.val) 4 q
      queueMaint s 6 h 0 0 false 0

/-- The eight tags of a stored row. -/
def hbmTags (s : State) (key : Nat) : BitVec 8 :=
  (List.range 8).foldl (fun a i => if hbmTagAt s key i then a ||| BitVec.ofNat 8 (2 ^ i) else a) 0

/-- The records of the stored poison that a read delivers, kind 3 (R256). -/
def storedPoison (s : State) (addr h off : Nat) (q : HbmReq) : State :=
  (List.range 8).foldl (fun s i => if hbmTagAt s (hbmKey h off) i then hbmRecord s (addr + 64 * i) h (off + 64 * i) 3 q else s) s

/-- A row read at a backed address: the state, the bytes and the tags. -/
def hbmRead (s : State) (addr h off : Nat) (found : HbmFind) (q : HbmReq) : State × List Byte × BitVec 8 :=
  let key := hbmKey h off
  let s := hbmFound (storedPoison s addr h off q) addr h off false found q
  (s, memRead s.hbm key 512, hbmTags s key)

/-- Whole sectors written at a backed address: each takes its tag, a poisoned one is a poison store, clean data clears poison, and a parity failure leaves its sector poisoned (R255 to R257). -/
def hbmWrite (s : State) (addr h off : Nat) (bytes : List Byte) (tags : BitVec 8) (found : HbmFind) (q : HbmReq) : State :=
  let key := hbmKey h off
  let s := (List.range (bytes.length / 64)).foldl (fun s i =>
    if tags.toNat.testBit i then poisonStore s h key i else setHbmTag s key i false) { s with hbm := memWrite s.hbm key bytes }
  hbmFound s addr h off true found q

/-! ## Engines (R256 to R258, R264) -/

/-- A sector that an engine reads: its bytes, and whether it takes them as poisoned, as it does from an unbacked address, from a range being zeroed and from stored poison. -/
def engineSector (s : State) (q : HbmReq) (a : Nat) : State × List Byte × Bool :=
  match hbmPlace s a with
  | some (h, off) =>
    let bytes := memRead s.hbm (hbmKey h off) 64
    if (stackRec s h).st = .failed then (hbmRefused s a 5 q, bytes, true)
    else if hbmZeroing s a 64 then (hbmRefused s a 6 q, bytes, true)
    else if hbmTagAt s (hbmKey h off) 0 then (hbmRecord s a h off 3 q, bytes, true)
    else (s, bytes, false)
  | none => (hbmRefused s a 5 q, zeros 64, true)

/-- Sectors read from an aligned address on. -/
def engineSectors (s : State) (q : HbmReq) (a : Nat) : Nat → State × List (List Byte × Bool)
  | 0 => (s, [])
  | n + 1 =>
    let (s, x) := engineSector s q a
    let (s, xs) := engineSectors s q (a + 64) n
    (s, x :: xs)

/-- Bytes read by an engine, and whether any sector they lie in is poisoned. -/
def engineRead (s : State) (q : HbmReq) (a n : Nat) : State × List Byte × Bool :=
  let (s, xs) := engineSectors s q (a / 64 * 64) (ceilDiv (a % 64 + n) 64)
  (s, slice (xs.flatMap (·.1)) (a % 64) n, xs.any (·.2))

/-- Part of one sector written by an engine: a sector that is not covered wholly keeps its poison; nothing is written at an unbacked address. -/
def enginePart (s : State) (q : HbmReq) (a : Nat) (part : List Byte) (poison : Bool) : State :=
  match hbmPlace s a with
  | some (h, off) =>
    if (stackRec s h).st = .failed then hbmRefused s a 5 q
    else
      let key := hbmKey h (off / 64 * 64)
      let s := { s with hbm := memWrite s.hbm (hbmKey h off) part }
      if poison then poisonStore s h key 0
      else if part.length = 64 then setHbmTag s key 0 false
      else s
  | none => hbmRefused s a 5 q

/-- Bytes written by an engine, sector by sector; `fuel` bounds the sectors. -/
def engineParts (s : State) (q : HbmReq) (a : Nat) (bytes : List Byte) (poison : Bool) : Nat → State
  | 0 => s
  | fuel + 1 =>
    let k := 64 - a % 64
    if bytes.isEmpty then s else engineParts (enginePart s q a (bytes.take k) poison) q (a + k) (bytes.drop k) poison fuel

/-- Bytes written by an engine (R257). -/
def engineWrite (s : State) (q : HbmReq) (a : Nat) (bytes : List Byte) (poison : Bool) : State :=
  engineParts s q a bytes poison (ceilDiv (a % 64 + bytes.length) 64)

/-- Sectors copied by an engine, each with its poison (R258); both addresses are aligned. -/
def engineCopy (s : State) (q : HbmReq) (src dst n : Nat) : State :=
  (List.range (ceilDiv n 64)).foldl (fun s i =>
    let (s, bytes, poison) := engineSector s q (src + 64 * i)
    enginePart s q (dst + 64 * i) bytes poison) s

/-- Whether an engine's access to a range waits for a stack that retrains (R262). -/
def rangeHolds (s : State) (r : Range) : Bool :=
  (List.range 24).any fun h => (stackRec s h).retraining && decide (rangeInStack s h r ≠ 0)

end Sys2Proof.Machine
end

