-- ==== Sys2Proof/Machine/Remote.lean ====
section
/-! DEFINITION. Accesses to whole rows at device addresses: the address classes (R142, R313, R465, R618), field memory (R199, R200) and remote scratchpad rows (R150, R160 to R169). -/
namespace Sys2Proof.Machine
open Sys2Proof

/-- Who makes an access: a tile's site, or none with a master identity; its region, 0xFF for none; the requestor code of R269; and whether an earlier row of its packet was refused (R163). -/
structure Src where
  site : Option Site
  master : Nat
  region : Nat
  req : Nat
  again : Bool
deriving DecidableEq, Repr

/-- A tile as a source. -/
def tileSrc (s : State) (site : Site) : Src := ⟨some site, 0x3FF, (regionOfSite s site.val).getD 0xFF, 0, false⟩

/-- The order engine of a field on behalf of a region. -/
def engineSrc (n r : Nat) : Src := ⟨none, 0x010 + n, r, 1, false⟩

/-- The gang sequencer of a field, which reads for a region's tiles (R138, R160). -/
def sequencerSrc (n r : Nat) : Src := ⟨none, 0x040 + n, r, 0, false⟩

/-- What a device address names. -/
inductive Target where
  | hbm
  | fieldMem (n off : Nat)
  | tile (site : Nat) (row : Nat)
  | fabric
  | nothing
deriving DecidableEq, Repr

/-- Whether the profile in force is the extended one (R309). -/
def profileExtended (s : State) : Bool := decide (dnum s 0x3600 0x02 = 1)

/-- Whether a site is a mapped site of a surplus cluster that a region holds in the extended profile (R313). -/
def surplusSite (s : State) (site : Nat) : Bool :=
  profileExtended s && decide (site < 3072) && clusterOn s (siteCluster site) && siteSurplus s site &&
    (remapIndex s site).isSome && (regionOfSite s site).isSome

/-- The target of a device address (R618). -/
def targetOf (s : State) (a : Nat) : Target :=
  if a < 0x030000000000 then .hbm
  else if 0x100000000000 ≤ a ∧ a ≤ 0x10005FFFFFFF then
    .fieldMem ((a - 0x100000000000) / 0x08000000) ((a - 0x100000000000) % 0x08000000)
  else if 0x200000000000 ≤ a ∧ a < 0x280000000000 then
    let t := (a - 0x200000000000) / 0x400000
    if t < 2700 then
      match siteOfLt s t with
      | some site => .tile site (a / 512 % 8192)
      | none => .nothing
    else .nothing
  else if 0x280000000000 ≤ a ∧ a < 0x300000000000 then
    let x := (a - 0x280000000000) / 0x400000
    if surplusSite s x then .tile x (a / 512 % 8192) else .nothing
  else if 0x400000000000 ≤ a ∧ a < 0x800000000000 then .fabric
  else .nothing

/-- The range of R618 that an address lies in, by number; none where it is unmapped. -/
def addrRange (a : Nat) : Option Nat :=
  if a < 0x030000000000 then some 0
  else if 0x100000000000 ≤ a ∧ a ≤ 0x10005FFFFFFF then some 1
  else if 0x200000000000 ≤ a ∧ a < 0x280000000000 then some 2
  else if 0x280000000000 ≤ a ∧ a < 0x300000000000 then some 3
  else if 0x400000000000 ≤ a ∧ a < 0x800000000000 then some 4
  else if 0xF00000000000 ≤ a ∧ a < 0x1000000000000 then some 5
  else none

/-- Whether the first and last bytes of a span lie in one range of R618. -/
def oneRange (a n : Nat) : Bool :=
  match addrRange a, addrRange (a + n - 1) with
  | some x, some y => decide (x = y)
  | _, _ => false

/-! ## Field memory (R199, R200) -/

def fmOwner (s : State) (n unit : Nat) : Nat := rfld (regGet s (fieldReg n (0x2000 + 4 * unit))) 0 7

/-- Whether a source may read or write a unit (R200); a unit being scrubbed answers no one (R168). -/
def fmAllows (s : State) (n unit : Nat) (src : Src) (write : Bool) : Bool :=
  let o := fmOwner s n unit
  if o < 64 then decide (src.region = o)
  else if o = 0x40 then src.site.isNone && decide (src.region = 0xFF)
  else if o = 0x41 then (if write then decide (src.req = 1) else decide (src.req = 0 ∧ src.region ≠ 0xFF))
  else false

def fmScrubbing (s : State) (n unit : Nat) : Bool := (mget 0 s.fmUnits (n * 128 + unit)).testBit 0

def fmKey (n off : Nat) : Nat := n * 0x08000000 + off

def fmTagAt (s : State) (key sector : Nat) : Bool := majority (mget 0 s.fmemTag (key / 64 + sector))

def setFmTag (s : State) (key sector : Nat) (v : Bool) : State :=
  { s with fmemTag := mset 0 s.fmemTag (key / 64 + sector) (if v then 7 else 0) }

def fmTags (s : State) (key : Nat) : BitVec 8 :=
  (List.range 8).foldl (fun a i => if fmTagAt s key i then a ||| BitVec.ofNat 8 (2 ^ i) else a) 0

/-- FH_FM_ERR_ADDR (R211). -/
def fmErr (s : State) (n row word kind : Nat) : State :=
  regPut s (fieldReg n 0x020) (BitVec.ofNat 32 (row + word * 2 ^ 18 + kind * 2 ^ 24))

/-- A refused row (R200). -/
def fmRefused (s : State) (n row : Nat) : State := fmErr (regAdd s (fieldReg n 0x024) 1) n row 0 1

/-- A field-memory row found to be a repair candidate, logged once: its unit is withheld and appended as a defect (R158, R527). Bit 1 of a unit's mark withholds it. -/
def fmCandidate (s : State) (n row : Nat) : State :=
  if mget 0 s.fmCe (n * 262144 + row) < 5 then
    let s := record { s with fmCe := mset 0 s.fmCe (n * 262144 + row) 5 } 0x0202 0xFF 0xFFFF n (leBytes 4 1 ++ leBytes 4 row)
    let u := n * 128 + row / 2048
    let s := { s with fmUnits := mset 0 s.fmUnits u (mget 0 s.fmUnits u ||| 2) }
    fieldDefect s 7 2 n (row / 2048)
  else s

/-- One word that a read of a field-memory row finds in error (R152, R153, R199). -/
def fmFound (s : State) (n row : Nat) (e : Nat × Bool) : State :=
  if e.2 then
    let s := setFmTag s (fmKey n (row * 512)) (e.1 / 8) true
    let s := fmErr (regAdd s (fieldReg n 0x01C) 1) n row e.1 3
    let s := record s 0x0203 (let o := fmOwner s n (row / 2048); if o < 64 then o else 0xFF) 0xFFFF n
      (leBytes 4 n ++ leBytes 4 row ++ leBytes 4 e.1)
    fmCandidate s n row
  else fmErr (regAdd s (fieldReg n 0x018) 1) n row e.1 2

/-- The errors that a read of a field-memory row finds, with corrected words written back (R151 to R153, R158, R199). -/
def fmEcc (s : State) (n row : Nat) (events : List RowEvent) : State :=
  let key := fmKey n (row * 512) / 512
  let (err, tags) := upsets s.fmemErr s.fmemTag row key events
  let (mem, err, found) := eccWords s.fmem err key
  let err := found.foldl (fun err e => if e.2 then err else mset 0 err (key * 64 + e.1) 0) err
  let s := found.foldl (fun s e => fmFound s n row e) { s with fmem := mem, fmemErr := err, fmemTag := tags }
  if found.any fun e => !e.2 then
    let k := mget 0 s.fmCe (n * 262144 + row)
    if k = 3 then fmCandidate s n row
    else if k < 3 then { s with fmCe := mset 0 s.fmCe (n * 262144 + row) (k + 1) }
    else s
  else s

/-! ## Whole rows at an address -/

/-- A row read's answer: a status of R116 (0, 0x0A or 0x0B), the bytes and the tags. -/
structure RowAns where
  status : Nat
  data : List Byte
  tags : BitVec 8
deriving DecidableEq, Repr

def RowAns.err (st : Nat) : RowAns := ⟨st, [], 0⟩

/-- A remote read of a scratchpad row: unscrubbed and HELD before the windows (R167, R169), then the windows (R162), then the bank (R150). -/
def spadRowRead (s : State) (site row : Nat) (src : Src) (events : List RowEvent) : State × RowAns :=
  let reg := (regionOfSite s site).getD 0xFF
  if (tileOf s site).unscrubbed || siteHeld s site then (s, .err 0x0B)
  else if !windowAllows s site row false (decide (src.region = reg ∧ reg ≠ 0xFF)) then
    (windowRefused s site row src.site (BitVec.ofNat 10 src.master) false (!src.again), .err 0x0A)
  else if !bankServes s site row reqNetwork then (offAccess s site row reqNetwork, .err 0x0B)
  else
    let (s, d, t) := rowRead s site row reqNetwork events
    (s, ⟨0, d, t⟩)

/-- A remote write of a scratchpad row: its status. -/
def spadRowWrite (s : State) (site row : Nat) (src : Src) (events : List RowEvent) (data : List Byte) (tags : BitVec 8) : State × Nat :=
  let reg := (regionOfSite s site).getD 0xFF
  if !windowAllows s site row true (decide (src.region = reg ∧ reg ≠ 0xFF)) then
    (windowRefused s site row src.site (BitVec.ofNat 10 src.master) true (!src.again), 0x0A)
  else if !bankServes s site row reqNetwork then (offAccess s site row reqNetwork, 0x0B)
  else (rowWrite s site row reqNetwork events data tags, 0)

/-- A read of a field-memory row. -/
def fmRowRead (s : State) (n off : Nat) (src : Src) (events : List RowEvent) : State × RowAns :=
  let unit := off / 0x100000
  if fmScrubbing s n unit then (s, .err 0x0B)
  else if !fmAllows s n unit src false then (fmRefused s n (off / 512), .err 0x0B)
  else
    let s := fmEcc s n (off / 512) events
    (s, ⟨0, memRead s.fmem (fmKey n off) 512, fmTags s (fmKey n off)⟩)

/-- A write of a field-memory row. -/
def fmRowWrite (s : State) (n off : Nat) (src : Src) (data : List Byte) (tags : BitVec 8) : State × Nat :=
  let unit := off / 0x100000
  if fmScrubbing s n unit then (s, 0x0B)
  else if !fmAllows s n unit src true then (fmRefused s n (off / 512), 0x0B)
  else
    let s := { s with fmem := memWrite s.fmem (fmKey n off) data, fmemErr := mdrop s.fmemErr (fmKey n off / 8) 64 }
    ((List.range 8).foldl (fun s i => setFmTag s (fmKey n off) i (tags.toNat.testBit i)) s, 0)

def hbmReqOf (src : Src) : HbmReq := ⟨src.req, src.master, src.region⟩

/-- A read of an HBM row (R167, R251, R620). -/
def hbmRowRead (s : State) (a : Nat) (src : Src) (found : HbmFind) : State × RowAns :=
  let q := hbmReqOf src
  if !hbmBacked s a then (hbmRefused s a 5 q, .err 0x0B)
  else if hbmZeroing s a 512 then (hbmRefused s a 6 q, .err 0x0B)
  else match hbmPlace s a with
    | some (h, off) =>
      let (s, d, t) := hbmRead s a h off found q
      (s, ⟨0, d, t⟩)
    | none => (s, .err 0x0B)

/-- A write of sectors of an HBM row. -/
def hbmRowWrite (s : State) (a : Nat) (src : Src) (data : List Byte) (tags : BitVec 8) (found : HbmFind) : State × Nat :=
  let q := hbmReqOf src
  if !hbmBacked s a then (hbmRefused s a 5 q, 0x0B)
  else match hbmPlace s a with
    | some (h, off) => (hbmWrite s a h off data tags found q, 0)
    | none => (s, 0x0B)

/-- A row read at any address of the device; one that is not row-aligned is answered with an error (R142, R199). -/
def rowReadAt (s : State) (a : Nat) (src : Src) (events : List RowEvent) (found : HbmFind) : State × RowAns :=
  if a % 512 ≠ 0 then (s, .err 0x0B)
  else match targetOf s a with
    | .hbm => hbmRowRead s a src found
    | .fieldMem n off => fmRowRead s n off src events
    | .tile site row => spadRowRead s site row src events
    | _ => (s, .err 0x0B)

/-- A row write at any address of the device. -/
def rowWriteAt (s : State) (a : Nat) (src : Src) (events : List RowEvent) (data : List Byte) (tags : BitVec 8) (found : HbmFind) : State × Nat :=
  if a % 512 ≠ 0 then (s, 0x0B)
  else match targetOf s a with
    | .hbm => hbmRowWrite s a src data tags found
    | .fieldMem n off => fmRowWrite s n off src data tags
    | .tile site row => spadRowWrite s site row src events data tags
    | _ => (s, 0x0B)

/-- Rows read one after another; `found` is what the HBM controllers find, row by row. -/
def rowsReadAt (s : State) (src : Src) (events : List RowEvent) : List Nat → List HbmFind → State × List RowAns
  | [], _ => (s, [])
  | a :: as, found =>
    let (s, r) := rowReadAt s a src events (found.headD .clean)
    let (s, rs) := rowsReadAt s src events as found.tail
    (s, r :: rs)

end Sys2Proof.Machine
end

