-- ==== Sys2Proof/Machine/Mma.lean ====
section
/-! DEFINITION. What a matrix pass computes: chunk and block sums, the check column, the verdicts and the fold of an MMA onto one tile (R39 to R46, R54 to R73, R80 to R94, R109 to R111). -/
namespace Sys2Proof.Machine
open Sys2Proof

/-! ## Chunk and block sums (R39 to R44) -/

/-- A magnitude truncated toward zero to a multiple of 2^q (R42). -/
def truncVal (q : Int) : Val → Val
  | .fin s m e => if q ≤ e then .fin s m e else .fin s (m / 2 ^ (q - e).toNat) q
  | v => v

/-- The largest floor(log₂) of the non-zero finite values (R42). -/
def topExp (vs : List Val) : Option Int :=
  vs.foldl (fun a v => match v with
    | .fin _ m e => if m = 0 then a else match a with
      | none => some (floorLog2 m e)
      | some x => some (max x (floorLog2 m e))
    | _ => a) none

/-- The sum of finite products, exact (R40), or aligned to the largest when `bf` (R42). -/
def finiteSum (bf : Bool) (ps : List Val) : Val :=
  let ps := match bf, topExp ps with
    | true, some e => ps.map (truncVal (e - 48))
    | _, _ => ps
  ps.foldl Val.add (.fin false 0 0)

/-- The result of one unit of summation before rounding: special values first (R43), then the sum times 2^x (R41). -/
def unitVal (bf : Bool) (x : Int) (ps : List (Val × Val)) : Val :=
  if ps.any fun p => decide (p.1 = .nan ∨ p.2 = .nan) then .nan
  else
    let prods := ps.map fun p => p.1.mul p.2
    if prods.contains .nan then .nan
    else
      let pinf := prods.contains (.inf false)
      let ninf := prods.contains (.inf true)
      if pinf && ninf then .nan
      else if pinf then .inf false
      else if ninf then .inf true
      else (finiteSum bf prods).scale x

/-- A unit's result as FP32 bits (R40 to R44). -/
def unitBits (bf : Bool) (x : Int) (ps : List (Val × Val)) : Nat := toFP32 (unitVal bf x ps)

/-- A value rounded to FP32. -/
def round32 (v : Val) : Val := ofFP32 (toFP32 v)

/-- A value as a 32-bit two's complement integer. -/
def valInt32 : Val → Nat
  | .fin s m e => ((scaled s m (max e 0) 0) % 2 ^ 32).toNat
  | _ => 0

/-- The value of a 32-bit two's complement integer. -/
def int32Val (w : Nat) : Val := decodeVal (.int 32) w

/-! ## The fold of one tile (R66, R70 to R72) -/

/-- The part of an MMA that one tile runs: its rows of M and the N blocks it holds. -/
structure Fold where
  rows : Nat
  blocks : List Nat
deriving DecidableEq, Repr

/-- The share of a tile (R66; in a gang R71): none for a gang tile whose band does not exist. -/
def foldOf (s : State) (site : Nat) (d : BitVec 128) : Option Fold :=
  let nblk := ceilDiv (mmaN d) 64
  match gangPlace s site with
  | none => some ⟨mmaM d, List.range nblk⟩
  | some (_, g, i) =>
    let t := g.length
    let gn := min t nblk
    let gm := max 1 (t / gn)
    let b := 16 * ceilDiv (mmaM d) (16 * gm)
    let band := i / gn
    if band * b < mmaM d then
      some ⟨min (mmaM d - band * b) b, (List.range nblk).filter fun x => decide (x % gn = i % gn)⟩
    else none

def kChunks (d : BitVec 128) : Nat := ceilDiv (mmaK d) 64

/-- Passes of one weight tile. -/
def passesPerTile (f : Fold) : Nat := ceilDiv f.rows 64

def tilesOf (f : Fold) (d : BitVec 128) : Nat := f.blocks.length * kChunks d

def passesOf (f : Fold) (d : BitVec 128) : Nat := tilesOf f d * passesPerTile f

/-! ## Areas of an MMA (R109 to R111, R118) -/

def wBytes (f : Fold) (d : BitVec 128) : Nat := tilesOf f d * 64 * groupBytes (mmaWfmt d)
def wScaleBytes (f : Fold) (d : BitVec 128) : Nat := if mmaWmx d then tilesOf f d * 128 else 0
def aBytes (f : Fold) (d : BitVec 128) : Nat := kChunks d * f.rows * groupBytes (mmaAfmt d)
def aScaleBytes (f : Fold) (d : BitVec 128) : Nat := if mmaAmx d then kChunks d * f.rows * 2 else 0
def accBytes (f : Fold) : Nat := f.blocks.length * f.rows * 256
/-- E of the output format; INT32 output has that of FP32 (R109). -/
def outGroup (d : BitVec 128) : Nat := groupBytes (mmaOfmt d)
def outBytes (f : Fold) (d : BitVec 128) : Nat := f.blocks.length * f.rows * outGroup d
def wScaleRow (f : Fold) (d : BitVec 128) : Nat := scaleRow (mmaWaddr d) (wBytes f d)
def aScaleRow (f : Fold) (d : BitVec 128) : Nat := scaleRow (mmaAaddr d) (aBytes f d)

/-- The areas of an MMA as first row and bytes: weights and their scales only when local. -/
def mmaReads (f : Fold) (d : BitVec 128) : List (Nat × Nat) :=
  (if mmaWsrc d then [] else [(mmaWaddr d, wBytes f d), (wScaleRow f d, wScaleBytes f d)]) ++
    [(mmaAaddr d, aBytes f d), (aScaleRow f d, aScaleBytes f d)]

/-- Whether no two areas of a list overlap. -/
def disjointAreas : List (Nat × Nat) → Bool
  | [] => true
  | a :: as => as.all (fun b => !areasOverlap a.1 a.2 b.1 b.2) && disjointAreas as

/-- Bytes that a streamed weight matrix takes from its base address, its scales included. -/
def streamBytes (d : BitVec 128) : Nat :=
  let tiles := ceilDiv (mmaN d) 64 * kChunks d
  let data := tiles * 64 * groupBytes (mmaWfmt d)
  if mmaWmx d then ceilDiv data 512 * 512 + tiles * 128 else data

/-- The base address of a streamed MMA (R119). -/
def streamBase (s : State) (site : Nat) (d : BitVec 128) : Nat :=
  (mget 0 (tileOf s site).baseSlots (mmaWaddr d % 16)).toNat

/-- Whether the areas are as R116 and R119 require. -/
def mmaAreas (s : State) (site : Nat) (f : Fold) (d : BitVec 128) : Bool :=
  let acc := (mmaAccaddr d, accBytes f)
  let out := (mmaOutaddr d, outBytes f d)
  let inPlace := decide (mmaOutaddr d = mmaAccaddr d ∧ mmaOfmt d = 0xA)
  let areas := mmaReads f d ++ [acc] ++ (if inPlace then [] else [out])
  let stream := !mmaWsrc d || (decide (streamBase s site d % 512 = 0) && oneRange (streamBase s site d) (streamBytes d))
  areas.all (fun a => areaFits a.1 a.2) && areaFits out.1 out.2 && disjointAreas areas && stream

/-- Whether both operands are unscaled integers (R82, R93). -/
def unscaledInts (d : BitVec 128) : Bool := isIntCode (mmaWfmt d) && isIntCode (mmaAfmt d) && !mmaWmx d && !mmaAmx d

/-- The status of an MMA's head check: on a SUSPECT array ARRAY_PERMANENT, whatever else it fails (R88); else the lowest that applies (R116; log entry 132). -/
def mmaCheck (s : State) (site : Nat) (d : BitVec 128) : Nat :=
  let w := mmaWfmt d
  let a := mmaAfmt d
  let limit := if (gangPlace s site).isSome then 16384 else 1024
  if regBit s (arrayReg site 4) 1 then 0x09
  else if 0xA ≤ w ∨ 0xA ≤ a ∨ 0xA < mmaOfmt d ∨ (mmaWmx d ∧ !mxAllowed w) ∨ (mmaAmx d ∧ !mxAllowed a) ∨
      (mmaInt32 d ∧ (!unscaledInts d ∨ mmaOfmt d ≠ 0xA)) then 0x02
  else if limit < mmaM d ∨ limit < mmaN d ∨ limit < mmaK d then 0x03
  else if (mmaWmx d ∨ mmaAmx d) ∧ mmaK d % 32 ≠ 0 then 0x04
  else if mmaRowchk d ∧ !unscaledInts d then 0x05
  else if !(match foldOf s site d with | some f => mmaAreas s site f d | none => true) then 0x06
  else 0

/-! ## The values of a pass -/

/-- A weight column or an activation row: 64 values, and the scale exponents of its two halves. -/
structure Line where
  vals : List Val
  x0 : Int
  x1 : Int
deriving DecidableEq, Repr

/-- The scale exponent of a block: the MXINT8 factor joins it (R37). -/
def blockExp (code : Nat) (mx : Bool) (scale : Byte) : Int :=
  if mx then (scaleExp scale).getD 0 + (if code = 2 then -6 else 0) else 0

def elemVal (code : Nat) (w : Nat) : Val :=
  match formatOf code with
  | some f => decodeVal f w
  | none => .nan

def elemBits (code : Nat) : Nat := match formatOf code with
  | some f => f.bits
  | none => 8

/-- An element, NaN under a NaN scale (R36), +0 in padding (R67). -/
def lineVal (code : Nat) (mx : Bool) (group : List Byte) (scale : Byte) (real : Bool) (i : Nat) : Val :=
  if !real then .fin false 0 0
  else if mx && decide (scale = 0xFF) then .nan
  else elemVal code (elemAt (elemBits code) group i)

/-- An activation row's 64-element group with its two scale bytes; `kreal` terms are real. -/
def actLine (code : Nat) (mx : Bool) (group scales : List Byte) (kreal : Nat) : Line :=
  let s0 := scales.getD 0 0
  let s1 := scales.getD 1 0
  ⟨(List.range 64).map fun i => lineVal code mx group (if i < 32 then s0 else s1) (decide (i < kreal)) i,
    blockExp code mx s0, blockExp code mx s1⟩

/-- Column c of a weight tile (R110, R111). -/
def weightLine (code : Nat) (mx : Bool) (tile scales : List Byte) (kreal creal c : Nat) : Line :=
  let s0 := scales.getD (2 * c) 0
  let s1 := scales.getD (2 * c + 1) 0
  let e := groupBytes code
  ⟨(List.range 64).map fun r =>
      lineVal code mx (slice tile (r * e) e) (if r < 32 then s0 else s1) (decide (r < kreal ∧ c < creal)) c,
    blockExp code mx s0, blockExp code mx s1⟩

/-- How the drained values of a pass are held: FP32 bits, or 32-bit integers for INT32 output. -/
def drainBits (int32 : Bool) (v : Val) : Nat := if int32 then valInt32 v else toFP32 v

def drainVal (int32 : Bool) (w : Nat) : Val := if int32 then int32Val w else ofFP32 w

/-- The units of one row and column: one chunk, or two blocks (R40 to R42, R57). -/
def cellUnits (mx bf int32 : Bool) (w a : Line) : List Nat :=
  if mx then
    [drainBits int32 (unitVal bf (w.x0 + a.x0) ((w.vals.take 32).zip (a.vals.take 32))),
     drainBits int32 (unitVal bf (w.x1 + a.x1) ((w.vals.drop 32).zip (a.vals.drop 32)))]
  else [drainBits int32 (unitVal bf 0 (w.vals.zip a.vals))]

/-- The physical column of a logical one (R90). -/
def physCol (ctrl : Word32) (c : Nat) : Nat :=
  if rbit ctrl 8 ∧ rfld ctrl 9 7 ≤ 63 ∧ rfld ctrl 9 7 ≤ c then c + 1 else c

/-- Rows, columns and fields of a pass. -/
structure Pass where
  acts : List Line
  cols : List Line
  mx : Bool
  bf : Bool
  int32 : Bool
  ints : Bool
  creal : Nat
deriving DecidableEq, Repr

def sumVals (vs : List Val) : Val := vs.foldl Val.add (.fin false 0 0)

/-- Row sums of the weight tile for the check column (R61, R62): each weight with its block scale, over the real columns. -/
def rowSum (p : Pass) (mag : Bool) (r : Nat) : Val :=
  let vs := (p.cols.take p.creal).map fun w =>
    let v := (w.vals.getD r .nan).scale (if r < 32 then w.x0 else w.x1)
    if mag then v.abs else v
  if p.ints then sumVals vs else round32 (sumVals vs)

/-- The check column's values of one activation row (R80): exact for integer pairs. The rule of the data columns holds for chk; mag is the magnitude sum itself, rounded once. -/
def checkUnits (p : Pass) (sums : List Val) (a : Line) (mag : Bool) : List Val :=
  let av := if mag then a.vals.map Val.abs else a.vals
  let bf := p.bf && !mag
  let rnd (v : Val) := if p.ints then v else round32 v
  if p.mx then
    [rnd (unitVal bf a.x0 ((sums.take 32).zip (av.take 32))), rnd (unitVal bf a.x1 ((sums.drop 32).zip (av.drop 32)))]
  else [rnd (unitVal bf 0 (sums.zip av))]

/-- A value of the check column or of a sum row as a hold buffer keeps it: a 32-bit integer for integer pairs, whose exact values fit, FP32 otherwise. -/
def heldBits (ints : Bool) (v : Val) : Word32 := BitVec.ofNat 32 (if ints then valInt32 v else toFP32 v)

def heldVal (ints : Bool) (w : Word32) : Val := if ints then int32Val w.toNat else ofFP32 w.toNat

/-- The exact column results of a pass's sum row (R94). -/
def sumRow (p : Pass) : List Word32 :=
  let row := (List.range 64).map fun r => sumVals (p.acts.map fun a => a.vals.getD r .nan)
  (p.cols.take p.creal).map fun w => heldBits p.ints (unitVal false 0 (w.vals.zip row))

/-- What a pass leaves in its hold buffer (R59, R80, R85, R94). -/
def passHold (p : Pass) (n : Nat) (rowchk : Bool) : HeldPass :=
  let sums := (List.range 64).map (rowSum p false)
  let msums := (List.range 64).map (rowSum p true)
  { pass := n
    rows := p.acts.map fun a =>
      ((p.cols.take p.creal).map fun w => (cellUnits p.mx p.bf p.int32 w a).map (BitVec.ofNat 32)) ++
        [(checkUnits p sums a false).map (heldBits p.ints)]
    mags := p.acts.flatMap fun a => (checkUnits p msums a true).map (heldBits p.ints)
    sumRow := if rowchk then sumRow p else [] }

/-- The XOR that the faults of a pass put on one drained value: column by its physical place. -/
def faultXor (faults : List CellFault) (row col half : Nat) : Word32 :=
  faults.foldl (fun a f => if f.row.val = row ∧ f.col.val = col ∧ f.half.val = half then a ^^^ f.flip else a) 0

/-- A pass's held values with the faults of its run: `place` gives each real column's physical one; the check column is 64 and the sum row is row 64. -/
def corrupted (h : HeldPass) (creal : Nat) (place : Nat → Nat) (faults : List CellFault) : HeldPass :=
  { h with
    rows := h.rows.zipIdx.map fun (row, m) => row.zipIdx.map fun (us, c) =>
      us.zipIdx.map fun (v, k) => v ^^^ faultXor faults m (if c < creal then place c else 64) k
    sumRow := h.sumRow.zipIdx.map fun (v, c) => v ^^^ faultXor faults 64 (place c) 0 }

/-- The drained values of the real columns, row by row. -/
def heldColumns (h : HeldPass) (creal : Nat) : List (List (List Word32)) := h.rows.map (·.take creal)

inductive Verdict where
  | agree | disagree | skipped
deriving DecidableEq, Repr

/-- The column check of a pass (R81 to R84). -/
def columnVerdict (int32 ints : Bool) (creal : Nat) (h : HeldPass) : Verdict :=
  let results := (heldColumns h creal).flatMap fun row => row.flatMap fun c => c.map fun w => drainVal int32 w.toNat
  let chks := h.rows.flatMap fun row => (row.getD creal []).map (heldVal ints)
  let tout := sumVals results
  let tchk := sumVals chks
  if (results ++ chks).any (fun v => !v.isFinite) || !tout.isFinite || !tchk.isFinite then .skipped
  else if ints then (if (tout.add tchk.neg).isZero then .agree else .disagree)
  else
    let u := round32 (sumVals (h.mags.map (heldVal false)))
    let d := round32 (tout.add tchk.neg).abs
    if !u.isFinite || !d.isFinite then .skipped
    else if d.le (round32 ((u.scale (-20)).add (.fin false 1 (-126)))) then .agree else .disagree

/-- The row check of a pass (R94): the sum row's exact column results against the drained ones, over the real columns (log entry 133). -/
def rowVerdict (int32 : Bool) (creal : Nat) (h : HeldPass) : Bool :=
  h.sumRow.zipIdx.all fun (w, c) =>
    let want := sumVals ((heldColumns h creal).flatMap fun row => (row.getD c []).map fun v => drainVal int32 v.toNat)
    ((heldVal true w).add want.neg).isZero

end Sys2Proof.Machine
end

