-- ==== Sys2Proof/Machine/Kv.lean ====
section
/-! DEFINITION. Hoods and their manifests, page-table entries, and KV pages: their slots, and what the Fuller stores and expands (R47, R48, R52, R272, R289 to R293). -/
namespace Sys2Proof.Machine
open Sys2Proof

/-! ## Hoods and their manifests (R272, R274) -/

def HoodRec.none : HoodRec :=
  { state := 0, request := [], base := 0, len := 0, image := [], signer := 0, sigResult := 0, qp := Option.none, partnerBad := false }

def AdapterRec.none : AdapterRec := { state := 0, hood := 0, base := 0, len := 0, image := [], request := [], qp := Option.none }

def hoodOf (s : State) (id : Nat) : HoodRec := mget HoodRec.none s.hoods id
def setHood (s : State) (id : Nat) (h : HoodRec) : State := { s with hoods := mset HoodRec.none s.hoods id h }
def adapterOf (s : State) (id : Nat) : AdapterRec := mget AdapterRec.none s.adapters id
def setAdapter (s : State) (id : Nat) (a : AdapterRec) : State := { s with adapters := mset AdapterRec.none s.adapters id a }

/-- Whether a hood is loaded. -/
def hoodLoaded (s : State) (id : Nat) : Bool := decide ((hoodOf s id).state = 2)

def mfKind (m : List Byte) : Nat := leAt m 6 1
def mfResidency (m : List Byte) : Nat := leAt m 7 1
def mfGrain (m : List Byte) : Nat := leAt m 8 1
def mfKvFormat (m : List Byte) : Nat := leAt m 9 1
def mfChecked (m : List Byte) : Bool := (leAt m 10 1).testBit 0
def mfBankMask (m : List Byte) : Nat := leAt m 11 1
def mfClusters (m : List Byte) : Nat := leAt m 12 2
def mfArgRow (m : List Byte) : Nat := leAt m 14 2
def mfImemBytes (m : List Byte) : Nat := leAt m 16 4
def mfVocab (m : List Byte) : Nat := leAt m 20 4
def mfContext (m : List Byte) : Nat := leAt m 24 4
def mfKvBytes (m : List Byte) : Nat := leAt m 28 4
def mfEmbed (m : List Byte) : Nat := leAt m 32 4
def mfPinned (m : List Byte) : Nat := leAt m 36 4
def mfWeights (m : List Byte) : Nat := leAt m 40 8
def mfBase (m : List Byte) : List Byte := slice m 48 32

/-- Offset, length and digest of section k of the table: 0 IMEM, 1 windows, 2 multicast, 3 adapter map, 4 weights, 5 signature. -/
def mfSection (m : List Byte) (k : Nat) : Nat × Nat × List Byte := (leAt m (80 + 48 * k) 8, leAt m (88 + 48 * k) 8, slice m (96 + 48 * k) 32)

def sectionBytes (image : List Byte) (k : Nat) : List Byte :=
  let (o, n, _) := mfSection image k
  slice image o n

/-- The manifest of a hood. -/
def manifest (s : State) (id : Nat) : List Byte := (hoodOf s id).image.take 4096

/-- The hood that a work-order record names (R295). -/
def recHood (b : List Byte) : Nat := leAt b 8 2

/-! ## Page-table entries (R293) -/

/-- Whether a page-table entry is mapped SHARED (R293). -/
def peShared (e : BitVec 64) : Bool := e.toNat.testBit 50
def peOpen (e : BitVec 64) : Bool := e.toNat.testBit 49
def peValid (e : BitVec 64) : Bool := e.toNat.testBit 48
def peAddr (e : BitVec 64) : Nat := e.toNat % 2 ^ 48
def peMake (fmt : Nat) (shared opened : Bool) (addr : Nat) : BitVec 64 :=
  BitVec.ofNat 64 (addr + 2 ^ 48 + boolNat opened * 2 ^ 49 + boolNat shared * 2 ^ 50 + fmt * 2 ^ 52)

/-! ## KV slots (R289) -/

/-- Elements of one token's keys and values: the stored bytes without the scale that each 32 of them have. -/
def kvElems (m : List Byte) : Nat :=
  let b := mfKvBytes m
  match mfKvFormat m with
  | 8 => b / 2
  | 4 => b / 25 * 32
  | 5 => b / 25 * 32
  | 6 => b / 33 * 32
  | 7 => b / 33 * 32
  | _ => 0

/-- Bytes of an open slot: 64 tokens in BF16. -/
def openSlot (m : List Byte) : Nat := 64 * (2 * kvElems m)

/-- Bytes of a stored page's slot: 64 tokens, rounded up to 4 KiB. -/
def storedSlot (m : List Byte) : Nat := ceilDiv (64 * mfKvBytes m) 4096 * 4096

/-! ## The Fuller (R47, R48, R52, R290, R292)

A page, open or stored, holds the 64 × 64 weight tiles of R110 that its keys and values become: 64 elements of 64 tokens each, a key tile's rows being elements and a value tile's tokens, so that each of R290's blocks is half a column, whose scale R111 places. Behind a stored page's tiles stands its scale area (log entry 147). -/

/-- Tiles of a page. -/
def kvTiles (m : List Byte) : Nat := kvElems m / 64

/-- Bytes of a tile of a page in BF16. -/
def openTile : Nat := 8192

/-- Bytes of a stored tile without its scales. -/
def storedTile (m : List Byte) : Nat := 64 * groupBytes (mfKvFormat m)

/-- Half a column of an open tile: a block of R290. -/
def openBlock (tile : List Byte) (c h : Nat) : List Val :=
  (List.range 32).map fun r => elemVal 8 (elemAt 16 (slice tile (128 * (32 * h + r)) 128) c)

/-- A block as the Fuller stores it: its scale byte and its elements (R52). -/
def fullerBlock (code : Nat) (f : Format) (vs : List Val) : Byte × List Nat :=
  match mxScale code vs with
  | none => (0xFF, vs.map fun _ => 0)
  | some x => (BitVec.ofNat 8 (x + 127).toNat, vs.map fun v => (mxConvert code f true .nearest x v).bits)

/-- A tile converted to an MX format: its bytes under R110, and its scales under R111. -/
def fullerTile (code : Nat) (tile : List Byte) : List Byte × List Byte :=
  match formatOf code with
  | none => (tile, [])
  | some f =>
    let blocks := (List.range 128).map fun k => fullerBlock code f (openBlock tile (k / 2) (k % 2))
    ((List.range 64).flatMap fun r => packElems f.bits ((List.range 64).map fun c => (blocks.getD (2 * c + r / 32) (0, [])).2.getD (r % 32) 0),
     blocks.map (·.1))

/-- A stored tile expanded to BF16, each element from its scaled value (R292). -/
def fullerOpen (code : Nat) (tile scales : List Byte) : List Byte :=
  match formatOf 8 with
  | none => tile
  | some f =>
    let cols := (List.range 64).map fun c => weightLine code true tile scales 64 64 c
    (List.range 64).flatMap fun r => packElems 16 (cols.map fun l =>
      (convert f true .nearest ((l.vals.getD r .nan).scale (if r < 32 then l.x0 else l.x1))).bits)

/-- The slot of the stored page that an address lies in, with the manifest of its order's hood. -/
def storedPage (s : State) (a : Nat) : Option (Nat × List Byte) :=
  s.orders.findSome? fun o =>
    let m := manifest s (recHood o.record)
    (o.pages.find? fun p => peValid p.2 && !peOpen p.2 && decide (peAddr p.2 ≤ a ∧ a < peAddr p.2 + storedSlot m)).map fun p => (peAddr p.2, m)

/-- The HBM rows of tile i of a stored page: its data, and the row of its scales with their offset in it. -/
def storedRows (slot : Nat) (m : List Byte) (i : Nat) : List Nat × Nat :=
  let n := storedTile m
  let scales := slot + kvTiles m * n + 128 * i
  ((List.range (n / 512)).map (fun k => slot + i * n + 512 * k) ++ [scales / 512 * 512], scales % 512)

end Sys2Proof.Machine
end

