-- ==== Sys2Proof/Machine/Net.lean ====
section
/-! DEFINITION. The on-die network and the relay's sending side: mesh coordinates, route walks, packets in flight and their order (R175 to R197, R208 to R210, R495 to R500). -/
namespace Sys2Proof.Machine
open Sys2Proof

/-! ## Mesh coordinates (R175) -/

def meshCol (site : Nat) : Nat := 16 * (site / 256 % 3) + 4 * (site / 16 % 16 % 4) + site % 16 % 4
def meshRow (site : Nat) : Nat := 16 * (site / 256 / 3) + 4 * (site / 16 % 16 / 4) + site % 16 / 4

/-- The site at a mesh column and row. -/
def siteAt (col row : Nat) : Nat :=
  let n := col / 16 + 3 * (row / 16)
  let m := col % 16 / 4 + 4 * (row % 16 / 4)
  256 * n + 16 * m + (col % 4 + 4 * (row % 4))

/-- The neighbour through port N, E, S or W: north is one row lower (log entry 20). -/
def meshNeighbour (site port : Nat) : Option Nat :=
  let c := meshCol site
  let r := meshRow site
  if port = 0 then (if 0 < r then some (siteAt c (r - 1)) else none)
  else if port = 1 then (if c + 1 < 48 then some (siteAt (c + 1) r) else none)
  else if port = 2 then (if r + 1 < 64 then some (siteAt c (r + 1)) else none)
  else if port = 3 then (if 0 < c then some (siteAt (c - 1) r) else none)
  else none

/-- The k of R210 for a destination cluster seen from a site: 0 its own, 1 to 4 the north, east, south and west neighbours. -/
def routeK (site dst : Nat) : Option Nat :=
  let c := meshCol site / 4
  let r := meshRow site / 4
  let c' := meshCol dst / 4
  let r' := meshRow dst / 4
  if c = c' ∧ r = r' then some 0
  else if c = c' ∧ r' + 1 = r then some 1
  else if r = r' ∧ c + 1 = c' then some 2
  else if c = c' ∧ r + 1 = r' then some 3
  else if r = r' ∧ c' + 1 = c then some 4
  else none

def routeEntry (s : State) (site dst : Nat) : Option Word32 :=
  (routeK site dst).map fun k => regGet s (netReg site (0x100 + 4 * (16 * k + dst % 16)))

def portDead (s : State) (site port : Nat) : Bool := regBit s (netReg site 4) (if port = 5 then 4 else port)

/-- Whether a site's router counts as dead: it is bad for its cluster's remap (R193). -/
def routerDead (s : State) (site : Nat) : Bool := regBit s (hubReg (siteCluster site) 0x00C) (site % 16)

/-! ## Paths -/

/-- A path: the routers it passes, the cluster hubs it uses with whether it enters the crossbar there, and the field crossbars it passes; or why it does not lead on. -/
inductive Path where
  | ok (sites : List Nat) (hubs : List (Nat × Bool)) (fields : List Nat)
  | blocked
  | error
deriving DecidableEq, Repr

/-- A path of routers continued behind one more. -/
def Path.behind (site : Nat) : Path → Path
  | .ok ss hs fs => .ok (site :: ss) hs fs
  | p => p

/-- The walk of the route tables from a site to another of its cluster or an adjacent one (R191, R210). -/
def tableWalk (s : State) : Nat → Nat → Nat → Path
  | 0, _, _ => .blocked
  | f + 1, site, dst =>
    if !regBit s (netReg site 0) 0 then .blocked
    else if site = dst then .ok [site] [] []
    else match routeEntry s site dst with
      | none => .error
      | some e =>
        if !rbit e 3 then .error
        else if portDead s site (rfld e 0 3) then .blocked
        else match meshNeighbour site (rfld e 0 3) with
          | none => .blocked
          | some x => (tableWalk s f x dst).behind site

/-- The productive ports of a site toward another that VC2 may take: along the row, then along the column, without a dead port or a router that counts as dead (R192, R193). -/
def productive (s : State) (site dst : Nat) : List Nat :=
  let h := if meshCol site < meshCol dst then [1] else if meshCol dst < meshCol site then [3] else []
  let v := if meshRow site < meshRow dst then [2] else if meshRow dst < meshRow site then [0] else []
  (h ++ v).filter fun p => !portDead s site p && (match meshNeighbour site p with
    | some x => decide (x = dst) || !routerDead s x
    | none => false)

/-- The adaptive walk of VC2 (R192): where two productive ports are open, the one with more free credits, which bit 0 of `credits` says is the column's. -/
def adaptWalk (s : State) : Nat → Nat → Nat → Nat → Path
  | 0, _, _, _ => .blocked
  | f + 1, site, dst, credits =>
    if !regBit s (netReg site 0) 0 then .blocked
    else if site = dst then .ok [site] [] []
    else
      let pick := match productive s site dst with
        | [] => none
        | [p] => some p
        | p :: q :: _ => some (if credits % 2 = 1 then q else p)
      match pick with
      | none => .blocked
      | some p => match meshNeighbour site p with
        | none => .blocked
        | some x => (adaptWalk s f x dst (credits / 2)).behind site

/-- The attach sites of a quadrant, its own first and then the one beside it in the row (R177, R194). -/
def attachSites (site : Nat) : List Nat :=
  let b := site / 16 * 16
  let k := site % 16
  let left := decide (k % 4 < 2)
  if k / 4 < 2 then (if left then [b + 5, b + 6] else [b + 6, b + 5])
  else if left then [b + 9, b + 10] else [b + 10, b + 9]

/-- The attach site that serves a site's quadrant: its own, or the one beside it once the tables count its own as dead (R177, R194, R197). -/
def attachOf (s : State) (site : Nat) : Nat :=
  match attachSites site with
  | [a, b] => if routerDead s a || (tileOf s a).attachMoved then b else a
  | _ => site

/-- The way between a site and its cluster hub; a hub port that went down holds its packets until the tables change. -/
def hubWay (s : State) (site : Nat) (out : Bool) : Path :=
  let a := attachOf s site
  if portDead s a 5 then Path.blocked
  else match (if out then tableWalk s 12 site a else tableWalk s 12 a site) with
    | .ok ss _ _ => .ok ss [(siteCluster site, out)] []
    | p => p

/-- The tables that were rewritten for a router take effect, and a quadrant leaves an attach site whose hub port is dead (R194, R197, R210). -/
def routesTaken (s : State) (site : Nat) : State :=
  let s := (tileOf s site).rtPending.foldl (fun s (off, v) => regPut s (netReg site off) v) s
  modTile s site fun t => { t with rtPending := [], attachMoved := t.attachMoved || portDead s site 5 }

/-- Whether a path uses the mesh alone: one cluster, or two adjacent clusters of one region (R179). -/
def meshClass (s : State) (a b : Nat) : Bool :=
  decide (siteCluster a = siteCluster b) ||
    ((routeK a b).isSome && decide (regionOfSite s a = regionOfSite s b) && (regionOfSite s a).isSome)

/-- An end of a path: a tile, a cluster's hub, or a block behind a field's crossbar. -/
inductive NetEnd where
  | tile (site : Nat)
  | hub (c : Nat)
  | field (n : Nat)
deriving DecidableEq, Repr

def joinPaths : Path → Path → Path
  | .ok a b c, .ok a' b' c' => .ok (a ++ a') (b ++ b') (c ++ c')
  | .error, _ => .error
  | _, .error => .error
  | _, _ => .blocked

/-! ### Field crossbars and seam trunks (R179, R198) -/

/-- The trunk port N, E, S or W of field n that leads to an adjacent field. -/
def trunkTo (n n' : Nat) : Option Nat :=
  if n' + 3 = n then some 0
  else if n' = n + 1 ∧ n % 3 ≠ 2 then some 1
  else if n' = n + 3 then some 2
  else if n' + 1 = n ∧ n % 3 ≠ 0 then some 3
  else none

/-- The lanes up on a trunk of a field, one bit each (R211). -/
def trunkLanes (s : State) (n t : Nat) : Nat :=
  (List.range 8).countP fun i => (rfld (regGet s (fieldReg n 0x010)) (8 * t) 8).testBit i

/-- Whether the trunk between two adjacent fields carries traffic: four lanes or more at both ends (R198). -/
def trunkUp (s : State) (n n' : Nat) : Bool :=
  match trunkTo n n', trunkTo n' n with
  | some t, some t' => decide (4 ≤ trunkLanes s n t ∧ 4 ≤ trunkLanes s n' t')
  | _, _ => false

/-- The fields from a to b, both included: along the row of the field grid and then along the column, or the column first. -/
def fieldSteps (rowFirst : Bool) : Nat → Nat → Nat → List Nat
  | 0, a, _ => [a]
  | f + 1, a, b =>
    let row := if a % 3 < b % 3 then some (a + 1) else if b % 3 < a % 3 then some (a - 1) else none
    let col := if a / 3 < b / 3 then some (a + 3) else if b / 3 < a / 3 then some (a - 3) else none
    match (if rowFirst then row.or col else col.or row) with
    | some n => a :: fieldSteps rowFirst f n b
    | none => [a]

def trunksUp (s : State) : List Nat → Bool
  | a :: b :: rest => trunkUp s a b && trunksUp s (b :: rest)
  | _ => true

/-- The crossbars between two fields: the row before the column, and the column before the row where a trunk of the first way is DOWN (R179, R198). -/
def crossWay (s : State) (a b : Nat) : Path :=
  let first := fieldSteps true 6 a b
  if trunksUp s first then .ok [] [] first
  else
    let other := fieldSteps false 6 a b
    if trunksUp s other then .ok [] [] other else .blocked

/-- Whether a field's hub, crossbar and memory are up: while either of the field's two zones is (R374). Paths through one that is not block (DEDUCED, log entry 163). -/
def fieldFed (s : State) (n : Nat) : Bool := [2 * n, 2 * n + 1].any fun z => !(zoneRec s z).fuseOpen && !(zoneRec s z).inputFault

/-- Whether a field's crossbar carries traffic: fed and enabled (R211, R374). -/
def fieldRuns (s : State) (n : Nat) : Bool := regBit s (fieldReg n 0) 0 && fieldFed s n

/-- A path through hubs and crossbars leads on while each of them is enabled (R211, R374, R474, R476). -/
def hubsForward (s : State) (p : Path) : Path :=
  match p with
  | .ok ss hs fs =>
    if (hs.all fun c => regBit s (hubReg c.1 0) 0) && fs.all (fieldRuns s) then .ok ss hs fs else .blocked
  | p => p

/-- Whether the tables send a mesh-class pair through the hub (R193): a valid entry with the hub port. -/
def viaHub (s : State) (x y : Nat) : Bool :=
  match routeEntry s x y with
  | some e => rbit e 3 && decide (rfld e 0 3 = 5)
  | none => false

/-- The field behind whose crossbar an end lies. -/
def NetEnd.fieldOf : NetEnd → Nat
  | .tile x => siteField x
  | .hub c => clusterField c
  | .field n => n

/-- The way between an end and its field's crossbar. -/
def endWay (s : State) (e : NetEnd) (out : Bool) : Path :=
  match e with
  | .tile x => hubWay s x out
  | .hub c => .ok [] [(c, out)] []
  | .field _ => .ok [] [] []

/-- The way of classes F and X, and of a multicast's tree toward one target: through hubs and crossbars (R179, R201). -/
def farWay (s : State) (a b : NetEnd) : Path :=
  hubsForward s (joinPaths (joinPaths (endWay s a true) (crossWay s a.fieldOf b.fieldOf)) (endWay s b false))

/-- The path of a packet from one end to another on a virtual channel (R179, R191 to R194). -/
def pathOf (s : State) (vc : Nat) (credits : Nat) (a b : NetEnd) : Path :=
  match a, b with
  | .tile x, .tile y =>
    if meshClass s x y && !viaHub s x y then (if vc = 2 then adaptWalk s 24 x y credits else tableWalk s 24 x y)
    else farWay s a b
  | _, _ => farWay s a b

/-- Counts flits along parts of a path: each router receives and sends them, and a hub passes them to or from the crossbar. -/
def countPath (s : State) (p : Path) (flits : Nat) : State :=
  match p with
  | .ok ss hs _ =>
    let s := ss.foldl (fun s x => reg64Add (reg64Add s (netReg x 0x010) flits) (netReg x 0x018) flits) s
    hs.foldl (fun s h => reg64Add s (hubReg h.1 (if h.2 then 0x050 else 0x058)) flits) s
  | _ => s

/-! ### Slip and slides (R354, R355) -/

/-- The stretch of a receiver that is `d` quarters behind its sender: edges of 25%, 50% or 100%, the smallest that covers what remains. -/
def slipGrowth (d : Nat) : Nat := d / 4 * 4 + ([0, 1, 2, 4] : List Nat).getD (d % 4) 0

/-- A crossing from one tile into the next: the receiver stretches while the sender's slip count exceeds its own. -/
def slipMatch (s : State) (a b : Nat) : State :=
  let g := slipGrowth ((tileOf s a).slip - (tileOf s b).slip)
  if g = 0 then s else modTile s b fun t => { t with slip := t.slip + g, stretched := t.stretched + g }

/-- The crossings along a way of routers. -/
def slipAlong (s : State) : List Nat → State
  | a :: b :: rest => slipAlong (slipMatch s a b) (b :: rest)
  | _ => s

/-- The crossings of a way's flits, and of the credits that come back. -/
def slipWay (s : State) (ss : List Nat) : State := slipAlong (slipAlong s ss) ss.reverse

/-- The ports and hubs that a path passes, by number: cluster hubs, the crossbar's ports to them and to its trunks, and field hubs. -/
def pathDomains (hs : List (Nat × Bool)) (fs : List Nat) : List Nat :=
  (hs.flatMap fun h => [h.1, 200 + 40 * clusterField h.1 + h.1 % 16]) ++
    ((fs.zip fs.tail).filterMap fun p => (trunkTo p.1 p.2).map fun t => 200 + 40 * p.1 + 35 + t) ++ fs.map (1000 + ·)

/-- A region's slide in a domain that takes a flit `late` of its cycles after its slot, and what the flit is late behind it. -/
def slideTo (s : State) (r d late : Nat) : State × Nat :=
  let v := max late (mget 0 s.slides (64 * d + r))
  ({ s with slides := mset 0 s.slides (64 * d + r) v }, v)

/-- The domain that holds a device address, with its clock in MHz: a field-memory slice or an HBM controller (R352). -/
def blockDomain (s : State) (a : Nat) : Option (Nat × Nat) :=
  match targetOf s a with
  | .fieldMem n _ => some (1100 + n, 2000)
  | .hbm => (hbmPlace s a).map fun p => (1200 + p.1, if dnum s (0x4000 + p.1) 0x02 = 9600 then 2400 else 1600)
  | _ => none

/-- A path crossed by a flit of region r, or of the device class: tiles match slips, and every hub, port and controller on it slides by what the flit is late (R354, R355; log entry 110). -/
def crossPath (s : State) (r : Option Nat) (p : Path) (block : Option (Nat × Nat)) : State :=
  match p with
  | .ok ss [] _ => slipWay s ss
  | .ok ss hs fs =>
    let (outs, ins) := match hs with
      | (c, true) :: _ => (ss.takeWhile fun x => decide (siteCluster x = c), ss.dropWhile fun x => decide (siteCluster x = c))
      | _ => ([], ss)
    let s := slipWay s outs
    let late := match outs.getLast? with
      | some x => ceilDiv ((tileOf s x).slip * 2000) (4 * clusterMHz s (siteCluster x))
      | none => 0
    let s := match r with
      | none => s
      | some r =>
        let (s, late) := (pathDomains hs fs).foldl (fun (a : State × Nat) d => slideTo a.1 r d a.2) (s, late)
        match block with
        | some (d, mhz) => (slideTo s r d (ceilDiv (late * mhz) 2000)).1
        | none => s
    slipWay s ins
  | _ => s

/-- The region whose traffic a source's packets on a virtual channel are; VC0 is the device's (R183, R355). -/
def trafficRegion (s : State) (source : Option Site) (vc : Nat) : Option Nat :=
  if vc = 0 then none else source.bind fun x => regionOfSite s x

/-- The flit slots that a VC0 flit waited at each router of its path: at most 15 at a link (R189, R190), otherwise open, so free values (log entry 137). -/
def vc0Waits (s : State) (p : Path) : State :=
  match p with
  | .ok ss _ _ => ss.foldl (fun s x =>
      let (w, s) := freeWord s
      regAdd s (netReg x 0x020) (w.toNat % 16)) s
  | _ => s

/-! ## Packets -/

/-- What a packet's address leads to, for the order of arrivals: the same tile, field memory, stack field or barrier unit. -/
def destKey (s : State) (a : Nat) : Nat × Nat :=
  match targetOf s a with
  | .tile site _ => (1, site)
  | .fieldMem n _ => (2, n)
  | .hbm => (3, match hbmPlace s a with
    | some (h, _) => h
    | none => 24)
  | _ => (4, a / 0x400000)

/-- A packet injected: it takes its number and turn, and on VC2 the credits it will meet, a free value (R192). -/
def sendPacket (s : State) (p : Packet) : State :=
  let (w, s) := if p.vc = 2 then freeWord s else (0, s)
  { s with net := s.net ++ [{ p with order := s.netSeq, turn := s.netSeq, credits := w }], netSeq := s.netSeq + 1 }

def findPacket (s : State) (n : Nat) : Option Packet := s.net.find? fun p => decide (p.order = n)

def dropPacket (s : State) (n : Nat) : State := { s with net := s.net.filter fun p => decide (p.order ≠ n) }

def isAnswer (p : Packet) : Bool := match p.kind with
  | .answer _ _ _ => true
  | _ => false

/-- Whether no earlier packet of the same source, channel and destination is still on its way (R195, R207, R213): VC1 and VC3 keep the order of sending, on VC1 unicasts and multicasts each their own; the answers of one target to one source are of one source and one destination. -/
def packetFirst (s : State) (p : Packet) : Bool :=
  decide (p.vc ≠ 1 ∧ p.vc ≠ 3) ||
    s.net.all fun q => !(decide (q.turn < p.turn ∧ q.vc = p.vc ∧ q.source = p.source ∧ q.master = p.master) &&
      decide (isAnswer q = isAnswer p) && (isAnswer p || decide (q.mcast = p.mcast)) && decide (destKey s q.addr = destKey s p.addr))

/-- A packet replaced by its answer on VC3, sent now. -/
def answerPacket (s : State) (p : Packet) (r : RowAns) : State :=
  { s with net := s.net.map fun q => if q.order = p.order then { q with vc := 3, turn := s.netSeq, kind := .answer (BitVec.ofNat 8 r.status) r.data r.tags } else q
           netSeq := s.netSeq + 1 }

/-- The end of the path where a packet's address lies. -/
def addrEnd (s : State) (a : Nat) : NetEnd :=
  match targetOf s a with
  | .tile site _ => .tile site
  | .fieldMem n _ => .field n
  | .hbm => .field (match hbmPlace s a with
    | some (h, _) => stackField h
    | none => 0)
  | _ => .field 0

/-- The path that a packet is on: out to its address, a multicast's along its tree, or for an answer back to its source. -/
def packetPath (s : State) (p : Packet) : Path :=
  let far := addrEnd s p.addr
  let near := match p.source with
    | some x => NetEnd.tile x.val
    | none => NetEnd.field 0
  if isAnswer p then pathOf s 3 0 far near
  else if p.mcast then farWay s near far
  else pathOf s p.vc p.credits.toNat near far

def Path.open : Path → Bool
  | .ok _ _ _ => true
  | .error => true
  | .blocked => false

/-! ## The relay's sending side (R495 to R500) -/

def fabricId (s : State) : Nat := dnum s 0x4400 0x20

/-- The route of a destination: the primary port, the alternate one, and whether the entry is valid (R498). -/
def fabricRoute (s : State) (dst : Nat) : Nat × Nat × Bool :=
  let w := leAt (dget s 0x4400 0x21) (2 * dst) 2
  (fld w 0 5, fld w 5 5, w.testBit 15)

/-- Whether a link carries packets: UP or DEGRADED. -/
def linkUsable (s : State) (i : Nat) : Bool := decide (i < 18 ∧ ((linkOf s i).st = 2 ∨ (linkOf s i).st = 3))

/-- The port that a packet to a destination takes: its primary, else its alternate (R499); the device's own identifier is the local port 18. -/
def relayPort (s : State) (dst : Nat) : Option Nat :=
  if dst = fabricId s ∧ fabricId s < 1024 then some 18
  else
    let (a, b, v) := fabricRoute s dst
    if !v then none else if linkUsable s a then some a else if linkUsable s b then some b else none

/-! ### A port and its credits (R495 to R497) -/

/-- The 64-byte units that a packet takes. -/
def packetUnits (p : FabPacket) : Nat := 1 + ceilDiv p.payload.length 64

/-- The virtual channel of a packet. -/
def packetVc (p : FabPacket) : Nat := p.channel.toNat % 4

/-- The credits that the next hop grants to a virtual channel (R497). -/
def vcGrant (vc : Nat) : Nat := ([64, 512, 512, 256] : List Nat).getD vc 0

/-- The credits left to a virtual channel: those of a packet come back when it is acknowledged (DEDUCED, log entry 155). -/
def creditsLeft (l : Link) (vc : Nat) : Nat :=
  vcGrant vc - ((l.replay.filter fun p => decide (packetVc p.1 = vc)).map fun p => packetUnits p.1).foldl (· + ·) 0

/-- Whether a packet may be sent: a place in the replay buffer, and credits for its whole length. -/
def portReady (l : Link) (p : FabPacket) : Bool := decide (l.replay.length < 64 ∧ packetUnits p ≤ creditsLeft l (packetVc p))

/-- The oldest waiting packet of a virtual channel, where it may be sent. -/
def vcHead (l : Link) (vc : Nat) : Option FabPacket := match l.queue.find? fun p => decide (packetVc p = vc) with
  | some p => if portReady l p then some p else none
  | none => none

/-- The packet that a port sends next: VC0 before VC3, and VC1 and VC2 in turn (R497). -/
def portPick (l : Link) : Option FabPacket :=
  (vcHead l 0).or ((vcHead l 3).or (if l.turn2 then (vcHead l 2).or (vcHead l 1) else (vcHead l 1).or (vcHead l 2)))

/-- A packet leaves its queue for the link: it takes the link's next sequence number, the first being 1, carries the highest one received in order, and stays in the replay buffer until it is acknowledged (R495, R496). -/
def portSend (s : State) (i : Nat) (p : FabPacket) : State :=
  let l := linkOf s i
  let q := { p with linkSeq := (l.sendSeq + 1) % 2 ^ 32, linkAck := l.expectSeq }
  let turn := if packetVc p = 1 then true else if packetVc p = 2 then false else l.turn2
  let s := setLink s i { l with queue := l.queue.erase p, replay := l.replay ++ [(q, now s)], sendSeq := (l.sendSeq + 1) % 2 ^ 32, turn2 := turn }
  emit (dcount s (0x4400 + i) 0x0B 8 1) (.fabric i q)

/-- A link that carries packets sends what may be sent, at most n packets. -/
def portDrain (i : Nat) : Nat → State → State
  | 0, s => s
  | n + 1, s => if !linkUsable s i then s else match portPick (linkOf s i) with
    | some p => portDrain i n (portSend s i p)
    | none => s

def drainPort (s : State) (i : Nat) : State := portDrain i (linkOf s i).queue.length s

/-- A packet given to a port: the local one, or a link's queue. -/
def linkSend (s : State) (i : Nat) (p : FabPacket) : State :=
  if i = 18 then emit s (.fabric 18 p) else drainPort (setLink s i { linkOf s i with queue := (linkOf s i).queue ++ [p] }) i

/-- The ACK or READ_RESP to the source of a packet. -/
def fabReply (s : State) (p : FabPacket) (status : Nat) (payload : List Byte) (poison : BitVec 64) : FabPacket :=
  { dst := p.src, src := BitVec.ofNat 10 (fabricId s), kind := if p.kind = 1 then 2 else 3, channel := 3, aperture := 0, sem := 0x3F,
    generation := 0, offset := 0, transaction := p.transaction, poison := poison, status := BitVec.ofNat 8 status, payload := payload,
    linkSeq := 0, linkAck := 0 }

/-- A packet given to the port of its destination; a packet with no usable port is dropped and counted (R499). -/
def routeOut (s : State) (p : FabPacket) : State × Bool :=
  match relayPort s p.dst.toNat with
  | some i => (linkSend s i p, true)
  | none => (dcount s 0x4400 0x27 8 1, false)

/-- A packet routed on; the source of a request that is dropped is answered with REMOTE_ERROR (R499). -/
def routeOn (s : State) (p : FabPacket) : State :=
  match routeOut s p with
  | (s, true) => s
  | (s, false) => if p.kind ≠ 0 ∧ p.kind ≠ 1 ∧ p.kind ≠ 4 then s else (routeOut s (fabReply s p 0x0B [] 0)).1

/-- What a link that is DOWN holds, its unacknowledged packets first, goes to the alternate ports, as far as `dst` says (R499). -/
def moveLink (dst : FabPacket → Bool) (s : State) (i : Nat) : State :=
  if linkUsable s i then s
  else
    let l := linkOf s i
    let held := l.replay.map (·.1) ++ l.queue
    (held.filter dst).foldl routeOn
      (setLink s i { l with replay := l.replay.filter fun p => !dst p.1, queue := l.queue.filter fun p => !dst p })

/-- Whether a link that is DOWN still holds packets to a destination. -/
def heldFor (s : State) (dst : BitVec 10) : Bool :=
  (List.range 18).any fun i => !linkUsable s i && ((linkOf s i).replay.any (fun p => decide (p.1.dst = dst)) || (linkOf s i).queue.any fun p => decide (p.dst = dst))

/-- A packet sent through the relay, behind every packet to its destination that a link took DOWN with it (R499; DEDUCED, log entry 83). -/
def relaySend (s : State) (p : FabPacket) : State × Bool :=
  routeOut (if heldFor s p.dst then (List.range 18).foldl (moveLink fun q => decide (q.dst = p.dst)) s else s) p

end Sys2Proof.Machine
end

