-- ==== Sys2Proof/Machine/Array.lean ====
section
/-! DEFINITION. The array queue: an MMA's start, its passes and verdicts, streamed weights, load warnings, and the gang sequencer's deliveries (R66 to R98, R134 to R138). -/
namespace Sys2Proof.Machine
open Sys2Proof

/-- Sets bits of CR_VFLAGS (R49). -/
def setVflags (s : State) (site : Nat) (sat inv : Bool) : State :=
  modTile s site fun t => { t with vflags := t.vflags ||| BitVec.ofNat 2 (boolNat sat + 2 * boolNat inv) }

def setMma (s : State) (site : Nat) (m : MmaExec) : State := modTile s site fun t => { t with mma := some m }

/-- The array starts: the ramp of R77 where the start or its command's entry asks for one, and the end of the warning that announced the start (R382). A streamed MMA waits for its first tile from here on (R64). -/
def arrayStarted (s : State) (site : Nat) (f : Fold) (d : BitVec 128) (m : MmaExec) : State :=
  let t := tileOf s site
  let entry := match t.idleEntry with
    | some e => e.ramp && decide (e.seq = m.seq)
    | none => false
  let s := if t.rampDue || entry then regAdd s (arrayReg site 0x02C) 24 else s
  let m := { m with started := true, tileDue := if mmaWsrc d ∧ m.shadow.isNone ∧ 0 < tilesOf f d then some (now s) else none }
  let s := modTile s site fun t => { t with rampDue := false, lastWarn := none, idleEntry := none, mma := some m }
  let c := siteCluster site
  match (clusterRec s c).warnBoost with
  | some (w, e) =>
    if warnAwaited s c then s
    else modCluster s c fun r => { r with warnBoost := some (w, min e (now s + 12800)) }
  | none => s

/-- The load warning of a command that entered an idle array queue (R78). -/
def warnedAt (t : Tile) (seq : BitVec 16) : Option Nat :=
  match t.idleEntry with
  | some e => if e.seq = seq then some e.warned else none
  | none => none

/-- Begins the fold of the head MMA: at once from a busy array, after the warning hold from idle (R78); a gang tile without a band has nothing to do (R71). -/
def mmaBegin (s : State) (site : Nat) (e : QEntry) : State :=
  match foldOf s site e.desc with
  | none => setProgS s site .array e.seq (.done 0)
  | some f =>
    let m : MmaExec :=
      { seq := e.seq, started := false, ready := tileCycles s site, pass := 0, phase := .first, current := none, shadow := none,
        held := [], tileDue := none }
    let s := setProgS s site .array e.seq .running
    if (warnedAt (tileOf s site) e.seq).isSome then setMma s site m else arrayStarted s site f e.desc m

/-- The bytes of an area that lie in rows 0 to 8,191. -/
def inRows (base n : Nat) : Nat := min n ((8192 - base) * 512)

/-- The output area of an MMA set as poisoned (R88, R155). -/
def mmaTaint (s : State) (site : Nat) (d : BitVec 128) : State :=
  match foldOf s site d with
  | some f => areaTaint s site (mmaOutaddr d) 0 (inRows (mmaOutaddr d) (outBytes f d))
  | none => s

/-- The head of the array queue taken through its check and wait; a SUSPECT array refuses it and poisons its output (R88). -/
def mmaHead (s : State) (site : Nat) (e : QEntry) : State :=
  let st := mmaCheck s site e.desc
  let s1 := headStep s site .array e st
  let s1 := if e.prog = .queued ∧ st = 0x09 then mmaTaint s1 site e.desc else s1
  if headGranted s1 site .array e.seq then mmaBegin s1 site e else s1

/-- MMA (R66, R116): the head of the array queue is checked, waits, and begins. -/
def execMma (site : Site) (s : State) : Answer :=
  match queueHead (tileOf s site) .array with
  | some e =>
    guarded (clusterOn s (siteCluster site) && regBit s (arrayReg site 0) 0 && queueFirst s site .array e.seq &&
      decide (e.prog ≠ .waiting)) s (mmaHead s site e)
  | none => answer s

/-- ARRAY_START (R77, R78): 3,200 DTU after the load warning, while EN is 1 (R96). ARR_WARN_HOLD counts the cycles of the hold from the one in which nothing else kept the command from starting (log entry 134). -/
def execArrayStart (site : Site) (s : State) : Answer :=
  let t := tileOf s site
  match t.mma with
  | none => answer s
  | some m => match t.arrayQ.entries.find? (fun e => decide (e.seq = m.seq)), warnedAt t m.seq with
    | some e, some w => match foldOf s site e.desc with
      | none => answer s
      | some f =>
        let hold := tileCyclesAt s site (w + 3200) - m.ready
        guarded (!m.started && regBit s (arrayReg site 0) 0 && decide (w + 3200 ≤ now s)) s
          (arrayStarted (regAdd s (arrayReg site 0x030) hold) site f e.desc m)
    | _, _ => answer s

/-- The entry of the array queue in execution. -/
def mmaEntry (t : Tile) (m : MmaExec) : Option QEntry := t.arrayQ.entries.find? fun e => decide (e.seq = m.seq)

/-- The MMA stops with a status: its later passes are not run. -/
def mmaStop (s : State) (site : Nat) (m : MmaExec) (st : Nat) : State :=
  setProgS s site .array m.seq (.done (BitVec.ofNat 8 st))

/-- The next weight tile that a streamed MMA has to load: the one after the tile in the cells (R119). -/
def nextStreamed (f : Fold) (m : MmaExec) : Nat := match m.current with
  | some c => c.tile + 1
  | none => m.pass / passesPerTile f

/-- The number of tile t of a fold in the whole weight matrix: b × ceil(K / 64) + j (R110). -/
def globalTile (f : Fold) (d : BitVec 128) (t : Nat) : Nat := f.blocks.getD (t / kChunks d) 0 * kChunks d + t % kChunks d

/-- Where a streamed weight tile stands in HBM: its rows, the number of them that hold weights, where its scales stand in the row behind them, and the stored format of a KV tile that the Fuller expands to BF16 (R292). -/
structure TileSpan where
  rows : List Nat
  data : Nat
  scales : Option Nat
  expand : Option Nat
deriving DecidableEq, Repr

/-- Tile g of a weight matrix that stands in HBM as R110 and R111 lay it out (R119). -/
def plainSpan (d : BitVec 128) (base g : Nat) : TileSpan :=
  let n := 64 * groupBytes (mmaWfmt d)
  let scales := base + ceilDiv (ceilDiv (mmaN d) 64 * kChunks d * n) 512 * 512 + g * 128
  { rows := (List.range (n / 512)).map (fun i => base + g * n + 512 * i) ++ if mmaWmx d then [scales / 512 * 512] else []
    data := n / 512, scales := if mmaWmx d then some (scales % 512) else none, expand := none }

/-- Tile g of a streamed weight matrix. From a stored KV page the Fuller gives the form that the MMA's weight format names: the stored format with its scales, or BF16 (R292; log entry 148). -/
def tileSpan (s : State) (d : BitVec 128) (base g : Nat) : TileSpan :=
  match storedPage s base with
  | none => plainSpan d base g
  | some (slot, m) =>
    let code := mfKvFormat m
    let at_ (n : Nat) : List Nat × Nat := storedRows slot m ((base - slot) / n + g)
    let k := storedTile m / 512
    if code < 8 ∧ mmaWfmt d = code ∧ mmaWmx d then ⟨(at_ (storedTile m)).1, k, some (at_ (storedTile m)).2, none⟩
    else if code < 8 ∧ mmaWfmt d = 8 then ⟨(at_ openTile).1, k, some (at_ openTile).2, some code⟩
    else plainSpan d base g

/-- What the rows of a streamed tile give: a status, the weights with the scales behind them, and whether a sector of them is poisoned. -/
def streamGives (t : TileSpan) (rs : List RowAns) : Nat × List Byte × Bool :=
  let ws := rs.take t.data
  let bytes := ws.flatMap (·.data)
  let st := ((rs.map (·.status)).find? (· ≠ 0)).getD 0
  let dirty := ws.any fun r => decide (r.tags ≠ 0)
  match t.scales, rs.drop t.data with
  | some o, r :: _ =>
    let sc := slice r.data o 128
    (st, (match t.expand with
      | some code => fullerOpen code bytes sc
      | none => bytes ++ sc), dirty || r.tags.toNat.testBit (o / 64) || r.tags.toNat.testBit (o / 64 + 1))
  | _, _ => (st, bytes, dirty)

/-- The ways out to the rows of a streamed tile and back (R620). -/
def streamWays (s : State) (near : NetEnd) (rows : List Nat) : List (Path × Path) :=
  rows.map fun a => (pathOf s 1 0 near (addrEnd s a), pathOf s 3 0 (addrEnd s a) near)

/-- Whether a streamed tile can be read now: every way is open and no stack on it retrains (R203, R262). -/
def streamOpen (s : State) (near : NetEnd) (rows : List Nat) : Bool :=
  (streamWays s near rows).all (fun w => w.1.open && w.2.open) && rows.all fun a => !stackHolds s a

/-- A streamed weight tile read by a source: each row takes a request and a packet back. -/
def streamRead (s : State) (near : NetEnd) (src : Src) (d : BitVec 128) (base g : Nat) (events : List RowEvent) (found : List HbmFind) :
    State × Nat × List Byte × Bool :=
  let t := tileSpan s d base g
  let rows := t.rows
  let ways := streamWays s near rows
  if ways.any fun w => decide (w.1 = .error ∨ w.2 = .error) then (s, 0x0B, [], false)
  else
    let r := if src.region < 64 then some src.region else none
    let s := (ways.zip rows).foldl (fun s (w, a) =>
      countPath (crossPath (countPath (crossPath s r w.1 (blockDomain s a)) w.1 1) r w.2 none) w.2 4) s
    let (s, rs) := rowsReadAt s src events rows found
    (s, streamGives t rs)

/-- The tiles of a gang that hold the N block of tile g of an MMA's weight matrix (R71, R138). -/
def blockHolders (s : State) (sites : List Nat) (d : BitVec 128) (g : Nat) : List Nat :=
  sites.filter fun x => match foldOf s x d with
    | some f => f.blocks.contains (g / kChunks d)
    | none => false

/-- The sequencer's tile g of the MMA with a sequence number, if it has read it (R138). -/
def gangTile (s : State) (n r : Nat) (seq : BitVec 16) (g : Nat) : Option GangTile :=
  (gangOf s n r).streams.find? fun t => decide (t.seq = seq ∧ t.tile = g)

/-- The tiles that the sequencer has read for MMAs that are still queued somewhere in the gang. -/
def liveStreams (s : State) (sites : List Nat) (q : Gang) : List GangTile :=
  q.streams.filter fun t => sites.any fun x => (tileOf s x).arrayQ.entries.any fun e => decide (e.seq = t.seq)

/-- A weight tile for a gang tile (R138): the sequencer reads it once, from the base slot of gang tile 0, and multicasts it to every tile that holds its block; a tile that loads it again has it read again (log entry 138). -/
def gangStream (s : State) (site : Site) (r : Nat) (sites : List Nat) (seq : BitVec 16) (d : BitVec 128) (g : Nat)
    (events : List RowEvent) (found : List HbmFind) : State × Nat × List Byte × Bool :=
  let n := siteField site
  let read := streamRead s (.field n) (sequencerSrc n r) d (streamBase s (sites.headD site) d) g events found
  let branch (s : State) : State := countPath (crossPath s (some r) (farWay s (.field n) (.tile site)) none) (farWay s (.field n) (.tile site)) (4 * (plainSpan d 0 g).rows.length)
  match gangTile s n r seq g with
  | some t =>
    if t.left.contains site.val then
      let q := gangOf s n r
      let s := setGang s n r { q with streams := q.streams.map fun x =>
        if x.seq = seq ∧ x.tile = g then { x with left := x.left.filter fun y => decide (y ≠ site.val) } else x }
      (branch s, t.status, t.bytes, t.poison)
    else (branch read.1, read.2)
  | none =>
    let (s, st, bytes, p) := read
    let q := gangOf s n r
    let t : GangTile := ⟨seq, g, st, bytes, p, (blockHolders s sites d g).filter fun y => decide (y ≠ site.val)⟩
    (branch (setGang s n r { q with streams := liveStreams s sites q ++ [t] }), st, bytes, p)

/-- A weight tile for an MMA: read by the tile itself, or in a gang by the sequencer. -/
def streamedTile (s : State) (site : Site) (seq : BitVec 16) (d : BitVec 128) (g : Nat) (events : List RowEvent) (found : List HbmFind) :
    State × Nat × List Byte × Bool :=
  match gangPlace s site with
  | none => streamRead s (.tile site) (tileSrc s site) d (streamBase s site d) g events found
  | some (r, sites, _) => gangStream s site r sites seq d g events found

/-- Whether a weight tile can reach an MMA now. -/
def streamedReady (s : State) (site : Site) (seq : BitVec 16) (d : BitVec 128) (g : Nat) : Bool :=
  match gangPlace s site with
  | none => streamOpen s (.tile site) (tileSpan s d (streamBase s site d) g).rows
  | some (r, sites, _) =>
    let n := siteField site
    let held := match gangTile s n r seq g with
      | some t => t.left.contains site.val
      | none => false
    (farWay s (.field n) (.tile site)).open && (held || streamOpen s (.field n) (tileSpan s d (streamBase s (sites.headD site) d) g).rows)

/-- Frozen cycles that end with a streamed tile's arrival: those since it was due, at least one (R64, R75). -/
def tileFrozen (s : State) (site : Nat) (m : MmaExec) : State :=
  match m.tileDue with
  | some t =>
    let n := max 1 (tileCycles s site - tileCyclesAt s site t)
    regAdd (reg64Add s (arrayReg site 0x018) n) (arrayReg site 0x024) n
  | none => s

/-- STREAMED_WEIGHT_ARRIVAL (R119, R138, R620): the next weight tile goes into the shadow weights, and a freeze that waited for it ends (R64). -/
def execStreamedWeightArrival (a : StreamRows) (s : State) : Answer :=
  let site := a.site
  let t := tileOf s site
  match t.mma with
  | none => answer s
  | some m => match mmaEntry t m with
    | none => answer s
    | some e => match foldOf s site e.desc with
      | none => answer s
      | some f =>
        let k := nextStreamed f m
        let g := globalTile f e.desc k
        let (s', st, bytes, p) := streamedTile s site m.seq e.desc g a.events a.found
        guarded (mmaWsrc e.desc && m.shadow.isNone && decide (k < tilesOf f e.desc ∧ e.prog = .running) && streamedReady s site m.seq e.desc g) s
          (if st ≠ 0 then mmaStop s' site m st
           else setMma (tileFrozen s' site m) site { m with shadow := some ⟨k, bytes, p⟩, tileDue := none })

/-- Where a pass stands in the fold: its weight tile, local N block, K chunk and row range. -/
structure PassAt where
  tile : Nat
  lb : Nat
  j : Nat
  row0 : Nat
  rows : Nat
deriving DecidableEq, Repr

def passAt (f : Fold) (d : BitVec 128) (n : Nat) : PassAt :=
  let tile := n / passesPerTile f
  let p := n % passesPerTile f
  ⟨tile, tile / kChunks d, tile % kChunks d, 64 * p, min 64 (f.rows - 64 * p)⟩

/-- Whether a pass finds its weight tile in the cells (R61, R63). -/
def tileInCells (m : MmaExec) (q : PassAt) : Bool := match m.current with
  | some c => decide (c.tile = q.tile)
  | none => false

/-- The spans of scratchpad that a pass reads as it enters, by requestor, first row of the area, offset and bytes: its weight tile when the loader has to load it, and its activations. -/
def entrySpans (f : Fold) (d : BitVec 128) (m : MmaExec) (q : PassAt) : List (Nat × Nat × Nat × Nat) :=
  let wn := 64 * groupBytes (mmaWfmt d)
  let an := groupBytes (mmaAfmt d)
  (if mmaWsrc d || tileInCells m q then [] else
    (reqLoader, mmaWaddr d, q.tile * wn, wn) :: if mmaWmx d then [(reqLoader, wScaleRow f d, q.tile * 128, 128)] else []) ++
  [(reqFeed, mmaAaddr d, (q.j * f.rows + q.row0) * an, q.rows * an)] ++
  (if mmaAmx d then [(reqFeed, aScaleRow f d, (q.j * f.rows + q.row0) * 2, q.rows * 2)] else [])

/-- The running values that the drain reads when it commits a pass (R68). -/
def drainSpans (f : Fold) (d : BitVec 128) (q : PassAt) : List (Nat × Nat × Nat × Nat) :=
  if q.j = 0 ∧ ¬ mmaInit d then [] else [(reqDrain, mmaAccaddr d, (q.lb * f.rows + q.row0) * 256, q.rows * 256)]

/-- The span a pass writes. -/
def passOut (f : Fold) (d : BitVec 128) (q : PassAt) : Nat × Nat × Nat :=
  if q.j + 1 = kChunks d then (mmaOutaddr d, (q.lb * f.rows + q.row0) * outGroup d, q.rows * outGroup d)
  else (mmaAccaddr d, (q.lb * f.rows + q.row0) * 256, q.rows * 256)

/-- The weight tile of the pass: held in the cells, swapped in from the shadow weights, or read by the loader, its scales behind its bytes. -/
def passWeights (s : State) (site : Nat) (f : Fold) (d : BitVec 128) (m : MmaExec) (q : PassAt) : Shadow :=
  let wn := 64 * groupBytes (mmaWfmt d)
  let loaded : Shadow := ⟨q.tile, areaRead s site (mmaWaddr d) (q.tile * wn) wn ++
    (if mmaWmx d then areaRead s site (wScaleRow f d) (q.tile * 128) 128 else []), false⟩
  match if tileInCells m q then m.current else if mmaWsrc d then m.shadow else none with
  | some w => w
  | none => loaded

/-- The real columns of a pass's N block (R67). -/
def realColumns (f : Fold) (d : BitVec 128) (q : PassAt) : Nat := min 64 (mmaN d - 64 * f.blocks.getD q.lb 0)

/-- The real terms of a pass's K chunk (R67). -/
def realTerms (d : BitVec 128) (q : PassAt) : Nat := min 64 (mmaK d - 64 * q.j)

/-- The operands of a pass as values. -/
def passOperands (s : State) (site : Nat) (f : Fold) (d : BitVec 128) (w : Shadow) (q : PassAt) : Pass :=
  let an := groupBytes (mmaAfmt d)
  let kreal := realTerms d q
  let creal := realColumns f d q
  let wn := 64 * groupBytes (mmaWfmt d)
  let tile := w.bytes.take wn
  let wsc := w.bytes.drop wn
  let acts := areaRead s site (mmaAaddr d) ((q.j * f.rows + q.row0) * an) (q.rows * an)
  let asc := if mmaAmx d then areaRead s site (aScaleRow f d) ((q.j * f.rows + q.row0) * 2) (q.rows * 2) else []
  ⟨(List.range q.rows).map fun i => actLine (mmaAfmt d) (mmaAmx d) (slice acts (i * an) an) (slice asc (2 * i) 2) kreal,
    (List.range 64).map fun c => weightLine (mmaWfmt d) (mmaWmx d) tile wsc kreal creal c,
    mmaWmx d || mmaAmx d, decide (mmaWfmt d = 8 ∨ mmaAfmt d = 8), mmaInt32 d, unscaledInts d, creal⟩

/-- One FP32 or INT32 accumulation (R45, R46). -/
def accumulate (int32 : Bool) (acc : Option Nat) (u : Nat) : Nat :=
  match acc with
  | none => u
  | some a => if int32 then (a + u) % 2 ^ 32 else addFP32 a u

/-- The units of an element that exist: in MX mode the second block only where K reaches it (R45). -/
def liveUnits (mx : Bool) (kreal : Nat) (us : List Nat) : List Nat := if mx ∧ kreal ≤ 32 then us.take 1 else us

/-- The accumulated values of a pass, row by row over its real columns. -/
def passSums (mx int32 : Bool) (kreal : Nat) (out : List (List (List Word32))) (accRow : Nat → Option (List Byte)) : List (List Nat) :=
  out.zipIdx.map fun (row, i) => row.zipIdx.map fun (us, c) =>
    match ((liveUnits mx kreal (us.map (·.toNat))).foldl (fun a u => some (accumulate int32 a u)) ((accRow i).map fun b => leAt b (4 * c) 4)) with
    | some v => v
    | none => 0

/-- The rows that the drain writes for a pass: at once where they join up, so that a sector covered by two of them is covered wholly (R619), else row by row. -/
def drainRows (s : State) (site base off stride : Nat) (events : List RowEvent) (rows : List (List Byte)) : State :=
  if rows.all fun r => decide (r.length = stride) then areaPatch s site reqDrain base off events rows.flatten
  else rows.zipIdx.foldl (fun s (r, i) => areaPatch s site reqDrain base (off + i * stride) events r) s

/-- Commits a pass (R68, R85): running values, or on the last chunk the outputs in OFMT with their flags. -/
def passCommit (s : State) (site : Nat) (f : Fold) (d : BitVec 128) (q : PassAt) (events : List RowEvent) (out : List (List (List Word32))) : State :=
  let accOff := (q.lb * f.rows + q.row0) * 256
  let accRow (i : Nat) : Option (List Byte) :=
    if q.j = 0 ∧ ¬ mmaInit d then none else some (areaRead s site (mmaAccaddr d) (accOff + i * 256) 256)
  let sums := passSums (mmaWmx d || mmaAmx d) (mmaInt32 d) (realTerms d q) out accRow
  let s := if q.j + 1 = kChunks d then
      match formatOf (mmaOfmt d) with
      | none => s
      | some fm =>
        let conv := sums.map fun row => row.map fun v =>
          if mmaInt32 d then ⟨v, false, false⟩ else convert fm true .nearest (ofFP32 v)
        let s := setVflags s site (conv.any fun row => row.any (·.saturated)) (conv.any fun row => row.any (·.invalid))
        drainRows s site (mmaOutaddr d) ((q.lb * f.rows + q.row0) * outGroup d) (outGroup d) events
          (conv.map fun row => packElems fm.bits (row.map (·.bits)))
    else drainRows s site (mmaAccaddr d) accOff 256 events (sums.map fun row => row.flatMap (leBytes 4))
  modTile (reg64Add s (arrayReg site 0x040) 1) site fun t => { t with passNo := t.passNo + 1 }

/-- Digits of a weight format (R30, R60). -/
def digits (code : Nat) : Nat :=
  match code with
  | 0x0 => 1
  | 0x3 => 1
  | 0x1 => 2
  | 0x4 => 2
  | 0x5 => 2
  | 0x6 => 2
  | 0x7 => 2
  | 0x2 => 4
  | 0x8 => 4
  | _ => 6

/-- The cycles a pass adds to ARR_ACTIVE (R56, R58, R94): its rows, its sum row, and on the last pass the way to the hold buffer (log entry 10). -/
def passCycles (d : BitVec 128) (rows : Nat) (lastPass : Bool) : Nat :=
  let g := digits (mmaWfmt d)
  let lat := if mmaWfmt d = 8 ∨ mmaAfmt d = 8 then 198 + g else 132 + g
  rows * g + (if mmaRowchk d then g else 0) + (if lastPass then lat else 0)

def countFreezes (s : State) (site : Nat) (z : Freezes) : State :=
  regAdd (regAdd (regAdd (reg64Add s (arrayReg site 0x018) z.total) (arrayReg site 0x020) z.feed) (arrayReg site 0x024) z.wload)
    (arrayReg site 0x028) z.drain

/-- The body of an array-check record: ARR_LAST_FAULT, the command's sequence number and the time (R548). -/
def checkBody (s : State) (site : Nat) (seq : BitVec 16) : List Byte :=
  leBytes 4 (regGet s (arrayReg site 0x048)).toNat ++ leBytes 4 seq.toNat ++ leBytes 8 (now s)

def lastFault (s : State) (site : Nat) (m : MmaExec) (kind : Nat) : State :=
  regPut s (arrayReg site 0x048) (BitVec.ofNat 32 (m.pass % 65536 + (m.seq.toNat % 256) * 2 ^ 16 + kind * 2 ^ 24))

/-- A transient fault (R87): `kind` is the code of R98. -/
def checkTransient (s : State) (site : Nat) (m : MmaExec) (kind : Nat) : State :=
  let s := lastFault (regAdd s (arrayReg site 0x034) 1) site m kind
  tileRecord s 0x0101 site (checkBody s site m.seq)

/-- A permanent fault (R88): the command stops, its output is poisoned, SUSPECT sets and a Pounce array test is queued. -/
def checkPermanent (s : State) (site : Nat) (d : BitVec 128) (m : MmaExec) (kind : Nat) : State :=
  let s := lastFault (regAdd s (arrayReg site 0x038) 1) site m kind
  let s := regSetBit s (arrayReg site 4) 1 true
  let s := mmaTaint s site d
  let s := tileRecord s 0x0102 site (checkBody s site m.seq)
  let s := queueMaint s 2 (physTarget site) 0 0 false 0
  mmaStop s site m 0x09

/-- The next pass, or the end of the command; a streamed tile that the next pass wants and that is not there keeps the array waiting from now on (R64). -/
def passNext (s : State) (site : Nat) (f : Fold) (d : BitVec 128) (m : MmaExec) : State :=
  if m.pass + 1 = passesOf f d then mmaStop (setMma s site { m with current := none, shadow := none, held := [] }) site m 0
  else
    let q := passAt f d (m.pass + 1)
    let wanted := mmaWsrc d && !tileInCells m q && m.shadow.isNone
    setMma s site { m with pass := m.pass + 1, phase := .first, held := m.held.drop 1,
                           tileDue := if wanted then some (m.tileDue.getD (now s)) else none }

/-- The cells and the later passes flushed, so that the pass's weight tile is loaded again (R86, R91); `kept` are the runs that stay held. -/
def passAgain (s : State) (site : Nat) (d : BitVec 128) (m : MmaExec) (ph : PassPhase) (kept : List HeldPass) : State :=
  setMma s site { m with phase := ph, current := none, shadow := none, held := kept, tileDue := if mmaWsrc d then some (now s) else none }

/-- A pass that agrees: it is committed, and a disagreement met before counts as transient (R85, R87, R92). -/
def passAgrees (s : State) (site : Nat) (f : Fold) (d : BitVec 128) (m : MmaExec) (kind : Option Nat) (events : List RowEvent) (h : HeldPass) : State :=
  let q := passAt f d m.pass
  let s := match kind with
    | some k => checkTransient s site m k
    | none => s
  passNext (passCommit s site f d q events (heldColumns h (realColumns f d q))) site f d m

/-- The disagreement met before a run: none for a first one (R98). -/
def PassPhase.kind : PassPhase → Option Nat
  | .first => none
  | .repeated k => some k
  | .sampleRotated k => k
  | .sampleThird k => some k
  | .sampleFourth k => some k

/-- A check that disagrees in a first run or its repeat: the pass is repeated, or the fault is permanent (R86, R88). The permanent codes follow the transient ones. -/
def passDisagrees (s : State) (site : Nat) (d : BitVec 128) (m : MmaExec) (kind : Nat) : State :=
  match m.phase.kind with
  | none => passAgain s site d m (.repeated kind) []
  | some _ => checkPermanent s site d m (kind + 1)

/-- The verdict on the last run in the hold buffers (R81 to R94): what it commits, repeats or reports. The column check is judged before the row check, a transient takes the kind of the first disagreement and a permanent that of the last (log entry 135). -/
def passJudge (s : State) (site : Nat) (f : Fold) (d : BitVec 128) (m : MmaExec) (faults : List CellFault) (events : List RowEvent) : State :=
  let ctrl := regGet s (arrayReg site 0)
  let q := passAt f d m.pass
  let creal := realColumns f d q
  let turned (c : Nat) : Nat := physCol ctrl ((c + 1) % 64)
  let rowsOk (h : HeldPass) : Bool := !mmaRowchk d || rowVerdict (mmaInt32 d) creal h
  let same (a b : HeldPass) : Bool := decide (heldColumns a creal = heldColumns b creal)
  match m.phase, m.held with
  | .sampleRotated kind, a :: b :: _ =>
    let b := corrupted b creal turned faults
    if same a b && rowsOk b then passAgrees s site f d m kind events b
    else passAgain s site d m (.sampleThird (kind.getD (if same a b then 5 else 3))) []
  | .sampleThird kind, a :: _ =>
    let a := corrupted a creal (physCol ctrl) faults
    if rowsOk a then passAgain s site d m (.sampleFourth kind) [a] else checkPermanent s site d m 6
  | .sampleFourth kind, a :: b :: _ =>
    let b := corrupted b creal turned faults
    if !same a b then checkPermanent s site d m 4
    else if rowsOk b then passAgrees s site f d m (some kind) events b
    else checkPermanent s site d m 6
  | ph, a :: _ =>
    let a := corrupted a creal (physCol ctrl) faults
    if rbit ctrl 8 then
      if !rowsOk a then passDisagrees s site d m 5
      else if (tileOf s site).passNo % 64 = 63 then passAgain s site d m (.sampleRotated ph.kind) [a]
      else passAgrees s site f d m ph.kind events a
    else
      match columnVerdict (mmaInt32 d) (unscaledInts d) creal a with
      | .disagree => passDisagrees s site d m 1
      | .skipped => passAgrees (regAdd s (arrayReg site 0x03C) 1) site f d m ph.kind events a
      | .agree => if rowsOk a then passAgrees s site f d m ph.kind events a else passDisagrees s site d m 5
  | _, [] => s

/-- The first span of a list whose rows a bank does not serve. -/
def spansOff (s : State) (site : Nat) (spans : List (Nat × Nat × Nat × Nat)) : Option (Nat × Nat) :=
  spans.findSome? fun p => (areaOff s site p.1 p.2.1 p.2.2.1 p.2.2.2).map fun r => (p.1, r)

/-- Spans read by their requestors (R150, R152, R153, R155): a status of 0, BANK_OFF or POISON. -/
def spansRead (s : State) (site : Nat) (spans : List (Nat × Nat × Nat × Nat)) (events : List RowEvent) : State × Nat :=
  match spansOff s site spans with
  | some (req, row) => (offAccess s site row req, 0x07)
  | none =>
    let s := spans.foldl (fun s p => areaEcc s site p.1 p.2.1 p.2.2.1 p.2.2.2 events) s
    (s, if spans.any fun p => areaPoison s site p.2.1 p.2.2.1 p.2.2.2 then 0x08 else 0)

/-- Pass n streams through the array into a free hold buffer (R61 to R68, R85): a status, and the command with the pass held. -/
def passEnter (s : State) (site : Nat) (f : Fold) (d : BitVec 128) (m : MmaExec) (n : Nat) (events : List RowEvent) : State × Nat × MmaExec :=
  let q := passAt f d n
  let (s, st) := spansRead s site (entrySpans f d m q) events
  let w := passWeights s site f d m q
  let shadow := if mmaWsrc d && !tileInCells m q then none else m.shadow
  let held := passHold (passOperands s site f d w q) n (mmaRowchk d)
  if st ≠ 0 then (s, st, m)
  else if w.poison then (s, 0x08, m)
  else (reg64Add s (arrayReg site 0x010) (passCycles d q.rows (decide (n + 1 = passesOf f d))), 0,
        { m with current := some w, shadow := shadow, held := m.held ++ [held], tileDue := none })

/-- Whether the weight tile of a pass is at hand: in the cells, in the tile's own scratchpad, or in the shadow weights. -/
def tileReady (d : BitVec 128) (m : MmaExec) (q : PassAt) : Bool :=
  tileInCells m q || !mmaWsrc d || (match m.shadow with
    | some c => decide (c.tile = q.tile)
    | none => false)

/-- Whether the pass under verdict has still to enter: its run, or the second run of a sampled pass, is not held. -/
def entryDue (m : MmaExec) : Bool := match m.phase with
  | .sampleRotated _ => decide (m.held.length < 2)
  | .sampleFourth _ => decide (m.held.length < 2)
  | _ => m.held.isEmpty

/-- The next pass follows into the second hold buffer when it is free and the operands are at hand; a pass that would stop there enters after its predecessor's verdict (R63, R85). -/
def passAhead (s : State) (site : Nat) (f : Fold) (d : BitVec 128) (m : MmaExec) (events : List RowEvent) : State × MmaExec :=
  let n := m.pass + 1
  let sampled := regBit s (arrayReg site 0) 8 && decide ((tileOf s site).passNo % 64 = 63)
  if m.held.length = 1 ∧ n < passesOf f d ∧ !sampled ∧ tileReady d m (passAt f d n) then
    match passEnter s site f d m n events with
    | (s', 0, m') => (s', m')
    | _ => (s, m)
  else (s, m)

/-- A pass with its operands: an OFF bank and a poisoned operand stop the command (R150, R155). -/
def passRun (s : State) (site : Nat) (f : Fold) (d : BitVec 128) (m : MmaExec) (faults : List CellFault) (z : Freezes)
    (events : List RowEvent) : State :=
  let s := countFreezes s site z
  let (s, st, m) := if entryDue m then passEnter s site f d m m.pass events else (s, 0, m)
  let stop (s : State) (st : Nat) : State := mmaStop (if st = 0x08 then mmaTaint s site d else s) site m st
  if st ≠ 0 then stop s st
  else
    let (s, m) := passAhead s site f d m events
    let q := passAt f d m.pass
    match spansOff s site [(reqDrain, passOut f d q)] with
    | some (req, row) => stop (offAccess s site row req) 0x07
    | none =>
      let (s, st) := spansRead s site (drainSpans f d q) events
      if st ≠ 0 then stop s st else passJudge s site f d m faults events

/-- Whether a verdict is due: an MMA has started, and its pass is held or its weight tile is there. -/
def passReady (d : BitVec 128) (f : Fold) (m : MmaExec) : Bool :=
  m.started && (!entryDue m || tileReady d m (passAt f d m.pass))

/-- PASS_VERDICT (R81 to R94). -/
def execPassVerdict (site : Site) (faults : List CellFault) (freezes : Freezes) (events : List RowEvent) (s : State) : Answer :=
  let t := tileOf s site
  match t.mma with
  | none => answer s
  | some m => match mmaEntry t m with
    | none => answer s
    | some e => match foldOf s site e.desc with
      | none => answer s
      | some f =>
        guarded (clusterOn s (siteCluster site) && decide (e.prog = .running) && passReady e.desc f m) s
          (passRun s site f e.desc m faults freezes events)

/-- LOAD_WARNING_RENEWAL (R135): 25,600 DTU after the latest warning, while an MMA is queued and none has started since. -/
def execLoadWarningRenewal (site : Site) (s : State) : Answer :=
  let t := tileOf s site
  let due := match t.lastWarn with
    | some w => decide (w + 25600 ≤ now s)
    | none => false
  guarded (clusterOn s (siteCluster site) && !t.arrayQ.entries.isEmpty && due) s (loadWarning s site)

/-- GANG_DELIVER (R137): the oldest descriptor of a gang goes to the matching queue of every tile, once each has a free entry. -/
def execGangDeliver (field : Field) (region : RegionId) (s : State) : Answer :=
  let g := gangOf s field region
  match g.entries with
  | [] => answer s
  | (q, d) :: rest =>
    let sites := gangSites s region field
    guarded (fieldRuns s field && gangGrain s region && sites.all (fun x => !queueFull (tileOf s x) q 0)) s
      (sites.foldl (fun s x => enqueue s x q d) (setGang s field region { g with entries := rest }))

end Sys2Proof.Machine
end

