-- ==== Sys2Proof/Machine/Sfu.lean ====
section
/-! DEFINITION. The special functions of R127, correctly rounded: each is enclosed between two exact values, more and more closely, until both convert to one result. -/
namespace Sys2Proof.Machine
open Sys2Proof

/-- floor(√n) by descending Newton steps. -/
def isqrtFrom : Nat → Nat → Nat → Nat
  | 0, _, x => x
  | f + 1, n, x => let y := (x + n / x) / 2; if y < x then isqrtFrom f n y else x

def isqrt (n : Nat) : Nat := if n = 0 then 0 else isqrtFrom (n.log2 + 2) n (2 ^ (n.log2 / 2 + 1))

/-- Σ (±1)^i z^(2i+1) / (2i + 1) at scale 2^w, z at that scale: atanh, or atan when `alt`. -/
def atanSum (alt : Bool) (w : Nat) (z2 : Int) : Nat → Nat → Int → Int
  | 0, _, _ => 0
  | f + 1, i, t =>
    if t = 0 ∨ t = -1 then 0
    else
      let term := t / (2 * i + 1 : Int)
      let rest := atanSum alt w z2 f (i + 1) (t * z2 / 2 ^ w)
      if alt then term - rest else term + rest

/-- atan(1/k) or atanh(1/k) at scale 2^w. -/
def atanInv (alt : Bool) (w k : Nat) : Int :=
  let z : Int := 2 ^ w / (k : Int)
  atanSum alt w (2 ^ w / ((k * k : Nat) : Int)) w 0 z

def ln2At (w : Nat) : Int := 2 * atanInv false w 3
def piAt (w : Nat) : Int := 16 * atanInv true w 5 - 4 * atanInv true w 239

/-- Σ t_i where t_{i+1} = t_i × r / (i + 1), at scale 2^w. -/
def expSum (w : Nat) (r : Int) : Nat → Nat → Int → Int
  | 0, _, _ => 0
  | f + 1, i, t => if t = 0 then 0 else t + expSum w r f (i + 1) (t * r / 2 ^ w / ((i + 1 : Nat) : Int))

/-- The Taylor sum of sin (i = 1, t = r) or cos (i = 0, t = 1): t_{i+2} = −t_i × r² / ((i + 1)(i + 2)). -/
def trigSum (w : Nat) (r2 : Int) : Nat → Nat → Int → Int
  | 0, _, _ => 0
  | f + 1, i, t =>
    if t = 0 ∨ t = -1 then 0 else t + trigSum w r2 f (i + 2) (-(t * r2 / 2 ^ w / (((i + 1) * (i + 2) : Nat) : Int)))

/-- m × 2^e at scale 2^w, rounded down. -/
def fixAt (neg : Bool) (m : Nat) (e : Int) (w : Nat) : Int :=
  let q := (w : Int) + e
  let k : Int := if 0 ≤ q then (m : Int) * 2 ^ q.toNat else (m : Int) / 2 ^ (-q).toNat
  if neg then -k else k

/-- The value k × 2^q, signed. -/
def ofScaled (k q : Int) : Val := ofInt k q false

/-- An enclosure of half-width 2^g around k × 2^q. -/
def around (k q : Int) (g : Nat) : Val × Val := (ofScaled (k - 2 ^ g) q, ofScaled (k + 2 ^ g) q)

/-- e^x at scale 2^w for x at that scale, as a significand in [1, 2) and a power of two. -/
def expAt (w : Nat) (x : Int) : Int × Int :=
  let l := ln2At w
  let k := x / l
  (expSum w (x - k * l) (w + 2) 0 (2 ^ w), k)

/-- EXP of m × 2^e, enclosed. -/
def encExp (neg : Bool) (m : Nat) (e : Int) (p : Nat) : Val × Val :=
  if 8 ≤ floorLog2 m e then
    let v : Val := .fin false 1 (if neg then -600 else 600)
    (v, v)
  else
    let w := p + 64
    let (v, k) := expAt w (fixAt neg m e w)
    around v (k - w) 40

/-- LOG of m × 2^e > 0, enclosed: x = f × 2^k with f in [2/3, 4/3). -/
def encLog (m : Nat) (e : Int) (p : Nat) : Val × Val :=
  let w := p + 64
  let k0 := floorLog2 m e
  let f0 : Int := fixAt false m (e - k0) w
  let up := decide (4 * 2 ^ w ≤ 3 * f0)
  let f := if up then f0 / 2 else f0
  let k := if up then k0 + 1 else k0
  let z := (f - 2 ^ w) * 2 ^ w / (f + 2 ^ w)
  around (2 * atanSum false w (z * z / 2 ^ w) (w + 2) 0 z + k * ln2At w) (-w) 40

/-- SIN or COS of m × 2^e, enclosed: reduced by the nearest multiple of π/2. -/
def encTrig (cos neg : Bool) (m : Nat) (e : Int) (p : Nat) : Val × Val :=
  let w := p + 256
  let x := fixAt neg m e w
  let half := piAt w / 2
  let n := (2 * x + half) / (2 * half)
  let r := x - n * half
  let quad := (n + (if cos then 1 else 0)) % 4
  let r2 := r * r / 2 ^ w
  let v := if quad % 2 = 0 then trigSum w r2 w 1 r else trigSum w r2 w 0 (2 ^ w)
  around (if quad < 2 then v else -v) (-w) 170

/-- Σ t_n with t_{n+1} = t_n × 2x² / (2n + 3), at scale 2^w. -/
def erfSum (w : Nat) (x2 : Int) : Nat → Nat → Int → Int
  | 0, _, _ => 0
  | f + 1, n, t => if t = 0 then 0 else t + erfSum w x2 f (n + 1) (t * (2 * x2) / 2 ^ w / ((2 * n + 3 : Nat) : Int))

/-- ERF of m × 2^e > 0, enclosed: 2/√π × e^(−x²) × Σ 2^n x^(2n+1) / (2n+1)!!. -/
def encErf (m : Nat) (e : Int) (p : Nat) : Val × Val :=
  if 4 ≤ floorLog2 m e then
    let v : Val := .fin false (2 ^ 300 - 1) (-300)
    (v, v)
  else
    let w := p + 512
    let x := fixAt false m e w
    let x2 := x * x / 2 ^ w
    let sum := erfSum w x2 (w + 2048) 0 x
    let (ev, ek) := expAt w (-x2)
    let ex : Int := if 0 ≤ ek then ev * 2 ^ ek.toNat else ev / 2 ^ (-ek).toNat
    let root : Int := (isqrt ((piAt w).toNat * 2 ^ w) : Nat)
    around (2 * (sum * ex / 2 ^ w) * 2 ^ w / root) (-w) 430

/-- Both ends of an enclosure converted: the result once they agree, at 96 bits and then at doubled precision. -/
def settle (fin : Val → Conv) (enc : Nat → Val × Val) : Nat → Nat → Conv
  | 0, p => fin (enc p).1
  | f + 1, p =>
    let (lo, hi) := enc p
    if fin lo = fin hi then fin lo else settle fin enc f (2 * p)

/-- 1 / (m × 2^e), with a sticky bit below 128 bits of quotient. -/
def rcpVal (neg : Bool) (m : Nat) (e : Int) : Val :=
  let k := m.log2 + 128
  let q := 2 ^ k / m
  .fin neg (2 * q + boolNat (decide (2 ^ k % m ≠ 0))) (-e - k - 1)

/-- 1 / √(m × 2^e), with a sticky bit below at least 128 bits of root. -/
def rsqVal (m : Nat) (e : Int) : Val :=
  let odd := decide (e % 2 ≠ 0)
  let m' := if odd then 2 * m else m
  let e' := if odd then e - 1 else e
  let k := m'.log2 + 256
  let n := 2 ^ (2 * k) / m'
  let q := isqrt n
  .fin false (2 * q + boolNat (decide (q * q * m' ≠ 2 ^ (2 * k)))) (-(e' / 2) - k - 1)

/-- FUNC of an FP32 value, converted to DFMT under R48 (R127). -/
def sfuValue (func : Nat) (fin : Val → Conv) (x : Val) : Conv :=
  let run := fun enc => settle fin enc 8 96
  match func, x with
  | _, .nan => fin .nan
  | 0, .inf neg => fin (if neg then .fin false 0 0 else .inf false)
  | 0, .fin neg m e => if m = 0 then fin (.fin false 1 0) else run (encExp neg m e)
  | 1, .inf neg => fin (if neg then .nan else .inf false)
  | 1, .fin neg m e =>
    if m = 0 then fin (.inf true)
    else if neg then fin .nan
    else if floorLog2 m e = 0 ∧ m = 2 ^ m.log2 then fin (.fin false 0 0)
    else run (encLog m e)
  | 2, .inf neg => fin (.fin neg 0 0)
  | 2, .fin neg m e => fin (if m = 0 then .inf neg else rcpVal neg m e)
  | 3, .inf neg => fin (if neg then .nan else .fin false 0 0)
  | 3, .fin neg m e => fin (if m = 0 then .inf neg else if neg then .nan else rsqVal m e)
  | 4, .inf _ => fin .nan
  | 4, .fin neg m e => if m = 0 then fin (.fin (neg && Config.sfuNegZero 4) 0 0) else run (encTrig false neg m e)
  | 5, .inf _ => fin .nan
  | 5, .fin neg m e => if m = 0 then fin (.fin false 1 0) else run (encTrig true neg m e)
  | _, .inf neg => fin (.fin neg 1 0)
  | _, .fin neg m e =>
    if m = 0 then fin (.fin (neg && Config.sfuNegZero 6) 0 0)
    else run fun p =>
      let (lo, hi) := encErf m e p
      if neg then (hi.neg, lo.neg) else (lo, hi)

end Sys2Proof.Machine
end

