-- ==== Sys2Proof/Machine/Vector.lean ====
section
/-! DEFINITION. The vector unit and the special-function unit (R47 to R53, R120 to R127), and the counter-based generator (R316 to R320). -/
namespace Sys2Proof.Machine
open Sys2Proof

/-! ## The generator -/

/-- One round of R317. -/
def genRound (h w : Word64) : Word64 :=
  let h := h + w
  (h ^^^ (h >>> 32)) * 0x1000010000100001

/-- The output word for a key and a counter (R317). -/
def ossilDraw (k0 k1 c0 c1 : Word64) : Word64 :=
  let h := (List.range 10).foldl (fun h i => genRound h (if i % 3 = 0 then c0 else if i % 3 = 1 then c1 else k1)) (k0 ^^^ 0x4F5353494C4C3132)
  h ^^^ (h >>> 32)

/-- The 24-bit draw of a stochastic rounding: key slot, stream and element index (R51, R320). -/
def srDraw (k : KeySlot) (stream lane : Nat) : Nat :=
  let k0 := k.key.truncate 64
  let k1 := (k.key >>> 64).truncate 64
  let c0 := BitVec.ofNat 64 (k.tag.toNat + stream * 2 ^ 32)
  let c1 := BitVec.ofNat 64 (k.step.toNat + lane * 2 ^ 32)
  fld (ossilDraw k0 k1 c0 c1).toNat 40 24

def keySlot (t : Tile) (n : Nat) : KeySlot := mget ⟨0, 0, 0⟩ t.keySlots n

/-! ## The VEC descriptor -/

/-- Whether an operation reads operand b. -/
def vopBinary (v : Nat) : Bool := decide ((1 ≤ v ∧ v ≤ 4) ∨ v = 6 ∨ v = 7)
def vopReduces (v : Nat) : Bool := decide (0x10 ≤ v ∧ v ≤ 0x13)
def vopSegments (v : Nat) : Bool := decide (v = 0x12 ∨ v = 0x13)
/-- Whether a VOP is one of R121. -/
def vopKnown (v : Nat) : Bool := decide (v = 0) || vopBinary v || decide (v = 8 ∨ v = 9) || vopReduces v

/-- FP32, BF16 or FP16. -/
def arithCode (c : Nat) : Bool := decide (c = 0x8 ∨ c = 0x9 ∨ c = 0xA)

def fmtBytes (code n : Nat) : Nat := (n * elemBits code + 7) / 8

/-- Elements of operand b that are read from scratchpad. -/
def vecBcount (d : BitVec 128) : Nat :=
  if vecBmode d = 0 then vecLen d else if vecBmode d = 1 then 1 else if vecBmode d = 2 then ceilDiv (vecLen d) 64 else 0

/-- Elements of the destination. -/
def vecDcount (d : BitVec 128) : Nat :=
  if vopSegments (dVop d) then vecLen d / 64 else if vopReduces (dVop d) then 1 else vecLen d

/-- The areas a VEC reads, as first row and bytes. -/
def vecReads (d : BitVec 128) : List (Nat × Nat) :=
  (vecSrca d, fmtBytes (vecSfmt d) (vecLen d)) ::
  (if vopBinary (dVop d) ∧ vecBmode d ≠ 3 then [(vecSrcb d, fmtBytes (vecSfmt d) (vecBcount d))] else []) ++
  (if dVop d = 4 ∨ (vopReduces (dVop d) ∧ vecAcc d) then [(vecDst d, fmtBytes (vecDfmt d) (vecDcount d))] else [])

/-- The areas a VEC writes: its destination, and the scales of an MX result (R111). -/
def vecWrites (d : BitVec 128) : List (Nat × Nat) :=
  let n := fmtBytes (vecDfmt d) (vecDcount d)
  (vecDst d, n) :: if vecMx d then [(scaleRow (vecDst d) n, vecLen d / 32)] else []

/-- The status of a VEC's head check, the lowest that applies (R116). -/
def vecCheck (d : BitVec 128) : Nat :=
  let v := dVop d
  let fmts := if v = 0 then decide (vecSfmt d ≤ 0xA ∧ vecDfmt d ≤ 0xA) && (!vecMx d || mxAllowed (vecDfmt d))
    else if vopKnown v then arithCode (vecSfmt d) && arithCode (vecDfmt d) else true
  if !fmts then 0x02
  else if vecLen d = 0 ∨ (vopSegments v ∧ vecLen d % 64 ≠ 0) ∨ (v = 0 ∧ vecMx d ∧ vecLen d % 32 ≠ 0) then 0x03
  else if !((vecReads d ++ vecWrites d).all fun a => areaFits a.1 a.2) then 0x06
  else if !(semField (dWaitSem d) && semField (dSigSem d)) then 0x0D
  else if !vopKnown v || (decide (v ≠ 0) && (vecSr d || vecMx d)) then 0x0E
  else 0

/-! ## Results -/

/-- Elements of an area as values. -/
def vecVals (s : State) (site row code n : Nat) : List Val :=
  let bytes := areaRead s site row 0 (fmtBytes code n)
  (List.range n).map fun i => elemVal code (elemAt (elemBits code) bytes i)

/-- Operand b of element i (R120). -/
def vecB (d : BitVec 128) (b : List Val) (i : Nat) : Val :=
  match vecBmode d with
  | 0 => b.getD i .nan
  | 1 => b.getD 0 .nan
  | 2 => b.getD (i / 64) .nan
  | _ => ofFP32 (vecImm d)

/-- The exact result of an elementwise operation (R121, R122). -/
def vecElem (v : Nat) (a b d : Val) : Val :=
  match v with
  | 1 => a.add b
  | 2 => a.add b.neg
  | 3 => a.mul b
  | 4 => (a.mul b).add d
  | 6 => a.max b
  | 7 => a.min b
  | 8 => a.abs
  | _ => a.neg

/-- One reduction in ascending order from an optional start (R123): FP32 sums, or maxima. -/
def vecFold (sum : Bool) (start : Option Val) (xs : List Val) : Val :=
  let step (a b : Val) : Val := if sum then round32 (a.add b) else a.max b
  match start, xs with
  | some v, xs => xs.foldl step v
  | none, x :: xs => xs.foldl step x
  | none, [] => .fin false 0 0

/-- The rounding of an arithmetic result to DFMT: an FP32 one as IEEE 754 prescribes, others under R48 (R122). -/
def vecRound (d : BitVec 128) (v : Val) : Conv :=
  match formatOf (vecDfmt d) with
  | some f => convert f (decide (vecDfmt d ≠ 0xA) && !vecNonsat d) .nearest v
  | none => ⟨0, false, false⟩

/-- The rounding in force for element i of a CVT. -/
def vecRounding (t : Tile) (d : BitVec 128) (i : Nat) : Rounding :=
  if vecSr d then .stochastic (srDraw (keySlot t (vecImm d % 4)) (vecImm d / 4 % 65536) i) else .nearest

/-- CVT without MX (R47 to R51). -/
def cvtElems (t : Tile) (d : BitVec 128) (f : Format) (a : List Val) : List Conv :=
  a.zipIdx.map fun (v, i) => convert f (!vecNonsat d) (vecRounding t d i) v

/-- CVT of one 32-element block to MX: its scale byte and elements (R52). -/
def cvtBlock (t : Tile) (d : BitVec 128) (f : Format) (a : List Val) (base : Nat) : Byte × List Conv :=
  match mxScale (vecDfmt d) a with
  | none => (0xFF, a.map fun _ => ⟨0, false, false⟩)
  | some x => (BitVec.ofNat 8 (x + 127).toNat,
      a.zipIdx.map fun (v, i) => mxConvert (vecDfmt d) f (!vecNonsat d) (vecRounding t d (base + i)) x v)

/-- The elements and the scale bytes that a VEC writes. -/
def vecResult (s : State) (site : Nat) (d : BitVec 128) : List Conv × List Byte :=
  let t := tileOf s site
  let v := dVop d
  let a := vecVals s site (vecSrca d) (vecSfmt d) (vecLen d)
  if v = 0 then
    match formatOf (vecDfmt d) with
    | none => ([], [])
    | some f =>
      if vecMx d then
        let bs := (List.range (vecLen d / 32)).map fun k => cvtBlock t d f ((a.drop (32 * k)).take 32) (32 * k)
        (bs.flatMap (·.2), bs.map (·.1))
      else (cvtElems t d f a, [])
  else if vopReduces v then
    let old := vecVals s site (vecDst d) (vecDfmt d) (vecDcount d)
    let n := if vopSegments v then 64 else vecLen d
    ((List.range (vecDcount d)).map fun g =>
      vecRound d (vecFold (decide (v = 0x10 ∨ v = 0x12)) (if vecAcc d then some (old.getD g .nan) else none) ((a.drop (n * g)).take n)), [])
  else
    let b := if vecBmode d = 3 then [] else vecVals s site (vecSrcb d) (vecSfmt d) (vecBcount d)
    let old := if v = 4 then vecVals s site (vecDst d) (vecDfmt d) (vecLen d) else []
    (a.zipIdx.map fun (x, i) => vecRound d (vecElem v x (vecB d b i) (old.getD i .nan)), [])

/-! ## Running -/

/-- A unit's command over areas of the vector queue: an OFF bank or a poisoned operand stops it; otherwise its results, each a row, a count of bits and their bytes, are written with their flags (R49, R150, R155). -/
def unitRun (s : State) (site : Nat) (e : QEntry) (req : Nat) (reads writes : List (Nat × Nat)) (events : List RowEvent)
    (result : State → List Conv × List (Nat × Nat × List Byte)) : State :=
  match (reads ++ writes).findSome? fun a => areaOff s site req a.1 0 a.2 with
  | some row => setProgS (offAccess s site row req) site .vector e.seq (.done 0x07)
  | none =>
    let s := reads.foldl (fun s a => areaEcc s site req a.1 0 a.2 events) s
    if reads.any fun a => areaPoison s site a.1 0 a.2 then
      setProgS (writes.foldl (fun s a => areaTaint s site a.1 0 a.2) s) site .vector e.seq (.done 0x08)
    else
      let (convs, outs) := result s
      let s := setVflags s site (convs.any (·.saturated)) (convs.any (·.invalid))
      setProgS (outs.foldl (fun s o => areaPatchBits s site req o.1 o.2.1 events o.2.2) s) site .vector e.seq (.done 0)

def vecRun (s : State) (site : Nat) (e : QEntry) (events : List RowEvent) : State :=
  let d := e.desc
  unitRun s site e reqVector (vecReads d) (vecWrites d) events fun s =>
    let (cs, scales) := vecResult s site d
    let data := packElems (elemBits (vecDfmt d)) (cs.map (·.bits))
    (cs, (vecDst d, cs.length * elemBits (vecDfmt d), data) :: if vecMx d then [(scaleRow (vecDst d) data.length, 0, scales)] else [])

/-- Whether the head of the vector queue may start: its unit is free, and with SERIAL every earlier command has retired (R113, R120). -/
def unitFree (t : Tile) (e : QEntry) : Bool :=
  let before := t.vectorQ.entries.takeWhile fun x => decide (x.seq ≠ e.seq)
  if dSerial e.desc then before.isEmpty else before.all fun x => decide (dKind x.desc ≠ dKind e.desc)

/-- The head of the vector queue taken through its check and wait as soon as it is the head, and run once its unit is free (R113, R116). -/
def vectorHead (s : State) (site : Nat) (e : QEntry) (status : Nat) (run : State → State) : State :=
  let s := headStep s site .vector e status
  if headGranted s site .vector e.seq && unitFree (tileOf s site) e then run s else s

/-- Whether the head of the vector queue has a step to take: its check, or its start on a free unit. -/
def vectorDue (t : Tile) (e : QEntry) : Bool := decide (e.prog = .queued) || (unitFree t e && decide (e.prog ≠ .waiting))

/-- A VEC of one operation at the head of the queue: a reserved VOP is taken by any of them (log entry 18). -/
def vecStep (v : Nat) (site : Site) (events : List RowEvent) (s : State) : Answer :=
  match queueHead (tileOf s site) .vector with
  | some e =>
    guarded (clusterOn s (siteCluster site) && decide (dKind e.desc = 2) && (decide (dVop e.desc = v) || !vopKnown (dVop e.desc)) &&
      vectorDue (tileOf s site) e) s
      (vectorHead s site e (vecCheck e.desc) fun s => vecRun s site e events)
  | none => answer s

/-- VEC_CVT (R121). -/
def execVecCvt (site : Site) (events : List RowEvent) (s : State) : Answer := vecStep 0x00 site events s
/-- VEC_ADD (R121). -/
def execVecAdd (site : Site) (events : List RowEvent) (s : State) : Answer := vecStep 0x01 site events s
/-- VEC_SUB (R121). -/
def execVecSub (site : Site) (events : List RowEvent) (s : State) : Answer := vecStep 0x02 site events s
/-- VEC_MUL (R121). -/
def execVecMul (site : Site) (events : List RowEvent) (s : State) : Answer := vecStep 0x03 site events s
/-- VEC_FMA (R121). -/
def execVecFma (site : Site) (events : List RowEvent) (s : State) : Answer := vecStep 0x04 site events s
/-- VEC_MAX (R121). -/
def execVecMax (site : Site) (events : List RowEvent) (s : State) : Answer := vecStep 0x06 site events s
/-- VEC_MIN (R121). -/
def execVecMin (site : Site) (events : List RowEvent) (s : State) : Answer := vecStep 0x07 site events s
/-- VEC_ABS (R121). -/
def execVecAbs (site : Site) (events : List RowEvent) (s : State) : Answer := vecStep 0x08 site events s
/-- VEC_NEG (R121). -/
def execVecNeg (site : Site) (events : List RowEvent) (s : State) : Answer := vecStep 0x09 site events s
/-- VEC_RSUM (R121, R123). -/
def execVecRsum (site : Site) (events : List RowEvent) (s : State) : Answer := vecStep 0x10 site events s
/-- VEC_RMAX (R121, R123). -/
def execVecRmax (site : Site) (events : List RowEvent) (s : State) : Answer := vecStep 0x11 site events s
/-- VEC_RSUM64 (R121, R123). -/
def execVecRsum64 (site : Site) (events : List RowEvent) (s : State) : Answer := vecStep 0x12 site events s
/-- VEC_RMAX64 (R121, R123). -/
def execVecRmax64 (site : Site) (events : List RowEvent) (s : State) : Answer := vecStep 0x13 site events s

/-! ## The special-function unit -/

def sfuReads (d : BitVec 128) : List (Nat × Nat) := [(sfuSrc d, fmtBytes (sfuSfmt d) (sfuLen d))]
def sfuWrites (d : BitVec 128) : List (Nat × Nat) := [(sfuDst d, fmtBytes (sfuDfmt d) (sfuLen d))]

/-- The status of an SFU's head check (R116, R126). -/
def sfuCheck (d : BitVec 128) : Nat :=
  if !(arithCode (sfuSfmt d) && arithCode (sfuDfmt d)) then 0x02
  else if sfuLen d = 0 then 0x03
  else if !((sfuReads d ++ sfuWrites d).all fun a => areaFits a.1 a.2) then 0x06
  else if !(semField (dWaitSem d) && semField (dSigSem d)) then 0x0D
  else if 6 < dOp d then 0x0E
  else 0

/-- x′ of R127. -/
def sfuPrescaled (d : BitVec 128) (v : Val) : Val :=
  if sfuPrescale d = 0 then v else round32 (v.mul (ofFP32 (sfuPrescale d)))

def sfuRun (s : State) (site : Nat) (e : QEntry) (events : List RowEvent) : State :=
  let d := e.desc
  unitRun s site e reqSfu (sfuReads d) (sfuWrites d) events fun s =>
    match formatOf (sfuDfmt d) with
    | none => ([], [])
    | some f =>
      let cs := (vecVals s site (sfuSrc d) (sfuSfmt d) (sfuLen d)).map fun v =>
        sfuValue (dOp d) (convert f (!decide (dfield d 0 28 1 = 1)) .nearest) (sfuPrescaled d v)
      (cs, [(sfuDst d, cs.length * f.bits, packElems f.bits (cs.map (·.bits)))])

/-- An SFU command of one function at the head of the queue. -/
def sfuStep (func : Nat) (site : Site) (events : List RowEvent) (s : State) : Answer :=
  match queueHead (tileOf s site) .vector with
  | some e =>
    guarded (clusterOn s (siteCluster site) && decide (dKind e.desc = 3) && decide (dOp e.desc = func ∨ 6 < dOp e.desc) &&
      vectorDue (tileOf s site) e) s
      (vectorHead s site e (sfuCheck e.desc) fun s => sfuRun s site e events)
  | none => answer s

/-- SFU_EXP (R127). -/
def execSfuExp (site : Site) (events : List RowEvent) (s : State) : Answer := sfuStep 0 site events s
/-- SFU_LOG (R127). -/
def execSfuLog (site : Site) (events : List RowEvent) (s : State) : Answer := sfuStep 1 site events s
/-- SFU_RCP (R127). -/
def execSfuRcp (site : Site) (events : List RowEvent) (s : State) : Answer := sfuStep 2 site events s
/-- SFU_RSQ (R127). -/
def execSfuRsq (site : Site) (events : List RowEvent) (s : State) : Answer := sfuStep 3 site events s
/-- SFU_SIN (R127). -/
def execSfuSin (site : Site) (events : List RowEvent) (s : State) : Answer := sfuStep 4 site events s
/-- SFU_COS (R127). -/
def execSfuCos (site : Site) (events : List RowEvent) (s : State) : Answer := sfuStep 5 site events s
/-- SFU_ERF (R127). -/
def execSfuErf (site : Site) (events : List RowEvent) (s : State) : Answer := sfuStep 6 site events s

end Sys2Proof.Machine
end

