-- ==== Sys2Proof/Machine/Sampler.lean ====
section
/-! DEFINITION. The choice of a token from logits, and log-probabilities (R303 to R305, R319). Values are FP32 words. -/
namespace Sys2Proof.Machine
open Sys2Proof

/-- A correctly rounded function of R127 in FP32: 0 EXP, 1 LOG, 2 RCP. -/
def fnFP32 (func w : Nat) : Nat := (sfuValue func (convert (.flt fmtFP32) false .nearest) (ofFP32 w)).bits

def mulFP32 (a b : Nat) : Nat := toFP32 ((ofFP32 a).mul (ofFP32 b))
def subFP32 (a b : Nat) : Nat := toFP32 ((ofFP32 a).add (ofFP32 b).neg)

/-- The quotient of two positive finite FP32 values, rounded to nearest even: enough bits and a sticky bit below them decide the rounding. -/
def divFP32 (a b : Nat) : Nat :=
  match ofFP32 a, ofFP32 b with
  | .fin _ ma ea, .fin _ mb eb =>
    if mb = 0 ∨ ma = 0 then 0
    else
      let n := ma * 2 ^ 64
      toFP32 (.fin false (2 * (n / mb) + boolNat (n % mb ≠ 0)) (ea - eb - 65))
  | _, _ => 0

def finiteFP32 (w : Nat) : Bool := (ofFP32 w).isFinite

/-- A value for comparison: the two zeros are equal. -/
def orderVal (w : Nat) : Val := if (ofFP32 w).isZero then .fin false 0 0 else ofFP32 w

/-- Whether logit x with id i comes before logit y with id j: larger first, equal ones by ascending id. -/
def ranksBefore (x y : Nat × Nat) : Bool :=
  if (orderVal y.2).le (orderVal x.2) then (if (orderVal x.2).le (orderVal y.2) then decide (x.1 ≤ y.1) else true) else false

def rankInsert (x : Nat × Nat) : List (Nat × Nat) → List (Nat × Nat)
  | [] => [x]
  | y :: ys => if ranksBefore x y then x :: y :: ys else y :: rankInsert x ys

/-- Ids with their values, by value descending and equal values by ascending id. -/
def ranked (zs : List Nat) : List (Nat × Nat) := (zs.zipIdx.map fun p => (p.2, p.1)).foldr rankInsert []

/-- The running sums of a list of FP32 terms. -/
def runningSums (sum : Nat) : List Nat → List Nat
  | [] => []
  | e :: es => addFP32 sum e :: runningSums (addFP32 sum e) es

def gtFP32 (a b : Nat) : Bool := !(orderVal a).le (orderVal b)

/-- The weights e[i] of ranked logits and their running sums cum[i]. -/
def weights (c : List (Nat × Nat)) : List Nat × List Nat :=
  let top := (c.headD (0, 0)).2
  let e := c.map fun p => fnFP32 0 (subFP32 p.2 top)
  (e, runningSums 0 e)

/-- ln(e[i] / cum[k]) of rank i among the first k + 1 (R305). -/
def logProb (e cum : List Nat) (i k : Nat) : Nat := fnFP32 1 (divFP32 (e.getD i 0) (cum.getD k 0))

/-- The log-probability of a token in the full vocabulary at temperature 1 (R305). -/
def fullLogProb (z : List Nat) (token : Nat) : Nat :=
  let c := ranked z
  let (e, cum) := weights c
  logProb e cum ((findPos (fun p => decide (p.1 = token)) c).getD 0) (z.length - 1)

/-- A token and its log-probability from logits z (R303); none for NUMERIC (R304). `u` is the 24-bit draw. -/
def sampleToken (z : List Nat) (temp topP topK u : Nat) : Option (Nat × Nat) :=
  if (ofFP32 temp).isZero then
    if z.all finiteFP32 then
      let t := ((ranked z).headD (0, 0)).1
      some (t, fullLogProb z t)
    else none
  else
    let r := fnFP32 2 temp
    let s := z.map fun x => mulFP32 x r
    if !s.all finiteFP32 then none
    else
      let c := (ranked s).take (if topK = 0 ∨ z.length < topK then z.length else topK)
      let (e, cum) := weights c
      let n := c.length
      let lim := mulFP32 topP (cum.getD (n - 1) 0)
      let one := 0x3F800000
      let k := if gtFP32 one topP then (findPos (fun x => !gtFP32 lim x) cum).getD (n - 1) else n - 1
      let t := mulFP32 (toFP32 (.fin false u (-24))) (cum.getD k 0)
      let i := (findPos (fun x => gtFP32 x t) (cum.take (k + 1))).getD k
      some ((c.getD i (0, 0)).1, logProb e cum i k)

/-- The draw of an order's token: stream 0, the draw index in the step field, lane 0, and u as bits [63:40] (R303, R316). -/
def tokenDraw (seed : List Byte) (tag index : Nat) : Nat :=
  (ossilDraw (BitVec.ofNat 64 (leAt seed 0 8)) (BitVec.ofNat 64 (leAt seed 8 8)) (BitVec.ofNat 64 tag) (BitVec.ofNat 64 index)).toNat / 2 ^ 40

end Sys2Proof.Machine
end

