-- ==== Sys2Proof/Machine/Digest.lean ====
section
/-! DEFINITION. SHAKE256 and SHA3-512 (the Keccak-f[1600] sponge of FIPS 202) and CRC-32C, which the spec names without defining (log entry 23). -/
namespace Sys2Proof.Machine
open Sys2Proof

/-- A 64-bit lane rotated left. -/
def rot64 (x n : Nat) : Nat := ((x <<< n) ||| (x >>> (64 - n))) % 2 ^ 64

/-- The rotation of each lane, lane x + 5y. -/
def keccakRot : List Nat :=
  [0, 1, 62, 28, 27, 36, 44, 6, 55, 20, 3, 10, 43, 25, 39] ++ [41, 45, 15, 21, 8, 18, 2, 61, 56, 14]

def keccakConst : List Nat :=
  [0x0000000000000001, 0x0000000000008082, 0x800000000000808A, 0x8000000080008000, 0x000000000000808B, 0x0000000080000001,
   0x8000000080008081, 0x8000000000008009, 0x000000000000008A, 0x0000000000000088, 0x0000000080008009, 0x000000008000000A] ++
  [0x000000008000808B, 0x800000000000008B, 0x8000000000008089, 0x8000000000008003, 0x8000000000008002, 0x8000000000000080,
   0x000000000000800A, 0x800000008000000A, 0x8000000080008081, 0x8000000000008080, 0x0000000080000001, 0x8000000080008008]

/-- One round of Keccak-f[1600]. -/
def keccakRound (a : List Nat) (rc : Nat) : List Nat :=
  let l (s : List Nat) (x y : Nat) : Nat := s.getD (x % 5 + 5 * (y % 5)) 0
  let c := (List.range 5).map fun x => l a x 0 ^^^ l a x 1 ^^^ l a x 2 ^^^ l a x 3 ^^^ l a x 4
  let d := (List.range 5).map fun x => c.getD ((x + 4) % 5) 0 ^^^ rot64 (c.getD ((x + 1) % 5) 0) 1
  let t := (List.range 25).map fun i => rot64 (a.getD i 0 ^^^ d.getD (i % 5) 0) (keccakRot.getD i 0)
  -- lane (x, y) of the permuted state comes from lane (x + 3y, x)
  let b := (List.range 25).map fun i => l t (i % 5 + 3 * (i / 5)) (i % 5)
  (List.range 25).map fun i =>
    let x := i % 5
    let y := i / 5
    let v := l b x y ^^^ ((2 ^ 64 - 1 - l b (x + 1) y) &&& l b (x + 2) y)
    if i = 0 then v ^^^ rc else v

def keccakF (a : List Nat) : List Nat := keccakConst.foldl keccakRound a

/-- One block absorbed. -/
def absorbBlock (a : List Nat) (block : List Byte) : List Nat :=
  keccakF ((List.range 25).map fun i => a.getD i 0 ^^^ leAt block (8 * i) 8)

def absorbAll (rate : Nat) : Nat → List Nat → List Byte → List Nat
  | 0, a, _ => a
  | n + 1, a, bs => absorbAll rate n (absorbBlock a (bs.take rate)) (bs.drop rate)

def squeeze (rate : Nat) : Nat → List Nat → List Byte
  | 0, _ => []
  | n + 1, a => ((a.flatMap fun x => leBytes 8 x).take rate) ++ squeeze rate n (keccakF a)

/-- The sponge of a message with a domain byte. -/
def keccak (rate suffix out : Nat) (m : List Byte) : List Byte :=
  let n := m.length / rate + 1
  let p := m ++ [BitVec.ofNat 8 suffix] ++ zeros (n * rate - m.length - 1)
  let p := splice p (n * rate - 1) [p.getD (n * rate - 1) 0 ||| 0x80]
  (squeeze rate (ceilDiv out rate) (absorbAll rate n (List.replicate 25 0) p)).take out

/-- The SHAKE256 digest with a 256-bit output. -/
def shake256 (m : List Byte) : List Byte := keccak 136 0x1F 32 m

def sha3_512 (m : List Byte) : List Byte := keccak 72 0x06 64 m

/-- One bit of CRC-32C, reflected. -/
def crcBits : Nat → Nat → Nat
  | 0, c => c
  | n + 1, c => crcBits n (if c % 2 = 1 then (c / 2) ^^^ 0x82F63B78 else c / 2)

/-- CRC-32C of a byte string. -/
def crc32c (m : List Byte) : Nat := (m.foldl (fun c b => crcBits 8 (c ^^^ b.toNat)) 0xFFFFFFFF) ^^^ 0xFFFFFFFF

end Sys2Proof.Machine
end

