-- ==== Sys2Proof/Machine/Journal.lean ====
section
/-! DEFINITION. The journal: records, their bytes, the ring's space, retirement, epochs, compaction and the host stream (R324 to R331). -/
namespace Sys2Proof.Machine
open Sys2Proof

/-! ## The mode in force -/

/-- Whether the mode in force acts as SOLO: it is SOLO, or the pair state exchanges no stream (R511, R518). -/
def twinSolo (s : State) : Bool :=
  decide (s.twin.mode = 0) || match s.twin.st with
    | .syncing => false
    | .paired => false
    | .suspect => false
    | _ => true

/-- Whether this member homes region r (R509): always in SOLO, else by bit r of 0x4800:08. -/
def homed (s : State) (r : Nat) : Bool :=
  twinSolo s || match s.twin.member with
    | some m => decide (boolNat (bitAt (dget s 0x4800 0x08) r) = m)
    | none => true

/-! ## Records -/

/-- A payload's length padded to a multiple of 8. -/
def pad8 (n : Nat) : Nat := ceilDiv n 8 * 8

def jSize (r : JRecord) : Nat := 24 + pad8 r.payload.length

/-- A record's bytes (R325). -/
def jBytes (r : JRecord) : List Byte :=
  let head := leBytes 8 r.time ++ leBytes 8 r.seq ++ [r.type, r.region] ++ leBytes 2 r.payload.length
  head ++ leBytes 4 (crc32c (head ++ r.payload)) ++ r.payload ++ zeros (pad8 r.payload.length - r.payload.length)

def jCap (s : State) : Nat := dnum s 0x3600 0x0A * 2 ^ 20

def jUsed (s : State) : Nat := (s.journal.entries.map fun e => jSize e.record).foldl (· + ·) 0

/-- Whether a record of `n` payload bytes fits, with or without the reserve of R329. -/
def jRoom (s : State) (n : Nat) (reserve : Bool) : Bool :=
  !s.journal.lost &&
  decide (jUsed s + 24 + pad8 n ≤ if reserve then jCap s else jCap s - jCap s / 64)

/-- Whether a record is retired (R328). A STEP_DIGEST belongs to the region's orders that were accepted before it. -/
def jRetired (s : State) (e : JEntry) : Bool :=
  let t := e.record.type.toNat
  let closed := decide (t = 6 ∨ t = 9) || match e.tag with
    | some tag => !s.orders.any fun o => decide (o.tag = tag)
    | none => !s.orders.any fun o => decide (o.region = e.record.region.toNat ∧ o.accepted ≤ e.record.time)
  let twin := twinSolo s || decide (e.record.seq < s.journal.partnerAcked)
  let host := (dget s 0x3600 0x0D).getD 16 0 = 0 || (s.journal.hostAcked && decide (e.record.seq ≤ dnum s 0x3600 0x0E))
  closed && twin && host

/-- The retired records at the tail leave the ring. -/
def jTrim (s : State) : State :=
  { s with journal := { s.journal with entries := s.journal.entries.dropWhile (jRetired s) } }

/-- The sequence number of the oldest record not retired. -/
def jTail (s : State) : Nat := match s.journal.entries.find? fun e => !jRetired s e with
  | some e => e.record.seq
  | none => s.journal.next

/-- A record appended with the next sequence number; outside SOLO it goes on the twin stream (R325, R512). -/
def jPut (s : State) (type region : Nat) (tag : Option (BitVec 32)) (payload : List Byte) : State :=
  let r : JRecord := ⟨now s, s.journal.next, BitVec.ofNat 8 type, BitVec.ofNat 8 region, payload⟩
  let s := { s with journal := { s.journal with entries := s.journal.entries ++ [⟨r, tag, dget s 0x3600 0x03, false⟩], next := s.journal.next + 1 } }
  if twinSolo s then s else emit s (.twin 0x10 s.journal.epoch (jBytes r))

/-- The EPOCH record of an epoch that opens (R330). -/
def jEpoch (s : State) (n : Nat) : State :=
  let s := { s with journal := { s.journal with epoch := n, epochAt := now s, period := dnum s 0x3600 0x0C } }
  jPut s 9 0xFF none (leBytes 8 n ++ leBytes 8 s.journal.next)

/-- The journal starts with epoch 0: at ENTER_SERVICE, or with an earlier record (R330, log entry 48). -/
def jStart (s : State) : State :=
  if s.journal.started then s else jEpoch { s with journal := { s.journal with started := true } } 0

/-- A record appended to a journal that has started. -/
def jAppend (s : State) (type region : Nat) (tag : Option (BitVec 32)) (payload : List Byte) : State := jPut (jStart s) type region tag payload

/-- EPOCH_OPEN (R330, R350): by F0's local counter a multiple of the epoch period has come. -/
def execEpochOpen (s : State) : Answer :=
  let j := s.journal
  let t := unitTime s 11000
  guarded (j.started && decide (0 < j.period ∧ (j.epochAt / j.period + 1) * j.period ≤ t) && jRoom s 16 true) s
    (let s := jEpoch (jTrim s) (j.epoch + 1)
     { s with journal := { s.journal with epochAt := max t (now s) } })

/-- JOURNAL_COMPACTION (R328): below one eighth free, the unretired records move to the head and the rest is freed. -/
def execJournalCompaction (s : State) : Answer :=
  guarded (decide (jCap s - jUsed s < jCap s / 8)) s
    { s with journal := { s.journal with entries := s.journal.entries.filter fun e => !jRetired s e },
             maint := s.maint.filter fun m => decide (m.activity ≠ 5 ∨ m.running = false) }

/-! ## Queue pairs and the host stream (R331, R419) -/

def QueuePair.none : QueuePair := { session := 0, error := false, retries := 0 }

def qpOf (s : State) (qp : Nat) : QueuePair := mget QueuePair.none s.qps qp
def setQp (s : State) (qp : Nat) (q : QueuePair) : State := { s with qps := mset QueuePair.none s.qps qp q }

/-- An operation on the queue pair ended well: its retry count starts anew. -/
def qpProgress (s : State) (qp : Nat) : State := if qpOf s qp = QueuePair.none then s else setQp s qp { qpOf s qp with retries := 0 }

/-- The queue pairs of a session, ascending. -/
def sessionQps (s : State) (session : Nat) : List Nat := (s.qps.filter fun q => decide (q.2.session = session)).map (·.1)

/-- The data queue pair of a session: its lowest-numbered one (R419). -/
def dataQp (s : State) (session : Nat) : Option Nat := (sessionQps s session).head?

def qpOk (s : State) (qp : Nat) : Bool := match s.qps.find? fun q => decide (q.1 = qp) with
  | some q => !q.2.error
  | none => false

/-- The queue pair that carries the host stream: the data queue pair of the lowest open session (log entry 24). -/
def streamQp (s : State) : Option Nat := s.sessions.findSome? fun x => dataQp s x.1

/-- A write into a ring of `len` bytes at `pos`, split at its end. -/
def ringWrites (addr len pos : Nat) (bytes : List Byte) : List (Nat × List Byte) :=
  let o := pos % len
  if o + bytes.length ≤ len then [(addr + o, bytes)]
  else [(addr + o, bytes.take (len - o)), (addr, bytes.drop (len - o))]

/-- HOST_STREAM_WRITE (R331): the next record in sequence order, while the host's ring has room past its acknowledged sequence. -/
def execHostStreamWrite (s : State) : Answer :=
  let cfg := dget s 0x3600 0x0D
  let addr := leAt cfg 0 8
  let len := leAt cfg 12 4
  let held (e : JEntry) : Bool := s.journal.hostAcked && decide (e.record.seq ≤ dnum s 0x3600 0x0E)
  match s.journal.entries.find? fun e => !e.streamed, streamQp s with
  | some e, some qp =>
    let ahead := (s.journal.entries.filter fun x => decide (x.record.seq ≤ e.record.seq) && !held x).map fun x => jSize x.record
    guarded (decide (cfg.getD 16 0 = 1 ∧ 0 < len ∧ ahead.foldl (· + ·) 0 ≤ len) && qpOk s qp) s
      (let s := (ringWrites addr len s.journal.streamedTo (jBytes e.record)).foldl (fun s w =>
         emit s (.rdmaWrite qp (BitVec.ofNat 64 w.1) (BitVec.ofNat 32 (leAt cfg 8 4)) w.2)) s
       { s with journal := { s.journal with
           entries := s.journal.entries.map fun x => if x.record.seq = e.record.seq then { x with streamed := true } else x,
           streamedTo := s.journal.streamedTo + jSize e.record } })
  | _, _ => answer s

end Sys2Proof.Machine
end

