-- ==== Sys2Proof/Machine/OrderBase.lean ====
section
/-! DEFINITION. Hood manifests, work-order records, rings, held results and the closing of an order (R272, R289 to R295, R306, R307, R422 to R425). -/
namespace Sys2Proof.Machine
open Sys2Proof

/-- The digest of a manifest (0x3200:10, R326). -/
def manifestDigest (s : State) (id : Nat) : List Byte := shake256 (manifest s id)

/-! ## Work orders (R295) -/

def recKind (b : List Byte) : Nat := leAt b 4 1
def recFlags (b : List Byte) : Nat := leAt b 5 1
def recStream (b : List Byte) : Bool := (recFlags b).testBit 0
def recLogprob (b : List Byte) : Bool := (recFlags b).testBit 1
def recHasPrefix (b : List Byte) : Bool := (recFlags b).testBit 2
def recRegion (b : List Byte) : Nat := leAt b 6 1
def recRing (b : List Byte) : Nat := leAt b 7 1
def recAdapter (b : List Byte) : Nat := leAt b 10 2
def recContext (b : List Byte) : Nat := leAt b 12 4
def recMaxNew (b : List Byte) : Nat := leAt b 28 4
def recTemp (b : List Byte) : Nat := leAt b 32 4
def recTopP (b : List Byte) : Nat := leAt b 36 4
def recTopK (b : List Byte) : Nat := leAt b 40 2
def recTarget (b : List Byte) : BitVec 32 := BitVec.ofNat 32 (leAt b 44 4)
def recStops (b : List Byte) : List Nat := [leAt b 48 4, leAt b 52 4, leAt b 56 4, leAt b 60 4].filter fun x => decide (x ≠ 0xFFFFFFFF)
def recSeed (b : List Byte) : List Byte := slice b 64 16
def recResAddr (b : List Byte) : Nat := leAt b 80 8
def recResKey (b : List Byte) : Nat := leAt b 88 4
def recResLen (b : List Byte) : Nat := leAt b 92 4
/-- SCORE's continuation length. -/
def recCont (b : List Byte) : Nat := if recKind b = 3 then leAt b 96 4 else 0
/-- RUN's step count. -/
def recSteps (b : List Byte) : Nat := leAt b 96 4
def recArgs (b : List Byte) : List Byte := slice b 100 28

def findOrder (s : State) (tag : BitVec 32) : Option Order := s.orders.find? fun o => decide (o.tag = tag)

def modOrder (s : State) (tag : BitVec 32) (f : Order → Order) : State :=
  { s with orders := s.orders.map fun o => if o.tag = tag then f o else o }

def dropOrder (s : State) (tag : BitVec 32) : State := { s with orders := s.orders.filter fun o => decide (o.tag ≠ tag) }

/-- The orders of a region, open and retained. -/
def regionOrders (s : State) (r : Nat) : List Order := s.orders.filter fun o => decide (o.region = r)

/-- An order that is open but not retained. -/
def Order.isOpen (o : Order) : Bool := decide (o.state ≠ .retained)

/-! ## Completion entries (R307, R422 to R424) -/

def Ring.none : Ring := { desc := ⟨0, 0, 0, 0, 0, false⟩, written := 0, consumer := 0, due := [], lastRead := Option.none, bad := false }

def ringOf (s : State) (n : Nat) : Ring := mget Ring.none s.rings n
def setRing (s : State) (n : Nat) (r : Ring) : State := { s with rings := mset Ring.none s.rings n r }

/-- A completion entry without its generation bit (R423). -/
def entryBytes (tag : BitVec 32) (type status odp count ringIdx step region : Nat) : List Byte :=
  leBytes 4 tag.toNat ++ leBytes 1 type ++ leBytes 1 status ++ leBytes 2 odp ++ leBytes 4 count ++ leBytes 4 ringIdx ++
    leBytes 8 step ++ zeros 6 ++ leBytes 1 region ++ [0]

/-! ## The protocol-violation log (R430, R454) -/

def vNone : VEntry :=
  { time := 0, mac := 0, port := 0, repeats := 0, ip := 0, udp := 0, session := 0, status := 0, opcode := 0, detail := 0 }

/-- A violation logged: folded into the newest entry when it repeats it within 1 s, else a new slot of 256. -/
def vlogAdd (s : State) (e : VEntry) : State :=
  let l := s.vlog
  let at_ := (l.next + 255) % 256
  let old := mget vNone l.entries at_
  let l := { l with total := l.total + 1 }
  if 0 < l.held ∧ old.ip = e.ip ∧ old.session = e.session ∧ old.status = e.status ∧ old.opcode = e.opcode ∧ old.detail = e.detail ∧
      e.time ≤ old.time + 16000000000 then
    { s with vlog := { l with entries := mset vNone l.entries at_ { old with repeats := min 255 (old.repeats + 1) } } }
  else
    { s with vlog := { l with entries := mset vNone l.entries l.next e, held := min 256 (l.held + 1), next := (l.next + 1) % 256 } }

/-- A violation of RoCE v2, a doorbell or a discarded entry: opcode 0xFF, with the queue pair, address or doorbell word (R428, R430). -/
def vlogRoce (s : State) (session detail : Nat) : State :=
  vlogAdd s { vNone with time := now s, session := BitVec.ofNat 16 session, opcode := 0xFF, detail := BitVec.ofNat 64 detail }

/-- An entry and the result data that goes before it, put behind what its ring holds; a member that is not the front forwards them (R508; kind 0 of log entry 45). An entry of a ring that is gone is discarded; one whose queue pair is in error is discarded and logged (R420). -/
def ringPush (s : State) (ring : Nat) (entry : List Byte) (data : List (Nat × Nat × List Byte)) : State :=
  if twinSolo s || s.twin.front then
    let r := ringOf s ring
    if r = Ring.none then s
    else if r.bad then vlogRoce s (ring / 16 + 1) r.desc.qp.toNat
    else setRing s ring { r with due := r.due ++ [(entry, data)] }
  else emit s (.twin 0x30 s.journal.epoch ([0] ++ leBytes 2 ring ++ entry ++ data.flatMap fun d => leBytes 8 d.1 ++ leBytes 4 d.2.1 ++ leBytes 4 d.2.2.length ++ d.2.2))

/-- Tokens or elements an order has written. -/
def resultCount (o : Order) : Nat := if recKind o.record = 1 then o.generated.length else if recKind o.record = 3 ∨ recKind o.record = 4 then o.resultBytes.length / 4 else o.resultBytes.length

/-- The result buffer's pieces from token or byte position `from_` on (R306). -/
def resultPieces (o : Order) (from_ : Nat) : List (Nat × List Byte) :=
  if recKind o.record = 1 then
    let toks := (o.generated.drop from_).flatMap fun t => leBytes 4 t.toNat
    let lps := if recLogprob o.record then [(4 * recMaxNew o.record + 4 * from_, o.resultBytes.drop (4 * from_))] else []
    ((4 * from_, toks) :: lps).filter fun p => decide (p.2 ≠ [])
  else [(from_, o.resultBytes.drop from_)].filter fun p => decide (p.2 ≠ [])

/-- The RDMA writes of an order's pieces; a held result has none. -/
def resultWrites (o : Order) (from_ : Nat) : List (Nat × Nat × List Byte) :=
  if recResKey o.record = 0 then [] else (resultPieces o from_).map fun p => (recResAddr o.record + p.1, recResKey o.record, p.2)

/-- The whole result as the bytes of a held slot. -/
def resultImage (o : Order) : List Byte :=
  (resultPieces o 0).foldl (fun b p => b ++ zeros (p.1 - b.length) ++ p.2) []

/-! ## Held results (R425) -/

def heldOf (s : State) (i : Nat) : HeldSlot := mget HeldSlot.reset s.heldResults i
def setHeld (s : State) (i : Nat) (h : HeldSlot) : State := { s with heldResults := mset HeldSlot.reset s.heldResults i h }

/-- The slot that a tag's result is held in, pending or ready. -/
def heldSlotOf (s : State) (tag : BitVec 32) : Option Nat :=
  (s.heldResults.find? fun h => decide (h.2.tag = tag ∧ (h.2.state = 1 ∨ h.2.state = 2))).map (·.1)

/-- The lowest slot that is empty or released. -/
def heldFree (s : State) : Option Nat := (List.range 4096).find? fun i => decide ((heldOf s i).state = 0 ∨ (heldOf s i).state = 3)

/-- A slot taken for an order: a released one is zero-filled and its reuse count advances. -/
def heldTake (s : State) (i : Nat) (tag : BitVec 32) : State :=
  let h := heldOf s i
  setHeld s i { HeldSlot.reset with state := 1, tag := tag, reuse := if h.state = 3 then h.reuse + 1 else h.reuse }

/-! ## KV pool and adapter cache of an order -/

/-- The home field of a region: that of its lowest logical cluster (R275). -/
def homeField (s : State) (r : Nat) : Nat := (regionLcs s r).headD 0 / 15

/-- A field's order engine as an HBM requestor on behalf of a region, or of none with 0xFF (R269, R467). -/
def engineReq (n r : Nat) : HbmReq := ⟨1, 0x010 + n, r⟩

/-- A field's Fuller as an HBM requestor (R269, R467). -/
def fullerReq (n r : Nat) : HbmReq := ⟨2, 0x030 + n, r⟩

/-- The pages that an order shares with its prefix: those that its prefix had stored (R299). -/
def sharedPages (o : Order) : Nat := o.prefixTokens.length / 64

/-- An order's open slot. -/
def openAt (o : Order) : Nat := (o.slots.headD (0, 0)).1

/-- The stored slot of an order's own page p (R294). -/
def storedAt (o : Order) (p : Nat) : Option Nat := (o.slots[1 + p - sharedPages o]?).map (·.1)

/-- The slot ranges of an order's own pages. -/
def orderRanges (s : State) (o : Order) : List Range :=
  let m := manifest s (recHood o.record)
  (o.pages.filter fun p => peValid p.2 && !peShared p.2).map fun p => (peAddr p.2, if peOpen p.2 then openSlot m else storedSlot m)

/-- The ranges of a region's pool that its orders have committed, and that prefixes still mapped occupy (R294, R297). -/
def kvUsed (s : State) (r : Nat) : List Range :=
  (regionOrders s r).flatMap (·.slots) ++ (regionOf s r).orphans.flatMap (·.2)

/-- Whether two ranges share a byte. -/
def rangesMeet (a b : Range) : Bool := decide (a.1 < b.1 + b.2 ∧ b.1 < a.1 + a.2)

/-- The lowest start in [lo, hi) of `n` free bytes, 4 KiB aligned (log entry 12). -/
def lowestFree (lo hi n : Nat) (used : List Range) : Option Nat :=
  let up (a : Nat) : Nat := ceilDiv a 4096 * 4096
  let starts := up lo :: used.map fun u => up (u.1 + u.2)
  let ok := starts.filter fun a => decide (lo ≤ a ∧ a + n ≤ hi) && !(used.any fun u => rangesMeet (a, n) u)
  match ok with
  | [] => none
  | a :: as => some (as.foldl min a)

/-- Slots of given sizes placed in a pool, each at its lowest free start; none when the pool cannot take them all (R294). -/
def placeSlots (pool : Range) : List Range → List Nat → Option (List Range)
  | _, [] => some []
  | used, n :: ns => match lowestFree pool.1 (pool.1 + pool.2) n used with
    | none => none
    | some a => (placeSlots pool ((a, n) :: used) ns).map fun rs => (a, n) :: rs

/-- Whether an order maps a slot of its prefix, or will when its context lands (R297, R299). -/
def mapsSlot (o : Order) (r : Range) : Bool :=
  (o.pages ++ (if o.landed then [] else o.prefixPages)).any fun p => peValid p.2 && decide (peAddr p.2 = r.1)

/-- The slots among those of a closed prefix that orders still map. -/
def keepMapped (s : State) (rs : List Range) : List Range := rs.filter fun x => s.orders.any fun o => mapsSlot o x

def rangeBytes (rs : List Range) : Nat := (rs.map (·.2)).foldl (· + ·) 0

/-- The slots of closed prefixes that no order maps any longer return to their region's pool (R297). -/
def settleOrphans (s : State) : State :=
  (List.range 64).foldl (fun s r =>
    let old := (regionOf s r).orphans
    if old.isEmpty then s
    else
      let left := (old.map fun p => (p.1, keepMapped s p.2)).filter fun p => decide (p.2 ≠ [])
      modRegion s r fun g =>
        { g with orphans := left, kvCommitted := g.kvCommitted - (rangeBytes (old.flatMap (·.2)) - rangeBytes (left.flatMap (·.2))) }) s

/-- The adapter reservations of an order end (R287). -/
def releaseAdapter (s : State) (tag : BitVec 32) : State :=
  { s with caches := s.caches.map fun c => { c with holders := c.holders.filter fun t => decide (t ≠ tag) } }

/-! ## Closing (R297, R307) -/

/-- The counters of 0x3400 that a final entry advances (R308). -/
def countFinal (s : State) (status : Nat) : State :=
  if status < 0x10 then dcount s 0x3400 0x03 8 1
  else if status = 0x10 then dcount s 0x3400 0x05 8 1
  else dcount s 0x3400 0x06 8 1

/-- A delivery made: the held slot ready, then the data and the entry on their ring (R424, R425). -/
def applyDelivery (s : State) (d : Delivery) : State :=
  let s := match d.held with
    | some (i, status, bytes) => setHeld s i { heldOf s i with state := 2, status := BitVec.ofNat 8 status, valid := bytes.length, data := bytes }
    | none => s
  ringPush s d.ring d.entry d.data

/-- Whether a region's deliveries wait for the digest comparison (R308, R513). -/
def mirrored (s : State) (r : Nat) : Bool := !twinSolo s && decide (s.twin.mode = 3) && homed s r && (regionOf s r).protected_

/-- Whether a region's steps wait for the comparison of digests: not those under a twin cover (R513, R539). -/
def compared (s : State) (r : Nat) : Bool := mirrored s r && !(regionOf s r).cover

/-- Whether this member runs a region's steps as its shadow in MIRROR, and so holds its own outputs of them (R513, R519). -/
def shadowRuns (s : State) (r : Nat) : Bool :=
  !twinSolo s && decide (s.twin.mode = 3) && !homed s r && (regionOf s r).protected_ && !(regionOf s r).cover

def withhold (s : State) (d : Delivery) : State := { s with twin := { s.twin with withheld := s.twin.withheld ++ [d] } }

/-- A delivery of a step: withheld in MIRROR until both digests agree. A shadow's is withheld for the case that it adopts the region (DEDUCED, log entry 161), and a replay's goes nowhere. -/
def deliver (s : State) (hold : Bool) (d : Delivery) : State :=
  if d.order.shadowOnly then (if hold && shadowRuns s d.region then withhold s d else s)
  else if hold && compared s d.region then withhold s d
  else applyDelivery s d

/-- The comparisons of some regions are given up, with what was kept for them. -/
def dropCompared (s : State) (mine : Nat → Bool) : State :=
  { s with twin := { s.twin with
    withheld := s.twin.withheld.filter (fun d => !mine d.region), digests := s.twin.digests.filter (fun d => !mine d.1),
    ownDigests := s.twin.ownDigests.filter (fun d => !mine d.1), mismatched := s.twin.mismatched.filter (fun m => !mine m.1),
    refereed := s.twin.refereed.filter (fun x => !mine x.region), stepStart := s.twin.stepStart.filter (fun p => !mine p.2.region) } }

/-- What a home member withheld for a comparison that no longer comes is delivered; a shadow's is dropped (log entry 161). -/
def deliverWithheld (s : State) (mine : Nat → Bool) : State :=
  (s.twin.withheld.filter fun d => mine d.region && homed s d.region).foldl applyDelivery (dropCompared s mine)

/-- What an order's entry of a status carries. -/
def deliveryOf (o : Order) (status step from_ : Nat) (final : Bool) : Delivery :=
  let held := match o.heldSlot with
    | some i => if final then some (i, status, resultImage o) else none
    | none => none
  { region := o.region, step := step, tag := o.tag, ring := recRing o.record,
    entry := entryBytes o.tag 0 status 0 (resultCount o) 0 step o.region, data := resultWrites o from_, held := held, order := o }

/-- Whether an order's steps produce tokens that STREAM entries report (R307). -/
def streams (o : Order) : Bool := recStream o.record && decide (recKind o.record = 1)

/-- The result position from which a final entry still has data to write: a STREAM order's earlier entries have written theirs. -/
def finalFrom (o : Order) (before : Nat) : Nat := if streams o then before else 0

/-- An order leaves: its pages, its commitment and its reservations are released. -/
def forgetOrder (s : State) (o : Order) : State :=
  let s := releaseAdapter (dropOrder s o.tag) o.tag
  settleOrphans (modRegion s o.region fun g =>
    { g with kvCommitted := g.kvCommitted - o.committed, recovering := g.recovering.filter fun t => decide (t ≠ o.tag) })

/-- A prefix leaves: its pages that orders map stay in the pool, and committed, until none maps them (R297). -/
def forgetPrefix (s : State) (o : Order) : State :=
  let pages := orderRanges s o
  let s := forgetOrder s o
  let left := keepMapped s pages
  if left = [] then s
  else modRegion s o.region fun g => { g with orphans := g.orphans ++ [(o.tag, left)], kvCommitted := g.kvCommitted + rangeBytes left }

/-- The CANCEL_EFFECT record (R300, R326). -/
def cancelEffect (s : State) (r : Nat) (target : BitVec 32) (step : Nat) (none_ : Bool) : State :=
  jAppend s 5 r (some target) (leBytes 4 target.toNat ++ leBytes 8 step ++ leBytes 1 (boolNat none_))

/-- A target ends by itself before its CANCEL takes effect at the next batch close: the CANCEL does nothing (R300). -/
def cancelLapsed (s : State) (o : Order) : State :=
  if o.cancelPending && !o.shadowOnly then cancelEffect s o.region o.tag ((regionOf s o.region).stepNo + 1) true else s

/-- An order closes with a final status: CLOSE record, completion, counters (R307, R326). `before` is the result already written by STREAM entries, and `hold` whether the end is a step's and so waits for MIRROR's comparison. A replayed order of VERIFY and a shadow's order write nothing. -/
def closeOrder (s : State) (o : Order) (status step before : Nat) (hold : Bool) : State :=
  let s := if status = 0x10 then s else cancelLapsed s o
  let s := if o.shadowOnly then s else jAppend s 7 o.region (some o.tag) (leBytes 4 o.tag.toNat ++ leBytes 4 status ++ leBytes 8 step)
  let s := deliver (if o.shadowOnly then s else countFinal s status) hold (deliveryOf o status step (finalFrom o before) true)
  let s := if status = 0x20 ∨ status = 0x21 ∨ status = 0x22 then
      record s 0x0702 o.region 0xFFFF 0 (leBytes 4 o.tag.toNat ++ leBytes 4 status) else s
  jTrim (forgetOrder s o)

/-- A PREFILL order's work is done: its entry is written and it is retained (R297). -/
def retainOrder (s : State) (o : Order) (step : Nat) : State :=
  let s := deliver (if o.shadowOnly then s else countFinal s 3) true (deliveryOf o 3 step 0 true)
  modOrder (cancelLapsed s o) o.tag fun o => { o with state := .retained, cancelPending := false }

/-- A retained prefix closes on CANCEL: its final entry was written before; its pages stay while an order maps them (R297). -/
def closeRetained (s : State) (o : Order) (status step : Nat) : State :=
  let s := if o.shadowOnly then s else jAppend s 7 o.region (some o.tag) (leBytes 4 o.tag.toNat ++ leBytes 4 status ++ leBytes 8 step)
  jTrim (forgetPrefix s o)

/-- A request that waits for the partner is refused: it does not take effect and is answered 0xA401 (R264, R278). -/
def refusedRequest (d : Deferred) : Deferred :=
  { d with response := { d.response with status := 0xA401, payload := [] }, writes := [], fetch := none,
           ringEntry := d.ringEntry.map fun x => (x.1, splice (splice x.2 4 [2]) 6 (leBytes 2 0xA401)) }

/-- An order whose SUBMIT is refused before its answer: it leaves without an entry or a record, and its held slot is empty again (R324). -/
def refuseOrder (s : State) (o : Order) : State :=
  let s := match o.heldSlot with
    | some i => setHeld s i { HeldSlot.reset with reuse := (heldOf s i).reuse }
    | none => s
  let s := { s with journal := { s.journal with entries := s.journal.entries.filter fun e => decide (e.tag ≠ some o.tag) } }
  forgetOrder { s with deferred := s.deferred.map fun d => if d.fetch = some o.tag then refusedRequest d else d } o

/-- Whether an order's SUBMIT still waits for its answer. -/
def unanswered (s : State) (o : Order) : Bool := s.deferred.any fun d => decide (d.fetch = some o.tag)

end Sys2Proof.Machine
end

