-- ==== Sys2Proof/Machine/Scalar.lean ====
section
/-! DEFINITION. The scalar cores: arithmetic, control transfer, the row latch, queue pushes, semaphores and system instructions (R99 to R108, R617). -/
namespace Sys2Proof.Machine
open Sys2Proof

/-- A general register; g0 reads as zero (R99). -/
def greg (s : State) (site : Nat) (c : CoreId) (r : Reg) : Word64 :=
  if r = 0 then 0 else mget 0 (coreOf (tileOf s site) c).gregs r.val

/-- A general register written; g0 ignores writes (R99). -/
def setGreg (s : State) (site : Nat) (c : CoreId) (r : Reg) (v : Word64) : State :=
  if r = 0 then s else modCore s site c fun k => { k with gregs := mset 0 k.gregs r.val v }

/-- An instruction that writes `v` to rd and goes on to the next (R102). -/
def writeNext (s : State) (site : Nat) (c : CoreId) (rd : Reg) (v : Word64) : State :=
  seqNext (setGreg s site c rd v) site c

/-- A register instruction's answer: it issues when its core can. -/
def aluStep (site : Site) (core : CoreId) (rd : Reg) (v : Word64) (s : State) : Answer :=
  guarded (coreReady s site core) s (writeNext s site core rd v)

def boolWord (b : Bool) : Word64 := if b then 1 else 0

/-- Signed quotient toward zero; all ones for a divisor of zero, and −2⁶³ by −1 is −2⁶³ (R102). -/
def divSigned (a b : Word64) : Word64 := if b = 0 then BitVec.allOnes 64 else BitVec.ofInt 64 (a.toInt.tdiv b.toInt)

/-- Signed remainder with the sign of the dividend; the dividend for a divisor of zero (R102). -/
def remSigned (a b : Word64) : Word64 := if b = 0 then a else BitVec.ofInt 64 (a.toInt.tmod b.toInt)

def divUnsigned (a b : Word64) : Word64 := if b = 0 then BitVec.allOnes 64 else BitVec.ofNat 64 (a.toNat / b.toNat)

def remUnsigned (a b : Word64) : Word64 := if b = 0 then a else BitVec.ofNat 64 (a.toNat % b.toNat)

/-- The high 64 bits of an unsigned product (R102). -/
def mulHigh (a b : Word64) : Word64 := BitVec.ofNat 64 (a.toNat * b.toNat / 2 ^ 64)

/-- ADD (R102). -/
def execAdd (site : Site) (core : CoreId) (rd ra rb : Reg) (s : State) : Answer :=
  let x := greg s site core ra
  let y := greg s site core rb
  aluStep site core rd (x + y) s

/-- SUB (R102). -/
def execSub (site : Site) (core : CoreId) (rd ra rb : Reg) (s : State) : Answer :=
  let x := greg s site core ra
  let y := greg s site core rb
  aluStep site core rd (x - y) s

/-- AND (R102). -/
def execAnd (site : Site) (core : CoreId) (rd ra rb : Reg) (s : State) : Answer :=
  let x := greg s site core ra
  let y := greg s site core rb
  aluStep site core rd (x &&& y) s

/-- OR (R102). -/
def execOr (site : Site) (core : CoreId) (rd ra rb : Reg) (s : State) : Answer :=
  let x := greg s site core ra
  let y := greg s site core rb
  aluStep site core rd (x ||| y) s

/-- XOR (R102). -/
def execXor (site : Site) (core : CoreId) (rd ra rb : Reg) (s : State) : Answer :=
  let x := greg s site core ra
  let y := greg s site core rb
  aluStep site core rd (x ^^^ y) s

/-- SLL (R102). -/
def execSll (site : Site) (core : CoreId) (rd ra rb : Reg) (s : State) : Answer :=
  let x := greg s site core ra
  let y := greg s site core rb
  aluStep site core rd (x <<< (y.toNat % 64)) s

/-- SRL (R102). -/
def execSrl (site : Site) (core : CoreId) (rd ra rb : Reg) (s : State) : Answer :=
  let x := greg s site core ra
  let y := greg s site core rb
  aluStep site core rd (x >>> (y.toNat % 64)) s

/-- SRA (R102). -/
def execSra (site : Site) (core : CoreId) (rd ra rb : Reg) (s : State) : Answer :=
  let x := greg s site core ra
  let y := greg s site core rb
  aluStep site core rd (x.sshiftRight (y.toNat % 64)) s

/-- SLT (R102). -/
def execSlt (site : Site) (core : CoreId) (rd ra rb : Reg) (s : State) : Answer :=
  let x := greg s site core ra
  let y := greg s site core rb
  aluStep site core rd (boolWord (x.slt y)) s

/-- SLTU (R102). -/
def execSltu (site : Site) (core : CoreId) (rd ra rb : Reg) (s : State) : Answer :=
  let x := greg s site core ra
  let y := greg s site core rb
  aluStep site core rd (boolWord (x.ult y)) s

/-- MIN (R102). -/
def execMin (site : Site) (core : CoreId) (rd ra rb : Reg) (s : State) : Answer :=
  let x := greg s site core ra
  let y := greg s site core rb
  aluStep site core rd (if x.slt y then x else y) s

/-- MAX (R102). -/
def execMax (site : Site) (core : CoreId) (rd ra rb : Reg) (s : State) : Answer :=
  let x := greg s site core ra
  let y := greg s site core rb
  aluStep site core rd (if x.slt y then y else x) s

/-- MUL (R102). -/
def execMul (site : Site) (core : CoreId) (rd ra rb : Reg) (s : State) : Answer :=
  let x := greg s site core ra
  let y := greg s site core rb
  aluStep site core rd (x * y) s

/-- MULHU (R102). -/
def execMulhu (site : Site) (core : CoreId) (rd ra rb : Reg) (s : State) : Answer :=
  let x := greg s site core ra
  let y := greg s site core rb
  aluStep site core rd (mulHigh x y) s

/-- DIV (R102). -/
def execDiv (site : Site) (core : CoreId) (rd ra rb : Reg) (s : State) : Answer :=
  let x := greg s site core ra
  let y := greg s site core rb
  aluStep site core rd (divSigned x y) s

/-- DIVU (R102). -/
def execDivu (site : Site) (core : CoreId) (rd ra rb : Reg) (s : State) : Answer :=
  let x := greg s site core ra
  let y := greg s site core rb
  aluStep site core rd (divUnsigned x y) s

/-- REM (R102). -/
def execRem (site : Site) (core : CoreId) (rd ra rb : Reg) (s : State) : Answer :=
  let x := greg s site core ra
  let y := greg s site core rb
  aluStep site core rd (remSigned x y) s

/-- REMU (R102). -/
def execRemu (site : Site) (core : CoreId) (rd ra rb : Reg) (s : State) : Answer :=
  let x := greg s site core ra
  let y := greg s site core rb
  aluStep site core rd (remUnsigned x y) s

/-- ADDI (R102). -/
def execAddi (site : Site) (core : CoreId) (rd ra : Reg) (imm : BitVec 16) (s : State) : Answer :=
  let x := greg s site core ra
  aluStep site core rd (x + immS imm) s

/-- ANDI (R102). -/
def execAndi (site : Site) (core : CoreId) (rd ra : Reg) (imm : BitVec 16) (s : State) : Answer :=
  let x := greg s site core ra
  aluStep site core rd (x &&& immZ imm) s

/-- ORI (R102). -/
def execOri (site : Site) (core : CoreId) (rd ra : Reg) (imm : BitVec 16) (s : State) : Answer :=
  let x := greg s site core ra
  aluStep site core rd (x ||| immZ imm) s

/-- XORI (R102). -/
def execXori (site : Site) (core : CoreId) (rd ra : Reg) (imm : BitVec 16) (s : State) : Answer :=
  let x := greg s site core ra
  aluStep site core rd (x ^^^ immZ imm) s

/-- SLLI (R102). -/
def execSlli (site : Site) (core : CoreId) (rd ra : Reg) (imm : BitVec 16) (s : State) : Answer :=
  let x := greg s site core ra
  aluStep site core rd (x <<< (imm.toNat % 64)) s

/-- SRLI (R102). -/
def execSrli (site : Site) (core : CoreId) (rd ra : Reg) (imm : BitVec 16) (s : State) : Answer :=
  let x := greg s site core ra
  aluStep site core rd (x >>> (imm.toNat % 64)) s

/-- SRAI (R102). -/
def execSrai (site : Site) (core : CoreId) (rd ra : Reg) (imm : BitVec 16) (s : State) : Answer :=
  let x := greg s site core ra
  aluStep site core rd (x.sshiftRight (imm.toNat % 64)) s

/-- SLTI (R102). -/
def execSlti (site : Site) (core : CoreId) (rd ra : Reg) (imm : BitVec 16) (s : State) : Answer :=
  let x := greg s site core ra
  aluStep site core rd (boolWord (x.slt (immS imm))) s

/-- LUI: the sign-extended immediate shifted left by 16 (R102). -/
def execLui (site : Site) (core : CoreId) (rd : Reg) (imm : BitVec 16) (s : State) : Answer :=
  aluStep site core rd (immS imm <<< 16) s

/-- LHI: the high word takes the sign-extended immediate, the low word is kept (R102). -/
def execLhi (site : Site) (core : CoreId) (rd : Reg) (imm : BitVec 16) (s : State) : Answer :=
  aluStep site core rd (imm.signExtend 32 ++ (greg s site core rd).truncate 32) s

/-- A taken transfer to a target computed without wrapping; an invalid one traps with cause 3 at the transfer's address (R617). -/
def transfer (s : State) (site : Nat) (c : CoreId) (target : Int) : State :=
  let pc := (coreOf (tileOf s site) c).pc.toNat
  if 0 ≤ target ∧ validTarget target.toNat then modCore s site c fun k => { k with pc := BitVec.ofNat 16 target.toNat }
  else trapCore s site c 3 pc

/-- PC + 4 × offset (R101, R617). -/
def relative (s : State) (site : Nat) (c : CoreId) (off : Int) : Int :=
  ((coreOf (tileOf s site) c).pc.toNat : Int) + 4 * off

/-- A branch: taken to PC + 4 × off16 when its comparison holds (R102, R617). -/
def branchStep (site : Site) (core : CoreId) (taken : Bool) (off : BitVec 16) (s : State) : Answer :=
  guarded (coreReady s site core) s
    (if taken then transfer s site core (relative s site core off.toInt) else seqNext s site core)

/-- BEQ (R102). -/
def execBeq (site : Site) (core : CoreId) (ra rb : Reg) (off : BitVec 16) (s : State) : Answer :=
  let x := greg s site core ra
  let y := greg s site core rb
  branchStep site core (decide (x = y)) off s

/-- BNE (R102). -/
def execBne (site : Site) (core : CoreId) (ra rb : Reg) (off : BitVec 16) (s : State) : Answer :=
  let x := greg s site core ra
  let y := greg s site core rb
  branchStep site core (decide (x ≠ y)) off s

/-- BLT (R102). -/
def execBlt (site : Site) (core : CoreId) (ra rb : Reg) (off : BitVec 16) (s : State) : Answer :=
  let x := greg s site core ra
  let y := greg s site core rb
  branchStep site core (x.slt y) off s

/-- BGE (R102). -/
def execBge (site : Site) (core : CoreId) (ra rb : Reg) (off : BitVec 16) (s : State) : Answer :=
  let x := greg s site core ra
  let y := greg s site core rb
  branchStep site core (!x.slt y) off s

/-- BLTU (R102). -/
def execBltu (site : Site) (core : CoreId) (ra rb : Reg) (off : BitVec 16) (s : State) : Answer :=
  let x := greg s site core ra
  let y := greg s site core rb
  branchStep site core (x.ult y) off s

/-- BGEU (R102). -/
def execBgeu (site : Site) (core : CoreId) (ra rb : Reg) (off : BitVec 16) (s : State) : Answer :=
  let x := greg s site core ra
  let y := greg s site core rb
  branchStep site core (!x.ult y) off s

/-- J (R102, R617). -/
def execJ (site : Site) (core : CoreId) (off : BitVec 26) (s : State) : Answer :=
  guarded (coreReady s site core) s (transfer s site core (relative s site core off.toInt))

/-- The address after the core's instruction. -/
def linkValue (s : State) (site : Nat) (c : CoreId) : Word64 :=
  BitVec.ofNat 64 ((coreOf (tileOf s site) c).pc.toNat + 4)

/-- A jump that links: the link register is written only when the target is valid (R617). -/
def jumpLink (s : State) (site : Nat) (c : CoreId) (rd : Reg) (target : Int) : State :=
  if 0 ≤ target ∧ validTarget target.toNat then transfer (setGreg s site c rd (linkValue s site c)) site c target
  else transfer s site c target

/-- JAL: links in g31 (R102, R617). -/
def execJal (site : Site) (core : CoreId) (off : BitVec 26) (s : State) : Answer :=
  guarded (coreReady s site core) s (jumpLink s site core 31 (relative s site core off.toInt))

/-- JR: links in rd and goes to ra + imm (R102, R617). -/
def execJr (site : Site) (core : CoreId) (rd ra : Reg) (imm : BitVec 16) (s : State) : Answer :=
  guarded (coreReady s site core) s (jumpLink s site core rd (greg s site core ra + immS imm).toNat)

/-! ## The row latch (R104, R105) -/

/-- Whether a latch access issues: none does while an LLD is in flight (R104). -/
def latchReady (s : State) (site : Nat) (c : CoreId) : Bool :=
  coreReady s site c && (coreOf (tileOf s site) c).lld.isNone

/-- The address of a latch or row access: ra + imm (R102). -/
def latchAddr (s : State) (site : Nat) (c : CoreId) (ra : Reg) (imm : BitVec 16) : Nat :=
  (greg s site c ra + immS imm).toNat

/-- Whether a latch access of n bytes is aligned and within bytes 0 to 511 (R105). -/
def latchFits (a n : Nat) : Bool := decide (a % n = 0 ∧ a < 512)

def corePc (s : State) (site : Nat) (c : CoreId) : Nat := (coreOf (tileOf s site) c).pc.toNat

/-- A latch load of n bytes: `ext` extends the value read; a poisoned sector gives zero and traps with cause 6 (R105). -/
def latchLoad (s : State) (site : Nat) (c : CoreId) (rd : Reg) (a n : Nat) (ext : Nat → Word64) : State :=
  let k := coreOf (tileOf s site) c
  if latchFits a n then
    if k.latchTags.toNat.testBit (a / 64) then trapCore (setGreg s site c rd 0) site c 6 k.pc.toNat
    else writeNext s site c rd (ext (leNat (memRead k.latch a n)))
  else trapCore s site c 2 k.pc.toNat

/-- A latch store of the low n bytes of rd; the tags stay (R105). -/
def latchStore (s : State) (site : Nat) (c : CoreId) (rd : Reg) (a n : Nat) : State :=
  if latchFits a n then
    let v := leBytes n (greg s site c rd).toNat
    seqNext (modCore s site c fun k => { k with latch := memWrite k.latch a v }) site c
  else trapCore s site c 2 (corePc s site c)

def signExt (bits v : Nat) : Word64 := (BitVec.ofNat bits v).signExtend 64
def zeroExt (v : Nat) : Word64 := BitVec.ofNat 64 v

/-- LB (R102, R105). -/
def execLb (site : Site) (core : CoreId) (rd ra : Reg) (imm : BitVec 16) (s : State) : Answer :=
  guarded (latchReady s site core) s (latchLoad s site core rd (latchAddr s site core ra imm) 1 (signExt 8))

/-- LH (R102, R105). -/
def execLh (site : Site) (core : CoreId) (rd ra : Reg) (imm : BitVec 16) (s : State) : Answer :=
  guarded (latchReady s site core) s (latchLoad s site core rd (latchAddr s site core ra imm) 2 (signExt 16))

/-- LW (R102, R105). -/
def execLw (site : Site) (core : CoreId) (rd ra : Reg) (imm : BitVec 16) (s : State) : Answer :=
  guarded (latchReady s site core) s (latchLoad s site core rd (latchAddr s site core ra imm) 4 (signExt 32))

/-- LD (R102, R105). -/
def execLd (site : Site) (core : CoreId) (rd ra : Reg) (imm : BitVec 16) (s : State) : Answer :=
  guarded (latchReady s site core) s (latchLoad s site core rd (latchAddr s site core ra imm) 8 (zeroExt))

/-- LBU (R102, R105). -/
def execLbu (site : Site) (core : CoreId) (rd ra : Reg) (imm : BitVec 16) (s : State) : Answer :=
  guarded (latchReady s site core) s (latchLoad s site core rd (latchAddr s site core ra imm) 1 (zeroExt))

/-- LHU (R102, R105). -/
def execLhu (site : Site) (core : CoreId) (rd ra : Reg) (imm : BitVec 16) (s : State) : Answer :=
  guarded (latchReady s site core) s (latchLoad s site core rd (latchAddr s site core ra imm) 2 (zeroExt))

/-- LWU (R102, R105). -/
def execLwu (site : Site) (core : CoreId) (rd ra : Reg) (imm : BitVec 16) (s : State) : Answer :=
  guarded (latchReady s site core) s (latchLoad s site core rd (latchAddr s site core ra imm) 4 (zeroExt))

/-- SB (R102, R105). -/
def execSb (site : Site) (core : CoreId) (rd ra : Reg) (imm : BitVec 16) (s : State) : Answer :=
  guarded (latchReady s site core) s (latchStore s site core rd (latchAddr s site core ra imm) 1)

/-- SH (R102, R105). -/
def execSh (site : Site) (core : CoreId) (rd ra : Reg) (imm : BitVec 16) (s : State) : Answer :=
  guarded (latchReady s site core) s (latchStore s site core rd (latchAddr s site core ra imm) 2)

/-- SW (R102, R105). -/
def execSw (site : Site) (core : CoreId) (rd ra : Reg) (imm : BitVec 16) (s : State) : Answer :=
  guarded (latchReady s site core) s (latchStore s site core rd (latchAddr s site core ra imm) 4)

/-- SD (R102, R105). -/
def execSd (site : Site) (core : CoreId) (rd ra : Reg) (imm : BitVec 16) (s : State) : Answer :=
  guarded (latchReady s site core) s (latchStore s site core rd (latchAddr s site core ra imm) 8)

/-- The row that an LLD's access takes, or none where the bank refuses it (R104, R148, R150). -/
def lldTake (s : State) (site : Nat) (c : CoreId) (row : Nat) (events : List RowEvent) : State × Option (List Byte × BitVec 8) :=
  if bankServes s site row (reqCore c) then
    let (s, d, t) := rowRead s site row (reqCore c) events
    (s, some (d, t))
  else (offAccess s site row (reqCore c), none)

/-- LLD: the copy of a row into the latch starts; a row address beyond 13 bits traps with cause 2 (R104, R105). -/
def execLld (site : Site) (core : CoreId) (ra : Reg) (imm : BitVec 16) (events : List RowEvent) (s : State) : Answer :=
  let a := latchAddr s site core ra imm
  guarded (latchReady s site core) s
    (if a < 8192 then
      let (s1, r) := lldTake s site core a events
      seqNext (modCore s1 site core fun k => { k with lld := some ⟨BitVec.ofNat 13 a, k.pc, r⟩ }) site core
    else trapCore s site core 2 (corePc s site core))

/-- What an LLD's completion leaves: the row and its tags in the latch, or zeros and a trap with cause 7 from an OFF bank (R105, R150). -/
def lldLand (s : State) (site : Nat) (c : CoreId) (l : LldRec) : State :=
  match l.taken with
  | some (bytes, tags) => modCore s site c fun k => { k with lld := none, latch := memWrite [] 0 bytes, latchTags := tags }
  | none => settleTrap (modCore s site c fun k => { k with lld := none, latch := [], latchTags := 0, trapDue := some l.pc }) site c

/-- LLD_COMPLETE (R104, R105): the copy of `row` into the latch ends; a granted read completes whatever its bank has been asked for since (R148). -/
def execLldComplete (site : Site) (core : CoreId) (row : BitVec 13) (s : State) : Answer :=
  match (coreOf (tileOf s site) core).lld with
  | some l => guarded (decide (l.row = row)) s (lldLand s site core l)
  | none => answer s

/-- What an LST stores: the latch with its tags, or nothing on an OFF bank (R104, R150, R154). -/
def lstStore (s : State) (site : Nat) (c : CoreId) (row : Nat) (events : List RowEvent) : State :=
  if bankServes s site row (reqCore c) then
    let k := coreOf (tileOf s site) c
    rowWrite s site row (reqCore c) events (memRead k.latch 0 512) k.latchTags
  else offAccess s site row (reqCore c)

/-- LST (R104, R105). -/
def execLst (site : Site) (core : CoreId) (ra : Reg) (imm : BitVec 16) (events : List RowEvent) (s : State) : Answer :=
  let a := latchAddr s site core ra imm
  guarded (latchReady s site core) s
    (if a < 8192 then seqNext (lstStore s site core a events) site core
    else trapCore s site core 2 (corePc s site core))

/-! ## Queue pushes (R114, R136, R137) -/

/-- The descriptor of a push: {rb, ra} (R102). -/
def pushDesc (s : State) (site : Nat) (c : CoreId) (ra rb : Reg) : BitVec 128 :=
  greg s site c rb ++ greg s site c ra

/-- Whether the queue a push names is full: the tile's own, or in a gang that of any of its tiles, the sequencer's undelivered descriptors counted (R112, R137). -/
def pushFull (s : State) (site : Nat) (q : QueueId) : Bool :=
  match gangPlace s site with
  | some (r, g, 0) =>
    let held := ((gangOf s (siteField site) r).entries.filter fun e => decide (e.1 = q)).length
    g.any fun x => queueFull (tileOf s x) q held
  | _ => queueFull (tileOf s site) q 0

/-- A push accepted: into the tile's queue, or into the gang sequencer (R136). The number is the one rd takes. -/
def pushAccept (s : State) (site : Nat) (q : QueueId) (d : BitVec 128) : State × BitVec 16 :=
  match gangPlace s site with
  | some (r, _, 0) =>
    let g := gangOf s (siteField site) r
    let n := mget 0 g.seqs (queueNo q)
    (setGang s (siteField site) r { g with entries := g.entries ++ [(q, d)], seqs := mset 0 g.seqs (queueNo q) (n + 1) }, n)
  | _ => (enqueue s site q d, (queueOf (tileOf s site) q).nextSeq)

def pushStep (s : State) (site : Nat) (c : CoreId) (rd ra rb : Reg) : State :=
  let d := pushDesc s site c ra rb
  let (s', n) := pushAccept s site (queueForKind (dKind d)) d
  writeNext s' site c rd (n.zeroExtend 64)

/-- QPUSH: stalls while the queue is full (R114). -/
def execQpush (site : Site) (core : CoreId) (rd ra rb : Reg) (s : State) : Answer :=
  let full := pushFull s site (queueForKind (dKind (pushDesc s site core ra rb)))
  guarded (coreReady s site core && !full) s (pushStep s site core rd ra rb)

/-- QTRY: as QPUSH, but rd takes all ones when the queue is full (R102, R114). -/
def execQtry (site : Site) (core : CoreId) (rd ra rb : Reg) (s : State) : Answer :=
  let full := pushFull s site (queueForKind (dKind (pushDesc s site core ra rb)))
  guarded (coreReady s site core) s
    (if full then writeNext s site core rd (BitVec.allOnes 64) else pushStep s site core rd ra rb)

/-! ## Semaphores (R216) -/

def immSem (imm : BitVec 16) : Nat := imm.toNat % 64

/-- An illegal instruction traps with cause 1 (R103, R107). -/
def illegalTrap (s : State) (site : Nat) (c : CoreId) : State := trapCore s site c 1 (corePc s site c)

/-- SEMSIG: adds ra[15:0] units to a local semaphore; a number above 47 is illegal (R102, R103, R216). -/
def execSemsig (site : Site) (core : CoreId) (ra : Reg) (imm : BitVec 16) (s : State) : Answer :=
  let n := immSem imm
  let units := (greg s site core ra).toNat % 65536
  if n < 48 then
    guarded (coreReady s site core && syncEnabled s site) s
      (semSignal (seqNext s site core) site n units (ownSignal s site core.val units))
  else guarded (coreReady s site core) s (illegalTrap s site core)

/-- SEMWAIT: a consuming wait of ra[15:0] units; the core waits until it is served (R102, R215, R216). -/
def execSemwait (site : Site) (core : CoreId) (ra : Reg) (imm : BitVec 16) (s : State) : Answer :=
  let n := immSem imm
  let units := (greg s site core ra).toNat % 65536
  if n < 48 then
    guarded (coreReady s site core && syncEnabled s site) s
      (if units = 0 then seqNext s site core
       else semWaitBegin (modCore s site core fun k => { k with status := .waiting }) site (.core core) n false units)
  else guarded (coreReady s site core) s (illegalTrap s site core)

/-- SEMRD (R102, R216). -/
def execSemrd (site : Site) (core : CoreId) (rd : Reg) (imm : BitVec 16) (s : State) : Answer :=
  let n := immSem imm
  guarded (coreReady s site core) s
    (if n < 48 then writeNext s site core rd (BitVec.ofNat 64 (semValue (tileOf s site) n)) else illegalTrap s site core)

/-! ## Control registers and system instructions (R106 to R108) -/

/-- CR_LT (R106, R313): a logical tile's number, or 0x1000 and the site index of a surplus tile. -/
def crLt (s : State) (site : Nat) : Word64 :=
  if siteSurplus s site then BitVec.ofNat 64 (0x1000 + site)
  else match ltOfSite s site with
    | some t => BitVec.ofNat 64 t
    | none => Config.spareLt site

/-- CR_GANG: gang mode, T − 1 and g (R106). -/
def crGang (s : State) (site : Nat) : Word64 :=
  match gangPlace s site with
  | some (_, g, i) => BitVec.ofNat 64 (2 ^ 16 + (g.length - 1) * 2 ^ 8 + i)
  | none => 0

/-- The lowest CR_QDONE of a queue across the gang (R106, R137). -/
def gangDone (s : State) (g : List Nat) (q : QueueId) : Nat :=
  g.foldl (fun a x => min a (queueOf (tileOf s x) q).retired.toNat) 65535

/-- A control register read (R106); an index not in the table reads as zero. -/
def crRead (s : State) (site : Nat) (c : CoreId) (i : Nat) : Word64 :=
  let t := tileOf s site
  let k := coreOf t c
  if i = 0x000 then BitVec.ofNat 64 c.val
  else if i = 0x001 then crLt s site
  else if i = 0x002 then crGang s site
  else if i = 0x003 then BitVec.ofNat 64 (tileCycles s site)
  else if i = 0x004 then BitVec.ofNat 64 (localTime s site)
  else if i = 0x005 then t.step
  else if i = 0x006 then t.vflags.zeroExtend 64
  else if i = 0x007 then t.qstat.zeroExtend 64
  else if 0x008 ≤ i ∧ i ≤ 0x00B then (queueOf t (queueAt (i - 8))).err
  else if 0x00C ≤ i ∧ i ≤ 0x00F then (queueOf t (queueAt (i - 12))).retired.zeroExtend 64
  else if i = 0x010 then k.tvec
  else if i = 0x011 then k.epc
  else if i = 0x012 then k.cause
  else if i = 0x013 then k.entry
  else if 0x014 ≤ i ∧ i ≤ 0x017 then
    match gangPlace s site with
    | some (_, g, 0) => BitVec.ofNat 64 (gangDone s g (queueAt (i - 20)))
    | _ => 0
  else 0

/-- A control register write (R106): RW takes the value, W1C clears on ones, any other index is ignored. -/
def crWrite (s : State) (site : Nat) (c : CoreId) (i : Nat) (v : Word64) : State :=
  if i = 0x006 then modTile s site fun t => { t with vflags := t.vflags &&& ~~~(v.truncate 2) }
  else if i = 0x007 then modTile s site fun t => { t with qstat := t.qstat &&& ~~~(v.truncate 4) }
  else if i = 0x010 then modCore s site c fun k => { k with tvec := v }
  else if i = 0x011 then modCore s site c fun k => { k with epc := v }
  else if i = 0x013 then modCore s site c fun k => { k with entry := v }
  else s

/-- CRR (R102, R106). -/
def execCrr (site : Site) (core : CoreId) (rd : Reg) (imm : BitVec 16) (s : State) : Answer :=
  aluStep site core rd (crRead s site core (imm.toNat % 4096)) s

/-- CRW: writes rd to a control register (R102, R106). -/
def execCrw (site : Site) (core : CoreId) (rd : Reg) (imm : BitVec 16) (s : State) : Answer :=
  guarded (coreReady s site core) s
    (seqNext (crWrite s site core (imm.toNat % 4096) (greg s site core rd)) site core)

/-- TRAP: cause 4 (R102, R107). -/
def execTrap (site : Site) (core : CoreId) (s : State) : Answer :=
  guarded (coreReady s site core) s (trapCore s site core 4 (corePc s site core))

/-- ERET: to CR_EPC (R102, R617). -/
def execEret (site : Site) (core : CoreId) (s : State) : Answer :=
  guarded (coreReady s site core) s (transfer s site core (coreOf (tileOf s site) core).epc.toNat)

/-- HALT: until the next step release (R102, R108). -/
def execHalt (site : Site) (core : CoreId) (s : State) : Answer :=
  guarded (coreReady s site core) s (modCore (haltNoted s site) site core fun k => { k with status := .halted })

/-- WFE: sleeps until a retirement or a semaphore change in the tile (R102). -/
def execWfe (site : Site) (core : CoreId) (s : State) : Answer :=
  guarded (coreReady s site core) s (modCore s site core fun k => { k with status := .sleeping, woken := false })

/-- WFE_WAKE: a retirement or semaphore change since the WFE lets the core go on (R102). -/
def execWfeWake (site : Site) (core : CoreId) (s : State) : Answer :=
  let k := coreOf (tileOf s site) core
  guarded (decide (k.status = .sleeping) && k.woken) s (coreResume s site core)

/-- The instruction that a core fetches: the word of its tile's IMEM at its pc (R99, R101). -/
def fetched (s : State) (site : Site) (c : CoreId) : Option Instr :=
  decodeScalar site c (BitVec.ofNat 32 (leAt (memRead s.imem (site * 65536 + corePc s site c) 4) 0 4))

/-- ILLEGAL_INSTRUCTION: a word that is no instruction traps with cause 1 (R103, R107). -/
def execIllegalInstruction (site : Site) (core : CoreId) (word : BitVec 32) (s : State) : Answer :=
  guarded (coreReady s site core && (decodeScalar site core word).isNone) s (illegalTrap s site core)

end Sys2Proof.Machine
end

