-- ==== Sys2Proof/Machine/SecBase.lean ====
section
/-! DEFINITION. Owner slots, authorisation blocks and nonces (R579, R585, R586). -/
namespace Sys2Proof.Machine
open Sys2Proof

/-- The state of an owner slot: 0 empty, 1 valid, 2 revoked, 3 corrupt. -/
def slotState (s : State) (i : Nat) : Nat := mget (Config.fusedOwnerState i) s.otp.ownerState i
def slotHash (s : State) (i : Nat) : List Byte := mget (Config.fusedHash i) s.otp.ownerHash i
def owned (s : State) : Bool := (List.range 4).any fun i => decide (slotState s i = 1)

/-- The anti-rollback counter (R579): it never falls. -/
def rollbackCount (s : State) : Nat := max Config.fusedRollback.val s.otp.rollback

/-- The serial, zero-padded to 24 bytes. -/
def serial24 : List Byte := slice Config.fusedSerial 0 24

def blkSlot (b : List Byte) : Nat := leAt b 0 1
def blkNonce (b : List Byte) : List Byte := slice b 8 32
def blkKey (b : List Byte) : List Byte := slice b 40 2592
def blkSig (b : List Byte) : List Byte := slice b 2632 4627

/-- M of R585; a hood signature omits the serial and the nonce. -/
def blkMessage (purpose : Nat) (data b : List Byte) : List Byte :=
  sha3_512 ([BitVec.ofNat 8 purpose] ++ (if purpose = 5 then [] else serial24 ++ blkNonce b) ++ data)

/-- Whether a block's slot, key and signature pass (R586). -/
def blkVerifies (s : State) (purpose : Nat) (data b : List Byte) : Bool :=
  decide (blkSlot b < 4) && decide (slotState s (blkSlot b) = 1) && decide (sha3_512 (blkKey b) = slotHash s (blkSlot b)) &&
    Config.mlDsaVerify (blkKey b) (blkMessage purpose data b) (blkSig b)

/-- A failed authorisation: 0x5800:0C and a CREDENTIAL_FAILED record (R586, R599). -/
def credentialFailed (s : State) (purpose slot : Nat) (ip : BitVec 128) : State :=
  record (dcount s 0x5800 0x0C 4 1) 0x0904 0xFF 0xFFFF 0 (leBytes 4 purpose ++ leBytes 4 slot ++ beBytes 16 ip.toNat)

/-- Whether a nonce of 0x5800:06 qualifies: issued within 10 s and not used. -/
def nonceQualifies (s : State) (n : List Byte) : Bool :=
  s.sec.nonces.any fun x => decide (x.1 = n ∧ now s ≤ x.2 + 160000000000)

def consumeNonce (s : State) (n : List Byte) : State := { s with sec := { s.sec with nonces := s.sec.nonces.filter fun x => decide (x.1 ≠ n) } }

/-- The check of an owner action's block (R585, R586): an unowned device accepts purposes 0x01 and 0x04 with the block all zero and slot 0xFF. -/
def authorise (s : State) (purpose : Nat) (data b : List Byte) (ip : BitVec 128) : State × Bool :=
  if !owned s && decide (purpose = 1 ∨ purpose = 4) then
    if b = [0xFF] ++ zeros 7258 then (s, true) else (credentialFailed s purpose (blkSlot b) ip, false)
  else
    let ok := nonceQualifies s (blkNonce b) && blkVerifies s purpose data b
    let s := consumeNonce s (blkNonce b)
    if ok then (s, true) else (credentialFailed s purpose (blkSlot b) ip, false)

/-- Hood signature mode in force: 0x5800:07, whose reset value is 2 when owned (R590, R600). -/
def sigMode (s : State) : Nat := dnum s 0x5800 0x07

end Sys2Proof.Machine
end

