-- ==== Sys2Proof/Machine/Move.lean ====
section
/-! DEFINITION. The move engine and what reaches the targets of its packets (R128 to R130, R159 to R163, R201 to R207). -/
namespace Sys2Proof.Machine
open Sys2Proof

/-! ## The MOVE descriptor -/

/-- The device address of a MOVE: in a gang, GREL adds the tile's offset to a scratchpad REMOTE (R128). -/
def moveAddr (s : State) (site : Nat) (d : BitVec 128) : Nat :=
  let a := moveRemote d
  match gangPlace s site with
  | some (_, _, g) => if moveGrel d ∧ (addrRange a = some 2 ∨ addrRange a = some 3) ∧ dOp d ≠ 3 then a + g * 0x400000 else a
  | none => a

/-- First IMEM unit of an IMEM move. -/
def moveUnit (d : BitVec 128) : Nat := moveLocal d % 128

/-- Whether a span of rows lies wholly in a tile's own scratchpad. -/
def ownSpan (s : State) (site a rows : Nat) : Bool :=
  match targetOf s a, targetOf s (a + 512 * rows - 1) with
  | .tile x r, .tile y _ => decide (x = site ∧ y = site ∧ r + rows ≤ 8192)
  | _, _ => false

/-- Whether NROWS, LOCAL and REMOTE are as R116 and R129 require. -/
def moveAreas (s : State) (site : Nat) (d : BitVec 128) : Bool :=
  let n := moveRows d
  let a := moveAddr s site d
  let op := dOp d
  let loc := if op = 4 then decide (moveUnit d + n ≤ 128) else decide (moveLocal d + n ≤ 8192)
  let rem := match op with
    | 0 => decide (a % 512 = 0) && ownSpan s site a n
    | 3 => decide (moveRemote d / 2 ^ 22 = 0 ∧ moveRemote d % 512 = 0 ∧ moveRemote d / 512 % 8192 + n ≤ 8192)
    | 5 => decide (moveRemote d = 0)
    | 4 => decide (a % 512 = 0) && oneRange a (512 * n) && decide (addrRange a ≠ some 4)
    | _ => decide (a % 512 = 0) && oneRange a (512 * n)
  decide (1 ≤ n ∧ n ≤ 8192) && loc && rem

/-- Whether RSEM may stand in a MOVE (R128, R130). -/
def moveRsemOk (s : State) (site : Nat) (d : BitVec 128) : Bool :=
  let r := addrRange (moveAddr s site d)
  decide (moveRsem d = 0x3F) || (decide (moveRsem d < 48) &&
    (decide (dOp d = 3) || (decide (dOp d = 2) && decide (r = some 2 ∨ r = some 3 ∨ r = some 4))))

/-- The status of a MOVE's head check (R116). -/
def moveCheck (s : State) (site : Nat) (d : BitVec 128) : Nat :=
  if 5 < dOp d then (if semField (moveRsem d) && semField (dWaitSem d) && semField (dSigSem d) then 0x0E else 0x0D)
  else if !moveAreas s site d then 0x06
  else if !moveRsemOk s site d then 0x0D
  else 0

/-! ## Multicast groups (R202) -/

/-- The logical tiles of a multicast: those of the group's entry that are in the region, without the source. -/
def mcastTargets (s : State) (site g : Nat) : List Nat :=
  match regionOfSite s site with
  | none => []
  | some r =>
    (mget [] s.mcast (r * 256 + g)).flatMap fun (c, mask) =>
      if regionHasLc s r c then
        (List.range 15).filterMap fun i =>
          if mask.testBit i && decide (ltOfSite s site ≠ some (15 * c + i)) then some (15 * c + i) else none
      else []

/-! ## Starting a move -/

def pushMove (s : State) (site : Nat) (m : MoveExec) : State := modTile s site fun t => { t with moves := t.moves ++ [m] }

def setMove (s : State) (site : Nat) (m : MoveExec) : State :=
  modTile s site fun t => { t with moves := t.moves.map fun x => if x.seq = m.seq then m else x }

def findMove (s : State) (site : Nat) (seq : BitVec 16) : Option MoveExec := (tileOf s site).moves.find? fun m => decide (m.seq = seq)

def moveExec0 (s : State) (e : QEntry) : MoveExec :=
  { seq := e.seq, pending := [], status := 0, targets := [], failedTargets := [], dropped := [],
    abandoned := false, windowRefused := false, otherError := false, sent := 0, taken := [], started := now s, flight := 0 }

/-- The status a move retires with: its own stop, then a closed window, then another error, then an abandoned branch (R162, R205). -/
def moveStatus (m : MoveExec) : BitVec 8 :=
  if m.status ≠ 0 then m.status
  else if m.windowRefused then 0x0A
  else if m.otherError then 0x0B
  else if m.abandoned then 0x0C
  else 0

/-- The bitmap of missing logical tiles (R206). -/
def missBitmap (m : MoveExec) : List Byte :=
  let missing := m.failedTargets.map fun a => (a - 0x200000000000) / 0x400000
  (List.range 338).map fun i => BitVec.ofNat 8 ((List.range 8).foldl (fun a b => if missing.contains (8 * i + b) then a + 2 ^ b else a) 0)

/-- The miss record of a multicast that ends with a status, and its count (R206, R208): it bypasses windows and overwrites the row. -/
def missRecord (s : State) (site : Nat) (e : QEntry) (m : MoveExec) (st : BitVec 8) : State :=
  let s := regAdd s (netReg site 0x028) 1
  let row := rfld (regGet s (netReg site 0x008)) 0 13
  let bytes := missBitmap m ++ zeros 166 ++ leBytes 2 e.seq.toNat ++ leBytes 1 (moveGroup e.desc) ++ leBytes 1 st.toNat ++ zeros 4
  if bankServes s site row reqMove then rowWrite s site row reqMove [] bytes 0 else offAccess s site row reqMove

/-- A move is done: a multicast with a status other than OK leaves its miss record first. -/
def moveDone (s : State) (site : Nat) (e : QEntry) (m : MoveExec) : State :=
  let st := moveStatus m
  let s := if dOp e.desc = 3 ∧ st ≠ 0 then missRecord s site e m st else s
  setProgS s site .move m.seq (.done st)

/-- A local row read by the move engine, or none where its bank is OFF (R150). -/
def localRead (s : State) (site row : Nat) (events : List RowEvent) : State × Option (List Byte × BitVec 8) :=
  if bankServes s site row reqMove then
    let (s, d, t) := rowRead s site row reqMove events
    (s, some (d, t))
  else (offAccess s site row reqMove, none)

/-- Local rows copied in ascending order until a bank is OFF (R129): the status. -/
def copyRows (s : State) (site src dst : Nat) (events : List RowEvent) : Nat → State × Nat
  | 0 => (s, 0)
  | n + 1 =>
    match localRead s site src events with
    | (s, none) => (s, 0x07)
    | (s, some (d, t)) =>
      if bankServes s site dst reqMove then copyRows (rowWrite s site dst reqMove events d t) site (src + 1) (dst + 1) events n
      else (offAccess s site dst reqMove, 0x07)

/-- Local rows zeroed in ascending order (R129). -/
def zeroRows (s : State) (site row : Nat) (events : List RowEvent) : Nat → State × Nat
  | 0 => (s, 0)
  | n + 1 =>
    if bankServes s site row reqMove then zeroRows (rowWrite s site row reqMove events (zeros 512) 0) site (row + 1) events n
    else (offAccess s site row reqMove, 0x07)

def moveVc (d : BitVec 128) : Nat := if moveVc2 d then 2 else 1

/-- The transaction field of a fabric packet: move-queue sequence, tile and row (R495; log entry 21). -/
def transactionOf (s : State) (site : Nat) (seq : BitVec 16) (row : Nat) : BitVec 64 :=
  BitVec.ofNat 64 (seq.toNat + tileName s site * 2 ^ 16 + row * 2 ^ 32)

/-- The fabric packet of one row of a move: a WRITE with its bytes, or a READ_REQ; the last WRITE carries RSEM (R500). -/
def fabricRow (s : State) (site : Nat) (e : QEntry) (i : Nat) (row : Option (List Byte × BitVec 8)) : FabPacket :=
  let a := moveAddr s site e.desc + 512 * i
  { dst := BitVec.ofNat 10 (fld a 36 10), src := BitVec.ofNat 10 (fabricId s), kind := if row.isSome then 0 else 1,
    channel := if moveVc2 e.desc then 2 else 1, aperture := ⟨fld a 32 4 % 16, Nat.mod_lt _ (by decide)⟩,
    sem := if row.isSome ∧ i + 1 = moveRows e.desc then BitVec.ofNat 8 (moveRsem e.desc) else 0x3F,
    generation := 0, offset := fld a 0 32, transaction := transactionOf s site e.seq i,
    poison := match row with
      | some (_, t) => t.zeroExtend 64
      | none => 0,
    status := 0, payload := match row with
      | some (d, _) => d
      | none => [], linkSeq := 0, linkAck := 0 }

/-- The packet of one row of a move to a device address. -/
def rowPacket (site : Site) (e : QEntry) (addr i : Nat) (mcast : Bool) (k : PacketKind) : Packet :=
  { order := 0, turn := 0, credits := 0, vc := moveVc e.desc, source := some site, master := 0x3FF, addr := addr, seq := e.seq, index := i, mcast := mcast, kind := k }

/-- The scratchpad base of a logical tile. -/
def ltBase (t : Nat) : Nat := 0x200000000000 + t * 0x400000

/-- The addresses to which row i of a PUT or MCAST goes: a multicast's to the targets that no abandoned branch has dropped. -/
def rowAddrs (s : State) (site : Nat) (e : QEntry) (m : MoveExec) (i : Nat) : List Nat :=
  if dOp e.desc = 3 then
    (m.targets.filter fun a => !m.dropped.contains a).map fun a => a + (moveRemote e.desc + 512 * i) % 0x400000
  else [moveAddr s site e.desc + 512 * i]

/-- Rows [i, i + n) of a PUT or MCAST injected in order; a local bank that is OFF stops the move there (R150). -/
def putRows (s : State) (site : Site) (e : QEntry) (events : List RowEvent) (m : MoveExec) (i : Nat) : Nat → State × MoveExec
  | 0 => (s, m)
  | n + 1 =>
    match localRead s site (moveLocal e.desc + i) events with
    | (s, none) => (s, { m with status := 0x07 })
    | (s, some (d, t)) =>
      let m := { m with sent := i + 1 }
      if addrRange (moveAddr s site e.desc) = some 4 then
        let (s, ok) := relaySend s (fabricRow s site e i (some (d, t)))
        putRows s site e events (if ok then { m with pending := m.pending ++ [i] } else { m with otherError := true }) (i + 1) n
      else
        let (s, m) := (rowAddrs s site e m i).foldl (fun (s, m) a =>
          (sendPacket s (rowPacket site e a i (decide (dOp e.desc = 3)) (.writeRow d t)), { m with pending := m.pending ++ [s.netSeq] })) (s, m)
        putRows s site e events m (i + 1) n

/-- The scratchpad bases that a PUT or MCAST writes to: one for each target tile. -/
def moveTargets (s : State) (site : Nat) (e : QEntry) : List Nat :=
  if dOp e.desc = 3 then (mcastTargets s site (moveGroup e.desc)).map ltBase
  else
    let a := moveAddr s site e.desc
    if addrRange a = some 2 ∨ addrRange a = some 3 then
      (List.range ((a + 512 * moveRows e.desc - 1) / 0x400000 - a / 0x400000 + 1)).map fun i => (a / 0x400000 + i) * 0x400000
    else []

/-- The RSEM packets of a move to targets that have not failed (R130): each is awaited as its rows are, since a refusal makes the move retire with REMOTE_ERROR (R238). -/
def sendRsems (s : State) (site : Site) (e : QEntry) (m : MoveExec) : State × MoveExec :=
  if moveRsem e.desc = 0x3F then (s, m)
  else m.targets.foldl (fun (s, m) a =>
    if m.failedTargets.contains a then (s, m)
    else (sendPacket s (rowPacket site e a (moveRows e.desc) (decide (dOp e.desc = 3)) (.rsem (moveRsem e.desc))),
      { m with pending := m.pending ++ [s.netSeq] })) (s, m)

/-! ### The multicast tree (R201, R203) -/

/-- A fork of a multicast's tree. -/
inductive McNode where
  | field (n : Nat)
  | hub (c : Nat)
  | router (site : Nat)
deriving DecidableEq, Repr

/-- The rows that a fork stores (R203). -/
def McNode.store : McNode → Nat
  | .router _ => 4
  | _ => 16

/-- A leg of a multicast's tree: the forks that rows for one target reach, each with the branch they leave it by, and whether the last of those branches leads on. -/
structure McLeg where
  forks : List (McNode × Nat)
  up : Bool
deriving DecidableEq, Repr

/-- The leg inside a cluster, from its attach site to the target. -/
def routerLeg (s : State) : Nat → Nat → Nat → McLeg
  | 0, _, _ => ⟨[], false⟩
  | f + 1, site, dst =>
    if !regBit s (netReg site 0) 0 then ⟨[], false⟩
    else if site = dst then ⟨[(.router site, 4)], true⟩
    else match routeEntry s site dst with
      | none => ⟨[(.router site, 4)], true⟩
      | some e =>
        let p := rfld e 0 3
        if !rbit e 3 then ⟨[(.router site, 4)], true⟩
        else if portDead s site p then ⟨[(.router site, p)], false⟩
        else match meshNeighbour site p with
          | none => ⟨[(.router site, p)], false⟩
          | some x =>
            let l := routerLeg s f x dst
            ⟨(.router site, p) :: l.forks, l.up⟩

/-- The leg from a cluster's hub to a target in it. -/
def hubLeg (s : State) (dst : Nat) : McLeg :=
  let c := siteCluster dst
  let a := attachOf s dst
  if !regBit s (hubReg c 0) 0 then ⟨[], false⟩
  else if portDead s a 5 then ⟨[(.hub c, a)], false⟩
  else
    let l := routerLeg s 12 a dst
    ⟨(.hub c, a) :: l.forks, l.up⟩

/-- The leg through field crossbars and on to the target's hub. -/
def crossLeg (s : State) (dst : Nat) : List Nat → McLeg
  | [] => ⟨[], false⟩
  | [n] =>
    let l := hubLeg s dst
    if fieldRuns s n then ⟨(.field n, siteCluster dst) :: l.forks, l.up⟩ else ⟨[], false⟩
  | n :: k :: rest =>
    if !fieldRuns s n then ⟨[], false⟩
    else if !trunkUp s n k then ⟨[(.field n, 1000 + k)], false⟩
    else
      let l := crossLeg s dst (k :: rest)
      ⟨(.field n, 1000 + k) :: l.forks, l.up⟩

/-- The leg of a multicast's tree from the source's crossbar to one target. -/
def mcLeg (s : State) (src dst : Nat) : McLeg :=
  let first := fieldSteps true 6 (siteField src) (siteField dst)
  crossLeg s dst (if trunksUp s first then first else fieldSteps false 6 (siteField src) (siteField dst))

/-- The legs of a multicast to the targets that no abandoned branch has dropped, each with the rows its target has taken. -/
def mcLegs (s : State) (src : Nat) (m : MoveExec) : List (McLeg × Nat) :=
  (m.targets.filter fun a => !m.dropped.contains a).filterMap fun a =>
    match siteOfLt s ((a - 0x200000000000) / 0x400000) with
    | some x => some (mcLeg s src x, (mget ⟨0, 0, 0⟩ m.taken (a / 0x400000)).rows)
    | none => none

/-- The rows that a branch has taken: its target's, or where it does not lead on, as many as any target behind it has. -/
def legTaken (legs : List (McLeg × Nat)) (l : McLeg × Nat) : Nat :=
  if l.1.up then l.2 else (legs.filter fun k => decide (k.1 = l.1)).foldl (fun a k => max a k.2) 0

/-- The rows that a fork may have taken from upstream: for each branch below it those that the branch has taken and the stores from the fork down to the branch (R203). -/
def forkRoom (legs : List (McLeg × Nat)) (node : McNode) : Nat :=
  (legs.filterMap fun l =>
    match l.1.forks.dropWhile fun x => decide (x.1 ≠ node) with
    | [] => none
    | below => some (legTaken legs l + (below.map fun x => x.1.store).foldl (· + ·) 0)).foldl min (2 ^ 14)

/-- Whether every fork on the way to a target has room for row i (R203). -/
def legRoom (legs : List (McLeg × Nat)) (l : McLeg) (i : Nat) : Bool := l.forks.all fun x => decide (i < forkRoom legs x.1)

/-- The rows that the source of a multicast may have sent: what the first fork has room for. -/
def sourceRoom (s : State) (src : Nat) (m : MoveExec) : Nat := forkRoom (mcLegs s src m) (.field (siteField src))

/-- Sends the rows for which a move's way has room, and behind the last of them on VC1 its signals (R130, R203). -/
def moveFeed (s : State) (site : Site) (e : QEntry) (events : List RowEvent) (m : MoveExec) : State × MoveExec :=
  let room := if dOp e.desc = 3 then sourceRoom s site m else moveRows e.desc
  let upTo := min (moveRows e.desc) room
  if m.status ≠ 0 ∨ upTo ≤ m.sent then (s, m)
  else
    let (s, m) := putRows s site e events m m.sent (upTo - m.sent)
    if moveVc2 e.desc ∨ m.status ≠ 0 ∨ m.sent < moveRows e.desc then (s, m) else sendRsems s site e m

/-- A PUT or MCAST that starts: its rows are injected, and on VC1 its signals behind them (R130). A multicast without targets retires with OK at once (R202). -/
def putBegin (s : State) (site : Site) (e : QEntry) (events : List RowEvent) : State :=
  let m := { moveExec0 s e with targets := moveTargets s site e }
  let s := setProgS s site .move e.seq .running
  if dOp e.desc = 3 ∧ m.targets.isEmpty then moveDone (pushMove s site m) site e m
  else
    let (w, s) := if dOp e.desc = 3 then freeWord s else (0, s)
    let (s, m) := moveFeed s site e events { m with flight := w.toNat }
    if m.pending.isEmpty then moveDone (pushMove s site m) site e m else pushMove s site m

/-- Read requests for rows [i, i + n) of a GET or IMEM. -/
def getRows (s : State) (site : Site) (e : QEntry) (m : MoveExec) (i : Nat) : Nat → State × MoveExec
  | 0 => (s, m)
  | n + 1 =>
    let a := moveAddr s site e.desc + 512 * i
    if addrRange a = some 4 then
      let (s, ok) := relaySend s (fabricRow s site e i none)
      getRows s site e (if ok then { m with pending := m.pending ++ [i] } else { m with otherError := true }) (i + 1) n
    else getRows (sendPacket s (rowPacket site e a i false .readRow)) site e { m with pending := m.pending ++ [s.netSeq] } (i + 1) n

def getBegin (s : State) (site : Site) (e : QEntry) : State :=
  let (s, m) := getRows s site e (moveExec0 s e) 0 (moveRows e.desc)
  let s := pushMove (setProgS s site .move e.seq .running) site m
  if m.pending.isEmpty then moveDone s site e m else s

/-- A move within the tile: done when its last row has landed. -/
def localMove (site : Nat) (e : QEntry) (r : State × Nat) : State :=
  setProgS r.1 site .move e.seq (.done (BitVec.ofNat 8 r.2))

/-- What a granted MOVE does (R129). -/
def moveBegin (s : State) (site : Site) (e : QEntry) (events : List RowEvent) : State :=
  let d := e.desc
  match dOp d with
  | 0 => localMove site e (copyRows s site (moveLocal d) (moveAddr s site d / 512 % 8192) events (moveRows d))
  | 1 => getBegin s site e
  | 2 => putBegin s site e events
  | 3 => putBegin s site e events
  | 4 => getBegin s site e
  | _ => localMove site e (zeroRows s site (moveLocal d) events (moveRows d))

/-- Moves in execution (R112). -/
def movesRunning (t : Tile) : Nat := (t.moveQ.entries.filter fun e => !e.unstarted).length

/-- The move-queue entry of a move. -/
def moveEntry (s : State) (site : Nat) (seq : BitVec 16) : Option QEntry :=
  (tileOf s site).moveQ.entries.find? fun e => decide (e.seq = seq)

/-- Whether a packet of a tile is a row of a PUT or MCAST that has not been acknowledged (R222, R224). -/
def rowUnacked (s : State) (site : Site) (p : Packet) : Bool :=
  decide (p.source = some site) && match p.kind with
    | .writeRow _ _ => true
    | .answer _ _ _ => match moveEntry s site p.seq with
      | some e => decide ((dOp e.desc = 2 ∨ dOp e.desc = 3) ∧ p.index < moveRows e.desc)
      | none => false
    | _ => false

/-- The scratchpads to which a tile's unicast rows have not been acknowledged, and the multicasts with such rows. -/
def tracked (s : State) (site : Site) : List Nat × List (BitVec 16) :=
  let ps := s.net.filter (rowUnacked s site)
  (((ps.filter fun p => !p.mcast && decide (addrRange p.addr = some 2 ∨ addrRange p.addr = some 3)).map fun p => p.addr / 0x400000 * 0x400000).eraseDups,
    ((ps.filter (·.mcast)).map (·.seq)).eraseDups)

/-- Whether checked mode's table of 32 has the entries that a PUT or MCAST needs: one for each destination tile that has none, or one for a multicast (R224). -/
def trackerRoom (s : State) (site : Site) (e : QEntry) : Bool :=
  let (tiles, casts) := tracked s site
  let need := if dOp e.desc = 3 then 1 else if dOp e.desc = 2 then ((moveTargets s site e).filter fun a => !tiles.contains a).length else 0
  !regBit s (syncReg site 0) 1 || decide (need = 0 ∨ tiles.length + casts.length + need ≤ 32)

/-- Whether the head of the move queue may start (R113, R224). -/
def moveFree (s : State) (site : Site) (e : QEntry) : Bool := decide (movesRunning (tileOf s site) < 8) && trackerRoom s site e

/-- A MOVE that its head check refuses: a multicast leaves its miss record (R116, R206). -/
def moveRefused (s : State) (site : Nat) (e : QEntry) : State :=
  match moveEntry s site e.seq with
  | some x => match x.prog with
    | .done st => if dOp e.desc = 3 ∧ st ≠ 0 then missRecord s site e (moveExec0 s e) st else s
    | _ => s
  | none => s

/-- A MOVE of one operation at the head of the move queue, checked as soon as it is the head and started once it may (R113, R116); a reserved MOP is taken by any of them (log entry 18). -/
def moveStep (op : Nat) (site : Site) (events : List RowEvent) (s : State) : Answer :=
  match queueHead (tileOf s site) .move with
  | some e =>
    guarded (clusterOn s (siteCluster site) && decide (dOp e.desc = op ∨ 5 < dOp e.desc) &&
      (decide (e.prog = .queued) || (moveFree s site e && decide (e.prog ≠ .waiting)))) s
      (let s := moveRefused (headStep s site .move e (moveCheck s site e.desc)) site e
       if headGranted s site .move e.seq && moveFree s site e then moveBegin s site e events else s)
  | none => answer s

/-- MOVE_COPY (R129). -/
def execMoveCopy (site : Site) (events : List RowEvent) (s : State) : Answer := moveStep 0 site events s
/-- MOVE_GET (R129). -/
def execMoveGet (site : Site) (s : State) : Answer := moveStep 1 site [] s
/-- MOVE_PUT (R129). -/
def execMovePut (site : Site) (events : List RowEvent) (s : State) : Answer := moveStep 2 site events s
/-- MOVE_MCAST (R129, R201 to R203). -/
def execMoveMcast (site : Site) (events : List RowEvent) (s : State) : Answer := moveStep 3 site events s
/-- MOVE_IMEM (R129). -/
def execMoveImem (site : Site) (events : List RowEvent) (s : State) : Answer := moveStep 4 site events s
/-- MOVE_ZERO (R129). -/
def execMoveZero (a : SiteRows) (s : State) : Answer := moveStep 5 a.site a.events s

/-! ## At the target -/

/-- The source of a packet. -/
def packetSrc (s : State) (p : Packet) : Src :=
  match p.source with
  | some x => tileSrc s x
  | none => ⟨none, p.master.toNat, 0xFF, 6, false⟩

def isRow (p : Packet) : Bool := match p.kind with
  | .writeRow _ _ => true
  | .readRow => true
  | _ => false

/-- A change of the move that a packet belongs to. -/
def modMove (s : State) (p : Packet) (f : MoveExec → MoveExec) : State :=
  match p.source with
  | none => s
  | some x => modTile s x fun t => { t with moves := t.moves.map fun m => if m.seq = p.seq then f m else m }

/-- A row refused or answered with an error: the signal that was to follow it is withdrawn (R130). -/
def withdrawRsem (s : State) (p : Packet) : State :=
  let base := p.addr / 0x400000
  let gone (q : Packet) : Bool := decide (q.source = p.source ∧ q.seq = p.seq ∧ q.addr / 0x400000 = base) && match q.kind with
    | .rsem _ => true
    | _ => false
  let ids := (s.net.filter gone).map (·.order)
  modMove { s with net := s.net.filter fun q => !gone q } p fun m =>
    { m with failedTargets := (base * 0x400000) :: m.failedTargets, pending := m.pending.filter fun i => !ids.contains i }

/-- A row taken by a target of a multicast: its count and its instants (R203, R204). -/
def branchTook (s : State) (p : Packet) : State :=
  if p.mcast then
    modMove s p fun m =>
      let k := p.addr / 0x400000
      let x := mget ⟨0, 0, 0⟩ m.taken k
      { m with taken := mset ⟨0, 0, 0⟩ m.taken k ⟨x.rows + 1, if x.rows = 0 then now s else x.first, now s⟩ }
  else s

/-- The path of a multicast's packet without what it shares with a target that has taken the same packet already: its flits passed there once for all of them (R201, R203). -/
def treePath (s : State) (p : Packet) : Path :=
  match p.source with
  | none => packetPath s p
  | some site => match findMove s site p.seq, packetPath s p with
    | some m, .ok ss hs fs =>
      let took (a : Nat) : Bool :=
        if m.dropped.contains a then decide (p.index < (mget ⟨0, 0, 0⟩ m.taken (a / 0x400000)).rows)
        else !s.net.any fun q => q.mcast && decide (q.source = some site ∧ q.seq = p.seq ∧ q.index = p.index ∧ q.addr / 0x400000 * 0x400000 = a) && !isAnswer q
      (m.targets.filter fun a => decide (a ≠ p.addr / 0x400000 * 0x400000) && took a).foldl (fun path a =>
        match path, packetPath s { p with addr := a } with
        | .ok ss hs fs, .ok ss' hs' _ => .ok (ss.filter fun x => !ss'.contains x) (hs.filter fun x => !hs'.contains x) fs
        | path, _ => path) (.ok ss hs fs)
    | _, path => path

/-- A packet's flits cross the way that it took, and are counted there (R208, R354, R355). -/
def countPacket (s : State) (p : Packet) (flits : Nat) : State :=
  let path := if p.mcast then treePath s p else packetPath s p
  countPath (crossPath s (trafficRegion s p.source p.vc) path (blockDomain s p.addr)) path flits

/-- Whether every fork of a multicast's tree has room for a row on its way; any other packet needs none (R203). -/
def forksRoom (s : State) (p : Packet) : Bool :=
  if !p.mcast || !isRow p then true
  else match p.source with
    | none => true
    | some site => match findMove s site p.seq, siteOfLt s ((p.addr - 0x200000000000) / 0x400000) with
      | some m, some x => legRoom (mcLegs s site m) (mcLeg s site x) p.index || m.dropped.contains (p.addr / 0x400000 * 0x400000)
      | _, _ => true

/-- A multicast whose targets took a row sends those for which there is room now (R203). -/
def feedMove (s : State) (p : Packet) : State :=
  if !p.mcast then s
  else match p.source with
    | none => s
    | some site => match findMove s site p.seq, moveEntry s site p.seq with
      | some m, some e =>
        let (s, m) := moveFeed s site e [] m
        setMove s site m
      | _, _ => s

/-- A row packet served at its address: written or read, and answered. -/
def rowArrive (s : State) (p : Packet) (events : List RowEvent) (found : HbmFind) : State :=
  let src := packetSrc s p
  let s := countPacket s p (match p.kind with
    | .writeRow _ _ => 4
    | _ => 1)
  let (s, r) := match packetPath s p, p.kind with
    | .error, _ => (s, RowAns.err 0x0B)
    | _, .writeRow d t =>
      let (s, st) := rowWriteAt s p.addr src events d t found
      (s, ⟨st, [], 0⟩)
    | _, _ => rowReadAt s p.addr src events found
  let s := answerPacket (branchTook s p) p r
  feedMove (if r.status ≠ 0 then withdrawRsem s p else s) p

/-- REMOTE_ROW_ARRIVAL (R160 to R163, R199, R200): a row reaches a scratchpad, a field-memory slice or nothing. -/
def execRemoteRowArrival (packet : Nat) (events : List RowEvent) (s : State) : Answer :=
  match findPacket s packet with
  | none => answer s
  | some p =>
    guarded (isRow p && decide (targetOf s p.addr ≠ .hbm) && packetFirst s p && (packetPath s p).open && forksRoom s p) s (rowArrive s p events .clean)

/-- HBM_ACCESS (R253 to R257, R620): a row reaches its HBM controller; an access to a stack that retrains waits (R262). -/
def execHbmAccess (packet : Nat) (found : HbmFind) (s : State) : Answer :=
  match findPacket s packet with
  | none => answer s
  | some p =>
    guarded (isRow p && decide (targetOf s p.addr = .hbm) && packetFirst s p && (packetPath s p).open && !stackHolds s p.addr) s
      (rowArrive s p [] found)

/-! ## Back at the source -/

/-- A row that a read brought back, landed in scratchpad or IMEM, which keeps no tags (log entry 139). -/
def landRow (s : State) (site : Nat) (e : QEntry) (m : MoveExec) (i : Nat) (events : List RowEvent) (data : List Byte) (tags : BitVec 8) : State × MoveExec :=
  if dOp e.desc = 4 then
    ({ s with imem := memWrite s.imem (site * 65536 + (moveUnit e.desc + i) * 512) data }, m)
  else
    let row := moveLocal e.desc + i
    if bankServes s site row reqMove then (rowWrite s site row reqMove events data tags, m)
    else (offAccess s site row reqMove, { m with status := 0x07, pending := [] })

/-- What an answer changes in its move (R130, R162): a target that answers with an error is missing, whether it refused a row or the signal (R205). -/
def moveAnswered (s : State) (site : Nat) (e : QEntry) (m : MoveExec) (addr i : Nat) (events : List RowEvent) (status : BitVec 8) (data : List Byte)
    (tags : BitVec 8) : State × MoveExec :=
  let m := if status ≠ 0 then { m with failedTargets := (addr / 0x400000 * 0x400000) :: m.failedTargets } else m
  if status = 0x0A then (s, { m with windowRefused := true })
  else if status ≠ 0 then (s, { m with otherError := true })
  else if dOp e.desc = 1 ∨ dOp e.desc = 4 then landRow s site e m i events data tags
  else (s, m)

/-- A move with nothing more awaited: on VC2 its signals go out once, then it is done; a MCAST completes by its own step. -/
def moveSettle (s : State) (site : Site) (e : QEntry) (m : MoveExec) (rsemAnswer : Bool) : State :=
  if !m.pending.isEmpty ∨ dOp e.desc = 3 ∧ (!moveVc2 e.desc ∨ rsemAnswer) then setMove s site m
  else if moveVc2 e.desc ∧ !rsemAnswer ∧ (dOp e.desc = 2 ∨ dOp e.desc = 3) ∧ addrRange (moveAddr s site e.desc) ≠ some 4 ∧ m.status = 0 then
    let (s, m) := sendRsems s site e m
    if m.pending.isEmpty ∧ dOp e.desc = 2 then moveDone (setMove s site m) site e m else setMove s site m
  else moveDone (setMove s site m) site e m

/-- ROW_ACKNOWLEDGE (R130, R218): an answer returns on VC3 to the move engine, or to the sync queue for a SIGNAL; a move that has stopped takes no more. -/
def execRowAcknowledge (a : PacketRows) (s : State) : Answer :=
  let packet := a.packet
  match findPacket s packet with
  | none => answer s
  | some p => match p.kind, p.source with
    | .answer st data tags, some site =>
      let path := packetPath s p
      let go := fun (s : State) =>
        let s := countPath (crossPath (dropPacket s packet) (trafficRegion s p.source p.vc) path none) path (if data.isEmpty then 1 else 4)
        if p.index = 16384 then setProgS s site .sync p.seq (.done st)
        else match findMove s site p.seq, moveEntry s site p.seq with
        | some m, some e =>
          if e.prog = .running then
            let (s, m) := moveAnswered s site e { m with pending := m.pending.filter fun i => decide (i ≠ packet) } p.addr p.index a.events st data tags
            moveSettle s site e m (decide (p.index = moveRows e.desc))
          else s
        | _, _ => s
      guarded (packetFirst s p && path.open) s (go s)
    | _, _ => answer s

/-! ## Multicast branches (R203 to R206) -/

/-- Whether a logical tile lies on a branch. -/
def onBranch (s : State) (b : McBranch) (lt : Nat) : Bool :=
  match siteOfLt s lt with
  | none => false
  | some x => match b with
    | .field n => decide (siteField x = n.val)
    | .cluster c => decide (siteCluster x = c.val)
    | .quadrant c q => decide (siteCluster x = c.val ∧ (if x % 16 / 4 < 2 then 0 else 2) + (if x % 4 < 2 then 0 else 1) = q.val)
    | .tile t => decide (x = t.val)

/-- The field whose hub times a branch: that of the fork that holds it. A field's branch is held by the crossbar before it on the way from the source (R201, R204). -/
def branchField (s : State) (site : Nat) (b : McBranch) : Nat :=
  match b with
  | .field n =>
    let way := match crossWay s (siteField site) n.val with
      | .ok _ _ fs => fs
      | _ => fieldSteps true 6 (siteField site) n.val
    (way.dropLast.getLast?).getD (siteField site)
  | .cluster c => clusterField c.val
  | .quadrant c _ => clusterField c.val
  | .tile t => siteField t.val

/-- Whether a branch lies on the way to a target: the targets in reach of the fork that holds it. -/
def underFork (s : State) (b : McBranch) (lt : Nat) : Bool :=
  match siteOfLt s lt with
  | none => false
  | some x => match b with
    | .field _ => true
    | .cluster c => decide (siteField x = clusterField c.val)
    | .quadrant c _ => decide (siteCluster x = c.val)
    | .tile t => decide (siteCluster x = siteCluster t.val ∧ attachOf s x = attachOf s t.val)

/-- The time from which a branch's timeout runs: from the last row it took, or else from the first row's arrival at its fork, which is a free time after the start and before any target of the fork took a row (R204; log entry 136). -/
def branchSince (s : State) (m : MoveExec) (b : McBranch) (own : List Nat) : Nat :=
  let take (a : Nat) : McTake := mget ⟨0, 0, 0⟩ m.taken (a / 0x400000)
  let last := own.foldl (fun x a => max x (take a).last) 0
  if own.any fun a => decide (0 < (take a).rows) then last
  else ((m.targets.filter fun a => underFork s b ((a - 0x200000000000) / 0x400000) && decide (0 < (take a).rows)).map fun a => (take a).first).foldl
    min (m.started + m.flight)

/-- MCAST_BRANCH_ABANDON (R204): a branch that took no row for FH_MC_TIMEOUT loses the rows that have not passed its fork; its targets are missing and get no signal. -/
def execMcastBranchAbandon (site : Site) (seq : BitVec 16) (branch : McBranch) (s : State) : Answer :=
  match findMove s site seq with
  | none => answer s
  | some m =>
    let own := m.targets.filter fun a => onBranch s branch ((a - 0x200000000000) / 0x400000) && !m.dropped.contains a
    let passed := own.foldl (fun x a => max x (mget ⟨0, 0, 0⟩ m.taken (a / 0x400000)).rows) 0
    let lost := s.net.filter fun p => p.mcast && decide (p.source = some site ∧ p.seq = seq ∧ passed ≤ p.index) && !isAnswer p &&
      own.contains (p.addr / 0x400000 * 0x400000)
    let timeout := reg64 s (fieldReg (branchField s site branch) 0x008)
    let ids := lost.map (·.order)
    let s' := { s with net := s.net.filter fun p => !ids.contains p.order }
    let m' := { m with abandoned := true, dropped := m.dropped ++ own, failedTargets := own ++ m.failedTargets,
                       pending := m.pending.filter fun i => !ids.contains i }
    guarded (lost.any isRow && decide (branchSince s m branch own + timeout ≤ now s)) s
      (match moveEntry s site seq with
       | some e =>
         let (s, m) := moveFeed s' site e [] m'
         moveSettle (setMove s site m) site e m false
       | none => setMove s' site m')

/-- MCAST_COMPLETE (R205, R206): every branch has delivered or been abandoned. -/
def execMcastComplete (site : Site) (seq : BitVec 16) (s : State) : Answer :=
  match findMove s site seq, moveEntry s site seq with
  | some m, some e => guarded (decide (dOp e.desc = 3 ∧ e.prog = .running) && m.pending.isEmpty) s (moveDone s site e m)
  | _, _ => answer s

end Sys2Proof.Machine
end

