-- ==== Sys2Proof/Machine/RegOps.lean ====
section
/-! DEFINITION. Register accesses by field (R463 to R473, R622): access codes, writes while enabled, the capture of an ignored write, 64-bit pairs, and who may write. -/
namespace Sys2Proof.Machine
open Sys2Proof

def isCrown (m : Nat) : Bool := decide (m < 2)
def isEngine (m : Nat) : Bool := decide (0x010 ≤ m ∧ m < 0x01C)

/-- A register address in its physical form (R463); none where the logical tile has no whole cluster behind it, or the address is unlisted. -/
def physAddr (s : State) (a : Nat) : Option Nat :=
  if logicalTileBase ≤ a ∧ a < logicalTileBase + 0x100000000 then
    let t := (a - logicalTileBase) / 0x10000
    if t < 2700 then (siteOfLt s t).map fun site => tileBase site + a % 0x10000 else none
  else some a

/-- The capture block of a register: the first 4 KiB of its block (R470). -/
def captureBase : RegBlock → Nat
  | b => b.base

/-- Whether a cluster is neither dark nor OFF; one whose power-up is DEFERRED is OFF still (R378, R466; DEDUCED, log entry 158). -/
def clusterFed (s : State) (c : Nat) : Bool := match (clusterRec s c).power with
  | .off => false
  | .deferred => false
  | .dark => false
  | _ => true

/-- Whether a cluster's blocks answer (R466): a regulator's also while its cluster is dark and its zone fuse closed. -/
def blockAnswers (s : State) (b : RegBlock) : Bool :=
  match b with
  | .array x => clusterFed s (siteCluster x)
  | .spad x => clusterFed s (siteCluster x)
  | .net x => clusterFed s (siteCluster x)
  | .sync x => clusterFed s (siteCluster x)
  | .hub c => clusterFed s c
  | .vr c => clusterFed s c || (decide ((clusterRec s c).power = .dark) && !(zoneRec s (c / 8)).fuseOpen)
  | _ => true

/-- Whether a block that answers takes writes: the regulator of a dark cluster is readable alone (R466). -/
def blockTakes (s : State) (b : RegBlock) : Bool :=
  match b with
  | .vr c => clusterFed s c
  | _ => true

/-- Whether a master may write a register of a block (R622). -/
def mayWrite (b : RegBlock) (off master : Nat) : Bool :=
  match b with
  | .barrier => isCrown master || isEngine master
  | .net _ => decide (off < 0x100) || isCrown master
  | .field _ => decide (off < 0x1000 ∨ 0x3000 ≤ off) || isCrown master || isEngine master
  | .vr _ => isCrown master
  | .mbox => decide (off < 0x1000 ∨ (0x1200 ≤ off ∧ off ≠ 0x1800)) || decide (master = 0)
  | _ => true

/-- Whether any WRITE_IGNORED flag of a block is set: one capture serves them all (R471). -/
def anyIgnored (s : State) (b : RegBlock) : Bool :=
  match b with
  | .barrier => (List.range 64).any fun g => regBit s (bgReg g 4) 24
  | .mbox => regBit s (mboxReg 0x1804) 8 || regBit s (mboxReg 0x1804) 0
  | b => let (r, i) := regIgnoredFlag b 0; regBit s r i

/-- An ignored write of RWD fields: the flag, the count, and the capture when no flag of the block was set (R469 to R471). -/
def ignoredWrite (s : State) (b : RegBlock) (off named master : Nat) : State :=
  let armed := !anyIgnored s b
  let (r, i) := regIgnoredFlag b off
  let s := regAdd (regSetBit s r i true) (captureBase b + 0xFFC) 1
  if armed then regPut (reg64Put s (captureBase b + 0xFF0) named) (captureBase b + 0xFF8) (BitVec.ofNat 32 master) else s

/-- A 32-bit write judged field by field against EN before it (R468, R469, R473). -/
def fieldWrite (s : State) (b : RegBlock) (off named master : Nat) (v : Word32) : State :=
  match regSpec b off with
  | none => s
  | some sp =>
    let a := b.base + off
    let old := regGet s a
    if sp.wm then
      let mask := v >>> 16
      regPut s a ((old &&& ~~~mask) ||| (v &&& mask))
    else
      let (er, eb) := regEnable b off
      let en := regBit s er eb
      let rw := BitVec.ofNat 32 sp.rw
      let rwd := BitVec.ofNat 32 sp.rwd
      let w1c := BitVec.ofNat 32 sp.w1c
      let clash := en && decide ((old ^^^ v) &&& rwd ≠ 0)
      let take := if en then rw else rw ||| rwd
      let new := ((old &&& ~~~take) ||| (v &&& take)) &&& ~~~(v &&& w1c)
      let s := regPut s a new
      if clash then ignoredWrite s b off named master else s

/-- Key of a master's read or write shadow of a pair (R472). -/
def shadowKey (lo master : Nat) (write : Bool) : Nat := (lo * 1024 + master) * 2 + boolNat write

def shadowGet (s : State) (lo master : Nat) (write : Bool) : Word32 := mget 0 s.shadows (shadowKey lo master write)
def shadowPut (s : State) (lo master : Nat) (write : Bool) (v : Word32) : State :=
  { s with shadows := mset 0 s.shadows (shadowKey lo master write) v }

end Sys2Proof.Machine
end

