-- ==== Sys2Proof/Machine/Sync.lean ====
section
/-! DEFINITION. The sync queue, fences, remote signals, barrier groups and step releases of tiles (R131 to R135, R213 to R243). -/
namespace Sys2Proof.Machine
open Sys2Proof

/-! ## Fences (R225 to R227) -/

/-- The smallest scope that covers a device address, seen from a tile (R225). -/
def addrScope (s : State) (site a : Nat) : Nat :=
  match targetOf s a with
  | .tile x _ => if x = site then 0 else if siteCluster x = siteCluster site ∧ !siteSurplus s site then 1 else 2
  | .fabric => 3
  | _ => 2

/-- The smallest scope that covers a destination of a MOVE. -/
def moveScope (s : State) (site : Nat) (d : BitVec 128) : Nat :=
  match dOp d with
  | 2 => ((List.range (max 1 ((moveRows d + 8191) / 8192 + 1))).map fun i =>
      addrScope s site (min (moveAddr s site d + 0x400000 * i) (moveAddr s site d + 512 * (moveRows d - 1)))).foldl min 3
  | 3 => (mcastTargets s site (moveGroup d)).foldl (fun a t => min a (addrScope s site (0x200000000000 + t * 0x400000))) 2
  | _ => 0

/-- Whether a fence of a scope covers a command (R226). -/
def fenceCovers (s : State) (site scope : Nat) (q : QueueId) (e : QEntry) : Bool :=
  match q with
  | .array => true
  | .vector => true
  | .move => decide (moveScope s site e.desc ≤ scope)
  | .sync => decide (dKind e.desc = 5 ∧ dOp e.desc = 0) &&
      (let t := syncTarget e.desc
       decide (t ≠ 0xFFF) && (match siteOfLt s t with
         | some x => decide (x ≠ site) && decide ((if siteCluster x = siteCluster site then 1 else 2) ≤ scope)
         | none => false))

/-- The commands among those listed that a fence covers. -/
def coveredOf (s : State) (site scope : Nat) (ids : List (QueueId × BitVec 16)) : List (QueueId × BitVec 16) :=
  ids.filter fun (q, n) => (queueOf (tileOf s site) q).entries.any fun e => decide (e.seq = n) && fenceCovers s site scope q e

/-- Whether every covered command has retired. -/
def fenceMet (t : Tile) (f : FenceRec) : Bool :=
  f.covered.all fun (q, n) => !(queueOf t q).entries.any fun e => decide (e.seq = n)

/-- FENCE: the core stalls for the commands accepted before it; a scope above HOST is no instruction (R103, R225, R226). -/
def execFence (site : Site) (core : CoreId) (imm : BitVec 16) (s : State) : Answer :=
  let scope := imm.toNat % 8
  guarded (coreReady s site core) s
    (if 4 < scope then trapCore s site core 1 (corePc s site core)
     else modCore s site core fun k =>
       { k with status := .fenced, fence := some ⟨scope, coveredOf s site scope (unretired (tileOf s site))⟩ })

/-- FENCE_COMPLETE (R226). -/
def execFenceComplete (site : Site) (agent : FenceAgent) (s : State) : Answer :=
  let t := tileOf s site
  match agent with
  | .core c => match (coreOf t c).fence with
    | some f => guarded (decide ((coreOf t c).status = .fenced) && fenceMet t f) s
        (coreResume (modCore s site c fun k => { k with fence := none }) site c)
    | none => answer s
  | .sync => match t.syncFence, t.syncQ.entries with
    | some f, e :: _ => guarded (fenceMet t f) s
        (setProgS (modTile s site fun t => { t with syncFence := none }) site .sync e.seq (.done 0))
    | _, _ => answer s

/-! ## The head of the sync queue -/

/-- The status of a SYNC's head check (R116, R131). -/
def syncCheck (d : BitVec 128) : Nat :=
  if 4 < syncScope d ∨ (dOp d ≤ 2 ∧ 47 < syncSem d) ∨ (dOp d = 0 ∧ syncTarget d ≠ 0xFFF ∧ 2699 < syncTarget d) then 0x0D
  else if 5 < dOp d ∧ semField (dWaitSem d) ∧ semField (dSigSem d) then 0x0E
  else 0

/-- The head of the sync queue taken through its check and wait, and run; the queue holds it while SYNC_CTRL.EN is 0 (R238). -/
def syncHead (s : State) (site : Nat) (p : QEntry → Bool) (check : BitVec 128 → Nat) (run : State → QEntry → State) : Answer :=
  match queueHead (tileOf s site) .sync with
  | some e =>
    guarded (clusterOn s (siteCluster site) && syncEnabled s site && queueFirst s site .sync e.seq && p e && decide (e.prog ≠ .waiting)) s
      (let s := headStep s site .sync e (check e.desc)
       if headGranted s site .sync e.seq then run s e else s)
  | none => answer s

/-- A SYNC of one operation: a reserved SOP is taken by any of them (log entry 18). -/
def syncStep (op : Nat) (site : Site) (s : State) (run : State → QEntry → State) : Answer :=
  syncHead s site (fun e => decide (dKind e.desc = 5 ∧ (dOp e.desc = op ∨ 5 < dOp e.desc))) syncCheck run

def syncDone (s : State) (site : Nat) (e : QEntry) (st : BitVec 8) : State := setProgS s site .sync e.seq (.done st)

/-- The pending count of a signal in checked mode (R222): rows to its target not yet acknowledged, at most 255; an ordered signal leaves out the unicast rows of VC1, which it cannot pass. -/
def pendingRows (s : State) (site : Site) (target : Nat) (ord : Bool) : Nat :=
  if regBit s (syncReg site 0) 1 then
    min 255 (s.net.filter fun p =>
      rowUnacked s site p && decide (p.addr / 0x400000 = ltBase target / 0x400000) &&
      !(ord && !p.mcast && (match moveEntry s site p.seq with
        | some e => !moveVc2 e.desc
        | none => false))).length
  else 0

/-- The row index that marks the packet of a SYNC SIGNAL. -/
def signalIndex : Nat := 16384

/-- SIGNAL: local units at once, a remote one as a packet that retires with its acknowledgement (R218 to R222). -/
def signalRun (s : State) (site : Site) (e : QEntry) : State :=
  let d := e.desc
  let t := syncTarget d
  if t = 0xFFF ∨ ltOfSite s site = some t then
    syncDone (semSignal s site (syncSem d) (syncCount d) { ownSignal s site 6 (syncCount d) with ord := syncOrd d }) site e 0
  else
    let inRegion := match regionOfSite s site with
      | some r => regionHasLc s r (t / 15)
      | none => false
    if inRegion then
      let p : Packet :=
        { order := 0, turn := 0, credits := 0, vc := if syncOrd d then 1 else 2, source := some site, master := 0x3FF, addr := ltBase t,
          seq := e.seq, index := signalIndex, mcast := false,
          kind := .signal (syncSem d) (syncCount d) (syncOrd d) (pendingRows s site t (syncOrd d)) }
      sendPacket (setProgS s site .sync e.seq .running) p
    else syncDone s site e 0x0D

/-- SYNC_SIGNAL (R218). -/
def execSyncSignal (site : Site) (s : State) : Answer := syncStep 0 site s fun s e => signalRun s site e

/-- A WAIT or WATCH of the sync queue; a count of 0 completes at once (R215). -/
def waitRun (s : State) (site : Nat) (e : QEntry) (watch : Bool) : State :=
  if syncCount e.desc = 0 then syncDone s site e 0
  else semWaitBegin (setProgS s site .sync e.seq .running) site (.queue .sync) (syncSem e.desc) watch (syncCount e.desc)

/-- SYNC_WAIT (R215). -/
def execSyncWait (site : Site) (s : State) : Answer := syncStep 1 site s fun s e => waitRun s site e false

/-- SYNC_WATCH (R215). -/
def execSyncWatch (site : Site) (s : State) : Answer := syncStep 2 site s fun s e => waitRun s site e true

def bgGroup (d : BitVec 128) : Nat := syncCount d % 64

/-- What a late arrival leaves at the tile and the root, and the record of the first one in the region's step (R235). -/
def lateArrival (s : State) (site g gen : Nat) : State :=
  let s := regAdd (regSetBit s (syncReg site 4) 1 true) (syncReg site 0x018) 1
  let s := regAdd s (barrierReg (0x800 + 4 * g)) 1
  oncePerStep s site 2 fun s => tileRecord s 0x0305 site (leBytes 4 g ++ leBytes 4 gen)

/-- ARRIVE: a tile that missed releases retires at once and is late; otherwise an arrival goes to the root (R229, R235). -/
def arriveRun (s : State) (site : Site) (e : QEntry) : State :=
  let g := bgGroup e.desc
  let t := tileOf s site
  let gen := mget 0 t.bgGen g
  let missed := mget 0 t.bgMissed g
  if missed ≠ 0 then
    let s := modTile s site fun t => { t with bgMissed := mset 0 t.bgMissed g (missed - 1) }
    syncDone (lateArrival s site g ((gen + 256 - missed % 256) % 256)) site e 0
  else
    let p : Packet :=
      { order := 0, turn := 0, credits := 0, vc := 0, source := some site, master := 0x3FF, addr := barrierReg (32 * g), seq := e.seq, index := 0,
        mcast := false, kind := .arrive g gen }
    sendPacket (setProgS s site .sync e.seq .running) p

/-- SYNC_ARRIVE (R229). -/
def execSyncArrive (site : Site) (s : State) : Answer := syncStep 3 site s fun s e => arriveRun s site e

/-- SYNC_FENCE (R226). -/
def execSyncFence (site : Site) (s : State) : Answer :=
  syncStep 4 site s fun s e =>
    modTile (setProgS s site .sync e.seq .running) site fun t =>
      { t with syncFence := some ⟨syncScope e.desc, coveredOf s site (syncScope e.desc) e.covers⟩ }

/-- SYNC_UNTIL (R131). -/
def execSyncUntil (site : Site) (s : State) : Answer := syncStep 5 site s fun s e => setProgS s site .sync e.seq .running

/-- UNTIL_EXPIRE (R350): the local counter has reached TIME. -/
def execUntilExpire (site : Site) (s : State) : Answer :=
  match (tileOf s site).syncQ.entries with
  | e :: _ =>
    guarded (decide (e.prog = .running ∧ dKind e.desc = 5 ∧ dOp e.desc = 5 ∧ syncTime e.desc ≤ localTime s site)) s (syncDone s site e 0)
  | [] => answer s

/-! ## Control commands (R133, R134) -/

/-- The status of a CTRL's head check; a reserved KIND is BAD_KIND (R116). -/
def ctrlCheck (d : BitVec 128) : Nat :=
  if dKind d ≠ 6 then 0x01
  else if 3 < dOp d ∧ semField (dWaitSem d) ∧ semField (dSigSem d) then 0x0E
  else 0

def ctrlStep (op : Nat) (site : Site) (s : State) (run : State → QEntry → State) : Answer :=
  syncHead s site (fun e => decide (dKind e.desc = 6 ∧ (dOp e.desc = op ∨ 3 < dOp e.desc)) ||
    (decide (op = 0 ∧ dKind e.desc ≠ 5 ∧ dKind e.desc ≠ 6))) ctrlCheck run

/-- CTRL_NOP (R133); it also takes a command of a reserved KIND (log entry 18). -/
def execCtrlNop (site : Site) (s : State) : Answer := ctrlStep 0 site s fun s e => syncDone s site e 0

/-- KEYLOAD: bytes 0 to 15 of KROW are the key, 16 to 19 the tag and 20 to 23 the step (R133, R320). -/
def keyloadRun (s : State) (site : Nat) (e : QEntry) (events : List RowEvent) : State :=
  let row := ctrlKrow e.desc
  if bankServes s site row reqMove then
    let (s, d, tags) := rowRead s site row reqMove events
    if tags.toNat.testBit 0 then syncDone s site e 0x08
    else
      let k : KeySlot := ⟨BitVec.ofNat 128 (leAt d 0 16), BitVec.ofNat 32 (leAt d 16 4), BitVec.ofNat 32 (leAt d 20 4)⟩
      syncDone (modTile s site fun t => { t with keySlots := mset ⟨0, 0, 0⟩ t.keySlots (ctrlKslot e.desc) k }) site e 0
  else syncDone (offAccess s site row reqMove) site e 0x07

/-- KEYLOAD (R133). -/
def execKeyload (site : Site) (events : List RowEvent) (s : State) : Answer := ctrlStep 1 site s fun s e => keyloadRun s site e events

/-- SETBASE (R133). -/
def execSetbase (site : Site) (s : State) : Answer :=
  ctrlStep 2 site s fun s e =>
    syncDone (modTile s site fun t => { t with baseSlots := mset 0 t.baseSlots (ctrlBslot e.desc) (BitVec.ofNat 48 (ctrlBase e.desc)) }) site e 0

/-- PREWARN: a load warning for the first MMA that enters within 2 µs (R134). -/
def execPrewarn (site : Site) (s : State) : Answer :=
  ctrlStep 3 site s fun s e =>
    syncDone (modTile (loadWarning s site) site fun t => { t with preWarn := some (now s) }) site e 0

/-- COMMAND_RETIRE (R113 to R116): a command that is done leaves its queue. -/
def execCommandRetire (site : Site) (queue : QueueId) (seq : BitVec 16) (s : State) : Answer :=
  match (queueOf (tileOf s site) queue).entries.find? fun e => decide (e.seq = seq) with
  | some e => match e.prog with
    | .done st => guarded (clusterOn s (siteCluster site) && retireReady s site e) s (retire s site queue e st)
    | _ => answer s
  | none => answer s

/-! ## Remote signals (R216 to R223, R238) -/

/-- SYNC_OVT_SRC (R237, R314). -/
def ovtSrc (s : State) (source : Option Site) (sem pend : Nat) (ord : Bool) : Word32 :=
  let t := match source with
    | none => 0xFFF
    | some x => if siteSurplus s x.val then x.val + 2 ^ 27 else (ltOfSite s x.val).getD 0xFFF
  BitVec.ofNat 32 (t + sem * 2 ^ 12 + pend * 2 ^ 18 + boolNat ord * 2 ^ 26)

/-- A signal with a non-zero pending count (R223). -/
def overtake (s : State) (site : Nat) (source : Option Site) (sem pend : Nat) (ord : Bool) : State :=
  let s := regAdd (regSetBit s (syncReg site 4) 0 true) (syncReg site 0x008) 1
  let s := reg64Put (regPut s (syncReg site 0x00C) (ovtSrc s source sem pend ord)) (syncReg site 0x010) (now s)
  let src := match source with
    | some x => tileName s x.val
    | none => 0xFFF
  oncePerStep s site 1 fun s => tileRecord s 0x0304 site
    (leBytes 4 src ++ leBytes 4 (tileName s site) ++ leBytes 4 sem ++ leBytes 4 pend ++ leBytes 8 (now s))

/-- A signal at its target: refused while EN is 0 or where the tables know no such destination, else applied (R210, R238). -/
def signalArrive (s : State) (p : Packet) (sem units path : Nat) (ord : Bool) (pend : Nat) : State :=
  let st : State × Nat := match targetOf s p.addr with
    | .tile site _ =>
      if packetPath s p ≠ .error ∧ syncEnabled s site then
        let name := match p.source with
          | some x => tileName s x.val
          | none => 0xFFF
        let way := if p.source.isSome then path else 8
        let src : LastSignal := { time := now s, source := BitVec.ofNat 16 name, master := p.master, path := way, ord := ord, units := units }
        let s := semSignal s site sem units src
        (if pend ≠ 0 then overtake s site p.source sem pend ord else s, 0)
      else (s, 0x0B)
    | _ => (s, 0x0B)
  answerPacket (countPacket st.1 p 1) p ⟨st.2, [], 0⟩

/-- REMOTE_SIGNAL_ARRIVAL (R216, R219 to R223). -/
def execRemoteSignalArrival (packet : Nat) (s : State) : Answer :=
  match findPacket s packet with
  | none => answer s
  | some p =>
    let ready := packetFirst s p && (packetPath s p).open
    match p.kind with
    | .signal sem n ord pend => guarded ready s (signalArrive s p sem n 6 ord pend)
    | .rsem sem => guarded ready s (signalArrive s p sem 1 7 false 0)
    | _ => answer s

/-! ## Barrier groups (R228 to R236) -/

def bgCfg (s : State) (g : Nat) : Word32 := regGet s (bgReg g 0)
def bgRegion (s : State) (g : Nat) : Nat := rfld (bgCfg s g) 8 6
def bgMode (s : State) (g : Nat) : Nat := rfld (bgCfg s g) 1 2
def bgExpect (s : State) (g : Nat) : Nat := rfld (bgCfg s g) 16 12
def bgEn (s : State) (g : Nat) : Bool := rbit (bgCfg s g) 0
def bgGenOf (s : State) (g : Nat) : Nat := rfld (regGet s (bgReg g 4)) 12 8
def bgDeadline (s : State) (g : Nat) : Nat := reg64 s (bgReg g 8)

/-- The first multiple of `k` at or after `t`. -/
def alignUp (t k : Nat) : Nat := ceilDiv t k * k

/-- The slot of a site (R232). -/
def slotOf (site : Nat) : Nat := 2 * (site % 16) + site / 16 % 2

/-- The member tiles of a region's releases: the sites that serve its logical tiles. -/
def memberSites (s : State) (r : Nat) : List Nat := (regionLcs s r).flatMap fun lc => (List.range 15).filterMap fun i => siteOfLt s (15 * lc + i)

/-- The receivers of a release notice: every member tile, and the regulator of every cluster that holds one (R232, R233). -/
def noticeDsts (sites : List Nat) : List NoticeDst :=
  (sites.filterMap fun x => if h : x < 3072 then some (.tile ⟨x, h⟩) else none) ++
    ((sites.map siteCluster).eraseDups.filterMap fun c => if h : c < 192 then some (.regulator ⟨c, h⟩) else none)

/-- Arms a group with its T_rel: GEN advances, arrivals start afresh and the notices are due (R230, R232). -/
def bgArm (s : State) (g trel : Nat) : State :=
  let gen := bgGenOf s g
  let s := regField (regField (regSetBit s (bgReg g 4) 20 true) (bgReg g 4) 12 8 (gen + 1)) (bgReg g 4) 0 12 0
  let r := groupOf s g
  setGroup s g { r with armed := some (gen, trel), armDue := none, arrived := [], noticesDue := noticeDsts (memberSites s (bgRegion s g)) }

/-- The deadline after a release in MODE 1 or 2: a period later, or lapsed until it is written again (R231). -/
def bgNextDeadline (s : State) (g : Nat) : State :=
  let r := groupOf s g
  let period := reg64 s (bgReg g 0x10)
  if (bgMode s g = 1 ∨ bgMode s g = 2) ∧ r.deadlineSet = true then
    if period ≠ 0 then reg64Put s (bgReg g 8) (bgDeadline s g + max period 6400)
    else setGroup s g { r with deadlineSet := false }
  else s

/-- Fixes a T_rel: the next deadline follows, and the group arms at once, or when slot 31 of the generation still armed has passed (R230, R231). -/
def bgFix (s : State) (g trel : Nat) : State :=
  let s := bgNextDeadline s g
  let r := groupOf s g
  if r.armed.isSome then setGroup s g { r with armDue := some trel } else bgArm s g trel

/-- An ARRIVE refused by the root (R229). -/
def arriveRefused (s : State) (site : Site) (seq : BitVec 16) : State :=
  setProgS s site .sync seq (.done 0x0D)

/-- A VC0 packet of one flit passes along a path: its flit and its waits are counted (R189, R208). -/
def controlPass (s : State) (p : Path) : State := vc0Waits (countPath (crossPath s none p none) p 1) p

/-- An arrival at the root: refused, late, or counted, and the count that arms the group (R229, R230, R235). -/
def arrivalAt (s : State) (p : Packet) (site : Site) (g gen : Nat) : State :=
  let member := match regionOfSite s site with
    | some r => decide (r = bgRegion s g) && !siteSurplus s site
    | none => false
  if !bgEn s g || !member then arriveRefused s site p.seq
  else
    let r := groupOf s g
    let s := setGroup s g { r with pendingArrive := r.pendingArrive ++ [(site, gen)] }
    if gen ≠ bgGenOf s g then lateArrival s site g gen
    else
      let r := groupOf s g
      let n := rfld (regGet s (bgReg g 4)) 0 12 + 1
      let s := regField (setGroup s g { r with arrived := r.arrived ++ [site] }) (bgReg g 4) 0 12 n
      let count := alignUp (now s + 6400) 2048
      let early := !r.deadlineSet || decide (now s + 6400 < bgDeadline s g)
      if n = bgExpect s g ∧ r.armDue.isNone ∧ (bgMode s g = 0 ∨ (bgMode s g = 2 ∧ early)) then
        bgFix s g (if bgMode s g = 2 ∧ r.deadlineSet then min count (bgDeadline s g) else count)
      else s

/-- BARRIER_ARRIVAL (R229, R230, R235); where the tables know no way to the root, the arrival is answered with an error (R210). -/
def execBarrierArrival (packet : Nat) (s : State) : Answer :=
  match findPacket s packet with
  | none => answer s
  | some p => match p.kind, p.source with
    | .arrive g gen, some site =>
      let path := packetPath s p
      guarded path.open s
        (if path = .error then setProgS (dropPacket s packet) site .sync p.seq (.done 0x0B)
         else arrivalAt (controlPass (dropPacket s packet) path) p site g gen)
    | _, _ => answer s

/-- BARRIER_DEADLINE_ARM (R230): 6,400 DTU before BG_DEADLINE. -/
def execBarrierDeadlineArm (group : Fin 64) (s : State) : Answer :=
  let r := groupOf s group
  guarded (bgEn s group && decide (bgMode s group = 1 ∨ bgMode s group = 2) && r.deadlineSet && r.armDue.isNone &&
      decide (bgDeadline s group ≤ now s + 6400)) s
    (bgFix s group (bgDeadline s group))

/-- The slots of a region's member tiles in a cluster, lowest and highest. -/
def clusterSlots (c : Nat) (sites : List Nat) : Option (Nat × Nat) :=
  match (sites.filter fun x => decide (siteCluster x = c)).map slotOf with
  | [] => none
  | x :: xs => some (xs.foldl min x, xs.foldl max x)

/-- The boost that a release notice arms in a regulator (R383). -/
def armBoost (s : State) (c trel : Nat) (sites : List Nat) : State :=
  match clusterSlots c sites with
  | none => s
  | some (lo, hi) => modCluster s c fun r => { r with relBoosts := r.relBoosts ++ [(trel + 128 * lo - 3200, trel + 128 * hi + 12800)] }

/-- The way of a release notice: from the barrier unit in F0, or from the order engine in the receiver's own field (R228, R234; log entry 140), to a tile or to the hub whose cluster the regulator feeds. -/
def noticePath (s : State) (src : NoticeSrc) (dst : NoticeDst) : Path :=
  let far := match dst with
    | .tile x => NetEnd.tile x.val
    | .regulator c => .hub c.val
  let near := match src with
    | .group _ => 0
    | .step _ => far.fieldOf
  pathOf s 0 0 (.field near) far

/-- RELEASE_NOTICE (R232 to R234): a tile holds the notice of a group or of its region's step; a regulator arms its boost. A notice for which the tables know no destination reaches nobody (R210). -/
def execReleaseNotice (src : NoticeSrc) (dst : NoticeDst) (s : State) : Answer :=
  let path := noticePath s src dst
  match src with
  | .group g =>
    let r := groupOf s g
    match r.armed with
    | none => answer s
    | some (gen, trel) =>
      let s' := controlPass (setGroup s g { r with noticesDue := r.noticesDue.erase dst }) path
      guarded (r.noticesDue.contains dst && path.open) s
        (if path = .error then s' else match dst with
          | .tile x => modTile s' x fun t => { t with notices := t.notices ++ [⟨src, gen, trel⟩] }
          | .regulator c => armBoost s' c trel (memberSites s (bgRegion s g)))
  | .step n =>
    let r := regionOf s n
    match r.batch with
    | none => answer s
    | some b => match b.releaseAt with
      | none => answer s
      | some trel =>
        let s' := controlPass (setRegion s n { r with tileNotices := r.tileNotices.erase dst }) path
        guarded (r.tileNotices.contains dst && path.open) s
          (if path = .error then s' else match dst with
            | .tile x => modTile s' x fun t => { t with stepPending := some ⟨src, r.stepNo, trel⟩ }
            | .regulator c => armBoost s' c trel (regionSites s n))

/-- A tile released for a generation of a group: its pending ARRIVE retires, or the release is missed (R232, R235); the next array start ramps (R77). -/
def releaseTile (s : State) (site : Site) (g : Nat) (n : Notice) : State :=
  let s := modTile s site fun t => { t with notices := t.notices.filter fun x => decide (x ≠ n), rampDue := true,
                                            bgGen := mset 0 t.bgGen g ((mget 0 t.bgGen g + 1) % 256) }
  match (tileOf s site).syncQ.entries with
  | e :: _ =>
    if e.prog = .running ∧ dKind e.desc = 5 ∧ dOp e.desc = 3 ∧ bgGroup e.desc = g then
      let r := groupOf s g
      syncDone (setGroup s g { r with pendingArrive := r.pendingArrive.filter fun x => decide (x.1 ≠ site) }) site e 0
    else modTile s site fun t => { t with bgMissed := mset 0 t.bgMissed g (mget 0 t.bgMissed g + 1) }
  | [] => modTile s site fun t => { t with bgMissed := mset 0 t.bgMissed g (mget 0 t.bgMissed g + 1) }

/-- BARRIER_RELEASE_SLOT (R232): the tile's local counter reaches its slot instant. -/
def execBarrierReleaseSlot (site : Site) (group : Fin 64) (s : State) : Answer :=
  match (tileOf s site).notices.find? fun n => decide (n.src = .group group) with
  | none => answer s
  | some n => guarded (decide (n.time + 128 * slotOf site ≤ localTime s site)) s (releaseTile s site group n)

/-- A group cleared: pending ARRIVEs retire with BAD_SYNC and every count restarts at 0 (R236). -/
def bgClear (s : State) (g : Nat) : State :=
  let r := groupOf s g
  let s := r.pendingArrive.foldl (fun s (x, _) =>
    match (tileOf s x).syncQ.entries with
    | e :: _ => if e.prog = .running ∧ dKind e.desc = 5 ∧ dOp e.desc = 3 ∧ bgGroup e.desc = g then arriveRefused s x e.seq else s
    | [] => s) s
  let s := (memberSites s (bgRegion s g)).foldl (fun s x =>
    modTile s x fun t => { t with bgGen := mset 0 t.bgGen g 0, bgMissed := mset 0 t.bgMissed g 0 }) s
  let s := regField (regField s (bgReg g 4) 12 8 0) (bgReg g 4) 0 12 0
  setGroup s g { groupOf s g with arrived := [], pendingArrive := [], armDue := none, deferredClear := false }

/-- EN of a group has been cleared: whatever is pending goes at once, or when slot 31 of the armed generation has passed (R236). -/
def bgDropped (s : State) (g : Nat) : State :=
  if regBit s (bgReg g 4) 20 then setGroup s g { groupOf s g with deferredClear := true } else bgClear s g

/-- The device clears EN of a group; a write that waited for slot 31 is superseded (R236). -/
def bgDisable (s : State) (g : Nat) : State :=
  let s := setGroup s g { groupOf s g with deferredCfg := none }
  if bgEn s g then bgDropped (regSetBit s (bgReg g 0) 0 false) g else s

/-- A write of BG_CFG while the group is not deferring a clear: MODE 3 leaves MODE, and an EXPECT of 0 or above 2,700 leaves EN at 0 (R230, R236, R241). -/
def bgCfgWrite (s : State) (g named master : Nat) (v : Word32) : State :=
  let old := bgCfg s g
  let v := if rfld v 1 2 = 3 then rset v 1 2 (rfld old 1 2) else v
  let s := fieldWrite s .barrier (32 * g) named master v
  let e := bgExpect s g
  let s := if e = 0 ∨ 2700 < e then regSetBit s (bgReg g 0) 0 false else s
  if rbit old 0 ∧ !bgEn s g then bgDropped s g else s

/-- A write of BG_CFG: one that sets EN while a clear is deferred waits for slot 31 (R236); a later one that does not set it supersedes it (log entry 141). -/
def bgCfgAccess (s : State) (g named master : Nat) (v : Word32) : State :=
  let r := groupOf s g
  if r.deferredClear && rbit v 0 then setGroup s g { r with deferredCfg := some v }
  else bgCfgWrite (if r.deferredClear then setGroup s g { r with deferredCfg := none } else s) g named master v

/-- BG_EN_CLEAR (R236). -/
def execBgEnClear (master : Master) (group : Fin 64) (value : BitVec 32) (s : State) : Answer :=
  guarded ((isCrown master.toNat || isEngine master.toNat) && bgEn s group && !rbit value 0) s
    (bgCfgAccess s group (bgReg group 0) master.toNat value)

/-- A write of BG_DEADLINE, after which the group has a deadline, which it does not have from reset on (log entry 142): a time nearer than 6,400 DTU is raised to the 2,048-DTU grid (R231). -/
def bgDeadlinePut (s : State) (g t : Nat) : State :=
  let early := decide (t < now s + 6400)
  let s := reg64Put s (bgReg g 8) (if early then alignUp (now s + 6400) 2048 else t)
  let s := if early then regSetBit s (bgReg g 4) 25 true else s
  setGroup s g { groupOf s g with deadlineSet := true }

/-- BG_DEADLINE_WRITE (R231). -/
def execBgDeadlineWrite (master : Master) (group : Fin 64) (value : BitVec 64) (s : State) : Answer :=
  guarded (isCrown master.toNat || isEngine master.toNat) s (bgDeadlinePut s group value.toNat)

/-- BARRIER_SLOT31_PASS (R236, R240): ARMED clears, BG_LASTREL is written, and whatever was deferred follows. -/
def execBarrierSlot31Pass (group : Fin 64) (s : State) : Answer :=
  let g := group.val
  match (groupOf s g).armed with
  | none => answer s
  | some (_, trel) =>
    guarded (decide (trel + 128 * 31 ≤ now s)) s
      (let s := reg64Put (regSetBit s (bgReg g 4) 20 false) (bgReg g 0x18) trel
       let s := setGroup s g { groupOf s g with armed := none }
       let r := groupOf s g
       let s := if r.deferredClear then bgClear s g else s
       let s := match r.deferredCfg with
         | some v => bgCfgWrite (setGroup s g { groupOf s g with deferredCfg := none }) g (bgReg g 0) 0x3FF v
         | none => s
       match (groupOf s g).armDue with
       | some t => bgArm s g t
       | none => s)

/-! ## The step release of a tile (R145, R188, R234) -/

/-- Whether a core runs in its tile's grain: in a gang only SC0 of tile 0 does (R136). -/
def coreAllowed (s : State) (site : Nat) (c : CoreId) : Bool :=
  match gangPlace s site with
  | some (_, _, i) => decide (i = 0 ∧ c = 0)
  | none => true

/-- A core halted by HALT restarts at CR_ENTRY (R108). -/
def restartHalted (s : State) (site : Nat) (c : CoreId) : State :=
  if (coreOf (tileOf s site) c).status = .halted ∧ coreAllowed s site c then coreRestart s site c else s

/-- A region's slides return to 0 at its step release: with the first tile that takes it (R355). -/
def slidesReleased (s : State) (r t : Nat) : State :=
  if (regionOf s r).slidesFrom = t then s
  else modRegion { s with slides := s.slides.filter fun x => decide (x.1 % 64 ≠ r) } r fun g => { g with slidesFrom := t }

/-- TILE_RELEASE_SLOT (R234): rotation, alternation, pass numbering and slip restart, CR_STEP advances but at a recovery step (R534), rewritten routes take effect, and halted cores restart. -/
def execTileReleaseSlot (site : Site) (s : State) : Answer :=
  match (tileOf s site).stepPending with
  | none => answer s
  | some n =>
    guarded (clusterOn s (siteCluster site) && decide (n.time + 128 * slotOf site ≤ localTime s site)) s
      (let inRecovery := match regionOfSite s site with
         | some r => match (regionOf s r).batch with
           | some b => b.recovery
           | none => false
         | none => false
       let s := match regionOfSite s site with
         | some r => slidesReleased s r n.time
         | none => s
       let s := modTile s site fun t =>
         { t with stepPending := none, rot := [], passNo := 0, slip := 0, step := (if inRecovery then t.step else t.step + 1),
                  rampDue := true, releasedAt := tileCycles s site }
       restartHalted (restartHalted (routesTaken s site) site 0) site 1)

end Sys2Proof.Machine
end

