-- ==== Sys2Proof/Machine/Upkeep.lean ====
section
/-! DEFINITION. Scratchpad bank power, write-back and row repair, link errors and route tables, patrol, refresh and zeroing (R147 to R158, R191 to R197, R259 to R261). -/
namespace Sys2Proof.Machine
open Sys2Proof

/-! ## Bank power (R147 to R149, R173) -/

/-- The rows of a bank and their tags dropped: they hold zero. -/
def bankZero (s : State) (site bank : Nat) : State :=
  let k := (site * 8 + bank) * 1040
  { s with spad := memZero s.spad (k * 512) (1040 * 512), spadTag := mdrop s.spadTag (k * 8) (1040 * 8), spadErr := mdrop s.spadErr (k * 64) (1040 * 64) }

/-- A bank set OFF: its contents are lost, and a write-back of it with them. -/
def bankOff (s : State) (site bank : Nat) : State :=
  modTile (bankZero (setBank s site bank .off) site bank) site fun t =>
    { t with writebacks := t.writebacks.filter fun w => decide (bankOf w.1.toNat ≠ bank) }

/-- A request of one bank: 0 OFF, 1 RETAIN, 3 ON (R148). -/
def bankRequest (s : State) (site bank req : Nat) : State :=
  match bankState s site bank with
  | .on => if req = 1 then setBank s site bank .retain else if req = 0 then bankOff s site bank else s
  | .retain => if req = 3 then setBank s site bank (.wake (now s)) else if req = 0 then bankOff s site bank else s
  | .off => if req = 3 ∨ req = 1 then setBank s site bank (.fill (now s)) else s
  | .wake _ => s
  | .fill _ => s

/-- The bits of SP_PWR for a bank. -/
def bankWanted (s : State) (site bank : Nat) : Nat := rfld (regGet s (spadReg site 0x008)) (2 * bank) 2

/-- A write of SP_PWR: the encoding 0b10 leaves its bank's request unchanged (R173); the banks of a HELD region stay as they are (R169). -/
def bankPower (s : State) (site : Nat) (v : Word32) : State :=
  let old := regGet s (spadReg site 0x008)
  let m := fld v.toNat 16 16
  let new := (List.range 8).foldl (fun (w : Word32) b =>
    let x := (rfld old (2 * b) 2 &&& (3 - fld m (2 * b) 2)) ||| (fld v.toNat (2 * b) 2 &&& fld m (2 * b) 2)
    if x = 2 then w else rset w (2 * b) 2 x) old
  let s := regPut s (spadReg site 0x008) new
  (List.range 8).foldl (fun s b => if fld m (2 * b) 2 = 0 ∨ siteHeld s site then s else bankRequest s site b (rfld new (2 * b) 2)) s

/-- BANK_POWER_REQUEST (R148). -/
def execBankPowerRequest (_master : Master) (site : Site) (value : BitVec 32) (s : State) : Answer :=
  guarded (clusterOn s (siteCluster site)) s (bankPower s site value)

/-- The state a bank takes when WAKE or FILL ends: the latest request's (R148). -/
def bankEnd (s : State) (site bank : Nat) : State :=
  match bankWanted s site bank with
  | 3 => setBank s site bank .on
  | 1 => setBank s site bank .retain
  | _ => bankOff s site bank

/-- BANK_WAKE_DONE (R148): 3,200 DTU after leaving RETAIN; a HELD tile stays as it is (R169). -/
def execBankWakeDone (site : Site) (bank : Fin 8) (s : State) : Answer :=
  match bankState s site bank with
  | .wake t => guarded (!siteHeld s site && decide (t + 3200 ≤ now s)) s (bankEnd s site bank)
  | _ => answer s

/-- BANK_FILL_DONE (R148, R149): 1,024 tile cycles, and every row holds zero; a HELD tile stays as it is (R169). -/
def execBankFillDone (site : Site) (bank : Fin 8) (s : State) : Answer :=
  match bankState s site bank with
  | .fill t =>
    guarded (!siteHeld s site && decide (1024 ≤ cyclesIn (clusterMHz s (siteCluster site)) (now s - t))) s
      (bankEnd (bankZero s site bank) site bank)
  | _ => answer s

/-- ECC_WRITEBACK (R144, R152): requestor 9 writes the corrected word back in a cycle in which the bank grants no other request; what had changed in its storage is gone. -/
def execEccWriteback (site : Site) (bank : Fin 8) (s : State) : Answer :=
  match (tileOf s site).writebacks.find? fun w => decide (bankOf w.1.toNat = bank.val) with
  | none => answer s
  | some w =>
    guarded (!siteHeld s site && decide (bankState s site bank = .on)) s
      (let s := modTile s site fun t => { t with writebacks := t.writebacks.erase w }
       let k := rowKey s site w.1.toNat * 64 + w.2
       let s := grant s site w.1.toNat reqMaintenance []
       { s with spadErr := if secded (mget 0 s.spadErr k) = none then s.spadErr else mset 0 s.spadErr k 0 })

/-! ## Row repair (R156 to R158) -/

/-- A write of a remap entry: a valid one zero-fills its spare row, with the tags clear (R157). -/
def remapWritten (s : State) (site bank e : Nat) : State :=
  if rbit (regGet s (spadReg site (0x100 + 64 * bank + 4 * e))) 15 then
    let k := (site * 8 + bank) * 1040 + 1024 + e
    rowStore s k 0 (zeros 512) 0
  else s

/-- The lowest remap entry of a bank that is not valid. -/
def freeRemap (s : State) (site bank : Nat) : Option Nat :=
  (List.range 16).find? fun e => !regBit s (spadReg site (0x100 + 64 * bank + 4 * e)) 15

/-- A repair leaves the candidates, and the maintenance queue with the tile's last one. -/
def repairDone (s : State) (site : Nat) (row : BitVec 13) : State :=
  let s := modTile s site fun t => { t with repairs := t.repairs.erase row, ceReads := mset 0 t.ceReads row.toNat 0 }
  if (tileOf s site).repairs.isEmpty then { s with maint := s.maint.filter fun m => decide (m.activity ≠ 8 ∨ m.scope ≠ site) } else s

/-- SP_ROW_REMAP_INSTALL (R158): the remap of a candidate and its defect record; a bank with no spare left makes its tile bad. -/
def execSpRowRemapInstall (site : Site) (row : BitVec 13) (s : State) : Answer :=
  let b := bankOf row.toNat
  guarded (clusterOn s (siteCluster site) && !siteHeld s site && !regBit s (spadReg site 0x000) 0 && (tileOf s site).repairs.contains row) s
    (let s := repairDone s site row
     match freeRemap s site b with
     | some e =>
       let s := remapWritten (regPut s (spadReg site (0x100 + 64 * b + 4 * e)) (BitVec.ofNat 32 (row.toNat % 1024 + 2 ^ 15))) site b e
       defectAppend s 3 2 site row.toNat
     | none => defectAppend (regSetBit s (hubReg (siteCluster site) 0x00C) (site.val % 16) true) 1 2 site 0)

/-! ## Route tables (R191, R193, R194, R210) -/

/-- The ports of a dimension-order path, first along the row or first along the column. -/
def dimPorts (x y : Nat) (rowFirst : Bool) : List Nat :=
  let h := if meshCol x ≤ meshCol y then List.replicate (meshCol y - meshCol x) 1 else List.replicate (meshCol x - meshCol y) 3
  let v := if meshRow x ≤ meshRow y then List.replicate (meshRow y - meshRow x) 2 else List.replicate (meshRow x - meshRow y) 0
  if rowFirst then h ++ v else v ++ h

/-- Whether a way from a site along ports crosses no dead link and no dead router. -/
def wayClear (s : State) : Nat → List Nat → Bool
  | _, [] => true
  | x, p :: ps => !portDead s x p && match meshNeighbour x p with
    | some y => !routerDead s y && wayClear s y ps
    | none => false

/-- Whether a way from a site along ports uses a seam link that its training disabled (R198). -/
def seamUsed (s : State) : Nat → List Nat → Bool
  | _, [] => false
  | x, p :: ps => s.boot.seamOff.contains (x, p) || match meshNeighbour x p with
    | some y => seamUsed s y ps
    | none => false

/-- The entry of R193 for one destination; a pair that would use a seam link disabled at its training is class F (R198). -/
def routeFor (s : State) (x y : Nat) : Word32 :=
  if x = y then 0x0C
  else if routerDead s y || (clusterRec s (siteCluster y)).holed then 0
  else if seamUsed s x (dimPorts x y true) then 0x0D
  else
    let a := dimPorts x y true
    let b := dimPorts x y false
    if wayClear s x a then BitVec.ofNat 32 (8 + a.headD 0)
    else if wayClear s x b then BitVec.ofNat 32 (24 + b.headD 0)
    else 0x0D

/-- The destination that entry e of a site serves, if the die has it. -/
def routeDst (x e : Nat) : Option Nat :=
  let c := siteAt (meshCol x / 4 * 4) (meshRow x / 4 * 4)
  let base := if e / 16 = 0 then some c
    else if e / 16 = 1 then (if 4 ≤ meshRow c then some (siteAt (meshCol c) (meshRow c - 4)) else none)
    else if e / 16 = 2 then (if meshCol c + 4 < 48 then some (siteAt (meshCol c + 4) (meshRow c)) else none)
    else if e / 16 = 3 then (if meshRow c + 4 < 64 then some (siteAt (meshCol c) (meshRow c + 4)) else none)
    else (if 4 ≤ meshCol c then some (siteAt (meshCol c - 4) (meshRow c)) else none)
  base.map fun b => b / 16 * 16 + e % 16

/-- A write of a route entry by the Crown: at the next step release, or at once while the router is disabled (R210). -/
def routePut (s : State) (site e : Nat) (v : Word32) : State :=
  if regBit s (netReg site 0) 0 then
    modTile s site fun t => { t with rtPending := t.rtPending.filter (fun p => decide (p.1 ≠ 0x100 + 4 * e)) ++ [(0x100 + 4 * e, v)] }
  else regPut s (netReg site (0x100 + 4 * e)) v

/-- The Crown's tables for one site: the entries that differ are written. -/
def crownRoutes (s : State) (site : Nat) : State :=
  (List.range 80).foldl (fun s e =>
    let v := match routeDst site e with
      | some y => routeFor s site y
      | none => 0
    if regGet s (netReg site (0x100 + 4 * e)) = v then s else routePut s site e v) s

/-- The clusters whose tables a link may stand in: those of its ends and their neighbours. -/
def nearClusters (c : Nat) : List Nat :=
  c :: (List.range 4).filterMap fun k => (routeDst (16 * c) (16 * (k + 1))).map siteCluster

/-! ## Link integrity (R196, R197) -/

/-- FLIT_CRC_ERROR (R196): the receiver asks for a replay; nothing is lost. -/
def execFlitCrcError (link : DieLink) (s : State) : Answer :=
  match link with
  | .mesh x _ => guarded (clusterOn s (siteCluster x)) s (regAdd s (netReg x 0x024) 1)
  | .hub n => answer (regAdd s (fieldReg n 0x028) 1)

/-- Whether a path takes the step between two sites. -/
def usesHop (x y : Nat) : List Nat → Bool
  | a :: b :: rest => decide ((a = x ∧ b = y) ∨ (a = y ∧ b = x)) || usesHop x y (b :: rest)
  | _ => false

/-- Whether a packet's path uses a link that a site's port names. -/
def crosses (s : State) (site port : Nat) (p : Packet) : Bool :=
  match packetPath s p with
  | .ok ss hs _ => match meshNeighbour site port with
    | some y => usesHop site y ss
    | none => decide (port = 4) && ss.contains site && hs.any fun h => decide (h.1 = siteCluster site)
  | _ => false

/-- Four flits of a row, each lost flit poisoning both of its sectors (R187, R197). -/
def flitPoison (tags : BitVec 8) (lost : Nat) : BitVec 8 :=
  (List.range 4).foldl (fun a i => if lost.testBit i then a ||| BitVec.ofNat 8 (3 * 2 ^ (2 * i)) else a) tags

/-- The packets on a link that goes down: which of their flits stood in the replay buffer is open, so it is a free value (log entry 22). -/
def replayPoison (s : State) (site port : Nat) : State :=
  s.net.foldl (fun s p =>
    if crosses s site port p then
      let (w, s) := freeWord s
      let p' := match p.kind with
        | .writeRow d t => { p with kind := .writeRow d (flitPoison t w.toNat) }
        | .answer st d t => { p with kind := .answer st d (flitPoison t w.toNat) }
        | _ => p
      { s with net := s.net.map fun q => if q.order = p.order then p' else q }
    else s) s

/-- MESH_LINK_DOWN (R197): both ends mark the port dead, the replay buffer is delivered poisoned, and the Crown rewrites the tables for the next step release. -/
def execMeshLinkDown (site : Site) (port : Fin 5) (s : State) : Answer :=
  guarded (clusterOn s (siteCluster site) && (decide (port.val = 4) || (meshNeighbour site port).isSome) && !regBit s (netReg site 4) port) s
    (let s := replayPoison s site port
     let s := regSetBit s (netReg site 4) port true
     let s := if regBit s (netReg site 0) 0 then s else routesTaken s site
     let far := meshNeighbour site port
     let s := match far with
       | some y => regSetBit s (netReg y 4) ((port.val + 2) % 4) true
       | none => s
     let s := tileRecord s 0x0302 site (leBytes 4 site.val ++ leBytes 4 port.val)
     let cs := (nearClusters (siteCluster site) ++ match far with
       | some y => nearClusters (siteCluster y)
       | none => []).eraseDups
     (cs.flatMap fun c => (List.range 16).map fun k => 16 * c + k).foldl crownRoutes s)

/-! ## HBM upkeep (R259 to R261) -/

/-- Whether a stack is being trained or holds still for retraining. -/
def stackServes (s : State) (h : Nat) : Bool := decide ((stackRec s h).st = .up) && !(stackRec s h).retraining

/-- The instance of the patrol activity that runs on a stack (R259, R542). -/
def patrolRunning (s : State) (h : Nat) : Option Maint := s.maint.find? fun m => m.running && decide (m.activity = 1 ∧ m.scope = h)

/-- The instant at which the patrol reaches a stack offset: the sectors of a pass are spread over the period (R259). -/
def patrolDue (s : State) (h off : Nat) : Nat :=
  (stackRec s h).patrolSince + off / 64 * (dnum s 0x4000 0x14 * 16000000000) / 2 ^ 31

/-- What a patrol read finds in its sector (R253 to R256, R259): stored poison is recorded again, and of the corrections only the first in each 4 KiB unit of the pass (R269). -/
def patrolFinds (s : State) (h off : Nat) (found : HbmFind) : State :=
  let q : HbmReq := ⟨4, 0x060 + h, 0xFF⟩
  let a := hbmAddr s h off
  let poisoned := hbmTagAt s (hbmKey h off) 0
  let s := if poisoned then hbmRecord s a h off 3 q else s
  let s := dcount s (0x4000 + h) 0x0A 8 found.onDie
  let s := if found.corrected.isEmpty || poisoned then s
    else
      let s := dcount s (0x4000 + h) 0x07 8 1
      let r := stackRec s h
      if mget 0 r.patrolPass (off / 4096) = 1 then s
      else hbmRecord (setStack s h { r with patrolPass := mset 0 r.patrolPass (off / 4096) 1 }) a h off 1 q
  let s := if found.bad.isEmpty || poisoned then s else hbmUncorrectable s a h off 0 q
  hbmFound s a h off true { HbmFind.clean with parity := found.parity.map fun p => (0, p.2) } q

/-- An instance of the patrol ends with its pass, and sooner where a conflicting activity waits behind it (R543; log entry 143). -/
def patrolYields (s : State) (h : Nat) (passEnds : Bool) : State :=
  let waits := s.maint.any fun m => decide ((m.activity = 6 ∨ m.activity = 1) ∧ m.scope = h) && !m.running
  if passEnds || waits then { s with maint := s.maint.filter fun m => decide (m.activity ≠ 1 ∨ m.scope ≠ h) || !m.running } else s

/-- PATROL_READ (R253, R256, R257, R259): the next sector in ascending offset order, while an instance of the patrol runs and the sector's instant has come. -/
def execPatrolRead (stack : Stack) (found : HbmFind) (s : State) : Answer :=
  let h := stack.val
  let off := dnum s (0x4000 + h) 0x0D
  guarded (stackServes s h && decide (dnum s 0x4000 0x14 ≠ 0) && (patrolRunning s h).isSome && decide (patrolDue s h off ≤ now s)) s
    (let s := patrolFinds s h off found
     let next := if off + 64 < 128 * gib then off + 64 else 0
     let s := if next = 0 then setStack s h { stackRec s h with patrolPass := [], patrolSince := now s } else s
     patrolYields (dputNum s (0x4000 + h) 0x0D 8 next) h (decide (next = 0)))

/-- HBM_REFRESH (R261): the interval of the reported temperature has passed for one bank; accesses that waited for it advance :10. -/
def execHbmRefresh (b : StackBank) (celsius : Int) (waitCycles : Nat) (s : State) : Answer :=
  let h := b.stack.val
  let r := stackRec s h
  let every := if celsius ≤ 85 then 62400 else 31200
  guarded (decide (r.st = .up ∧ mget 0 r.lastRefresh b.bank.val + every ≤ now s)) s
    (dputInt (dcount (setStack s h { r with lastRefresh := mset 0 r.lastRefresh b.bank.val (now s) }) (0x4000 + h) 0x10 8 waitCycles) (0x4000 + h) 0x0C 4 celsius)

/-- The device address of a stored HBM byte. -/
def keyAddr (s : State) (k : Nat) : Nat := hbmAddr s (k / (128 * gib)) (k % (128 * gib))

/-- The bytes of a range that lie in one stack zeroed, with their tags (R260). -/
def hbmZeroPart (s : State) (h : Nat) (r : Range) : State :=
  let out (k : Nat) : Bool := decide (k / (128 * gib) ≠ h ∨ keyAddr s k < r.1 ∨ r.1 + r.2 ≤ keyAddr s k)
  { s with hbm := s.hbm.filter fun c => out c.1, hbmTag := s.hbmTag.filter fun c => out (c.1 * 64) }

/-- A range zeroed in every stack. -/
def hbmZeroRange (s : State) (r : Range) : State := (List.range 24).foldl (fun s h => hbmZeroPart s h r) s

/-- Whether HBM_ZEROING_DONE of a region and a stack ends a range's part: the region's ranges, and with them those of unloaded hoods and adapters, which no command of their own names (keys from 64). -/
def zeroPart (region stack : Nat) (z : ZeroRec) : Bool := decide (z.key = region ∨ 64 ≤ z.key) && z.left.contains stack

/-- HBM_ZEROING_DONE (R168, R260, R274): a stack has zeroed its part of the ranges; a range that every stack has finished returns to the free pool. -/
def execHbmZeroingDone (part : RegionPart) (s : State) : Answer :=
  let mine := s.hbmZero.filter (zeroPart part.region part.stack)
  guarded (!mine.isEmpty && stackServes s part.stack) s
    (let s := mine.foldl (fun s z => hbmZeroPart s part.stack z.range) s
     let finish (z : ZeroRec) : ZeroRec :=
       if zeroPart part.region part.stack z then { z with left := z.left.filter fun h => decide (h ≠ part.stack.val) } else z
     zeroSettle { s with hbmZero := s.hbmZero.map finish })

end Sys2Proof.Machine
end

