-- ==== Sys2Proof/Machine/Serving.lean ====
section
/-! DEFINITION. Hoods, adapters and regions: loads, allocation, slot shares, staging, kill and scrub (R165 to R170, R183 to R186, R271 to R288, R535). -/
namespace Sys2Proof.Machine
open Sys2Proof

/-! ## Allocation -/

/-- Whether a range avoids every stack that failed in service (R264). -/
def onLiveStacks (s : State) (r : Range) : Bool :=
  (List.range 24).all fun h => decide ((stackRec s h).st ≠ .failed) || decide (rangeInStack s h r = 0)

/-- The span of a placement: the spread pool, or the backed part of a field's window. -/
def placeSpan (s : State) (local_ : Bool) (n : Nat) : Nat × Nat :=
  if local_ then (windowBase s n, windowBase s n + min (windowLen s n) ((liveStacks s n).length * (128 - splitS s) * gib))
  else (0, spreadEnd s)

/-- The lowest free HBM range of `n` bytes (log entry 12). -/
def hbmFree (s : State) (local_ : Bool) (field n : Nat) : Option Range :=
  let (lo, hi) := placeSpan s local_ field
  let n := ceilDiv n 4096 * 4096
  match lowestFree lo hi n s.hbmAlloc with
  | some a => if onLiveStacks s (a, n) then some (a, n) else none
  | none => none

/-- Space for the journal's ring: in the spread pool, or without room there in the memory that remains (R264, R328; log entry 51). -/
def ringFree (s : State) : Option Range := match hbmFree s false 0 (jCap s) with
  | some r => some r
  | none => (List.range 12).findSome? fun n => hbmFree s true n (jCap s)

def hbmTake (s : State) (r : Range) : State := { s with hbmAlloc := s.hbmAlloc ++ [r] }

/-- Ranges given back through zeroing (R168, R260); the key 64 and above names what is not a region's. -/
def hbmGive (s : State) (key : Nat) (rs : List Range) : State :=
  (rs.filter fun r => decide (r.2 ≠ 0)).foldl (fun s r => zeroBegin s key r) s

/-- A range zeroed and freed at once: the image of a load that failed (R273). -/
def hbmDrop (s : State) (r : Range) : State :=
  let s := hbmZeroRange s r
  { s with hbmAlloc := s.hbmAlloc.erase r }

/-- An image written at its place by the order engine of its field (log entry 146). -/
def storeImage (s : State) (field base : Nat) (image : List Byte) : State := engineWrite s (engineReq field 0xFF) base image false

/-- Whether a field-memory unit is free: no owner, no scrub, not withheld (R527). -/
def fmFree (s : State) (n u : Nat) : Bool := decide (fmOwner s n u = 0x7F) && decide (mget 0 s.fmUnits (n * 128 + u) = 0)

/-- The lowest run of `k` free units of a field's memory. -/
def fmRun (s : State) (n k : Nat) : Option Nat :=
  (List.range (129 - k)).find? fun u => (List.range k).all fun i => fmFree s n (u + i)

def fmTake (s : State) (n u k owner : Nat) : State :=
  (List.range k).foldl (fun s i => regField s (fieldReg n (0x2000 + 4 * (u + i))) 0 7 owner) s

/-! ## Slot shares (R183, R186, R212) -/

/-- The clusters of a region in a field: logical ones, and surplus ones that count as its own (R313). -/
def clustersIn (s : State) (r n : Nat) : Nat :=
  ((regionLcs s r).filter fun lc => decide (lc / 15 = n)).length +
    ((List.range 16).filter fun m => regionHasSurplus s r (16 * n + m)).length

/-- The regions that hold slots, ascending: any state but FREE. -/
def sharedRegions (s : State) : List Nat := (List.range 64).filter fun r => regionUsed s r

/-- The field beyond trunk t of a field: N, E, S, W. -/
def trunkField (n t : Nat) : Option Nat :=
  if t = 0 then (if 3 ≤ n then some (n - 3) else none)
  else if t = 1 then (if n % 3 < 2 then some (n + 1) else none)
  else if t = 2 then (if n + 3 < 12 then some (n + 3) else none)
  else if n % 3 = 0 then none else some (n - 1)

/-- The owners of the slots that are not the device's, in ascending slot order. -/
def portOwners (s : State) (n p : Nat) : List Nat :=
  if p < 16 then match regionOfCluster s (16 * n + p) with
    | some r => List.replicate 60 r
    | none => []
  else if 35 ≤ p ∧ p < 39 then match trunkField n (p - 35) with
    | some m => (sharedRegions s).flatMap fun r => List.replicate (2 * (clustersIn s r n + clustersIn s r m)) r
    | none => []
  else if 32 ≤ p ∧ p < 35 ∧ stackCount n ≤ p - 32 then []
  else (sharedRegions s).flatMap fun r => List.replicate (4 * clustersIn s r n) r

/-- The owner of slot x: every sixteenth slot is the device's, and so is every slot not given to a region. -/
def slotOwner (owners : List Nat) (x : Nat) : Nat := if x % 16 = 0 then 0x40 else owners.getD (x - x / 16 - 1) 0x40

/-- The order engine writes the slots of every port of a field. -/
def writeShares (s : State) (n : Nat) : State :=
  (List.range 40).foldl (fun s p =>
    let o := portOwners s n p
    (List.range 16).foldl (fun s w =>
      regPut s (fieldReg n (0x1000 + 64 * p + 4 * w))
        (BitVec.ofNat 32 (slotOwner o (4 * w) + slotOwner o (4 * w + 1) * 2 ^ 8 + slotOwner o (4 * w + 2) * 2 ^ 16 + slotOwner o (4 * w + 3) * 2 ^ 24))) s) s

def allShares (s : State) : State := (List.range 12).foldl writeShares s

/-! ## Hood loads (R273, R274) -/

def setLast (s : State) (idx id status : Nat) : State := dput s idx 0x03 (leBytes 2 id ++ leBytes 1 status ++ [0])

/-- The checks of a load request's fields (0x3200:01). -/
def hoodLoadCheck (v : List Byte) : Nat :=
  if leAt v 0 2 = 0xFFFF ∨ 1 < leAt v 2 1 ∨ (leAt v 2 1 = 1 ∧ 11 < leAt v 3 1) then 0xA303
  else if leAt v 8 8 = 0 then 0xA302
  else 0

/-- The RDMA READ of an image on a queue pair, and that queue pair (R419, R420). -/
def imageReadOn (s : State) (qp : Option Nat) (v : List Byte) : Option (State × Nat) :=
  match qp with
  | some qp => if qpOk s qp then
      some (emit s (.rdmaRead qp (BitVec.ofNat 64 (leAt v 16 8)) (BitVec.ofNat 32 (leAt v 24 4)) (leAt v 8 8)), qp) else none
  | none => none

/-- The READ of an image on the data queue pair of a session. -/
def imageRead (s : State) (session : Nat) (v : List Byte) : Option (State × Nat) := imageReadOn s (dataQp s session) v

/-- HOOD_LOAD_REQUEST's effect (R273): the id and the space are taken and the fetch begins. -/
def hoodLoadApply (s : State) (session : Nat) (v : List Byte) : State :=
  let id := leAt v 0 2
  if (hoodOf s id).state ≠ 0 then setLast s 0x3200 id 2
  else if 128 ≤ s.hoods.length then setLast s 0x3200 id 3
  else match hbmFree s (decide (leAt v 2 1 = 1)) (leAt v 3 1) (leAt v 8 8) with
    | none => setLast s 0x3200 id 3
    | some r =>
      match imageRead s session v with
      | none => setLast s 0x3200 id 4
      | some (s, qp) =>
        let h : HoodRec := { HoodRec.none with state := 1, request := v, base := r.1, len := r.2, qp := some qp }
        setLast (setHood (hbmTake s r) id h) 0x3200 id 1

/-- Whether manifest fields lie within R272 for an image of `n` bytes. -/
def manifestOk (m : List Byte) (n : Nat) : Bool :=
  let secs := (List.range 6).map (mfSection m)
  let aligned := secs.all fun x => decide (x.1 % 4096 = 0 ∧ x.1 + x.2.1 ≤ n)
  let inOrder := (List.range 6).all fun k => decide ((if k = 0 then 4096 else (mfSection m (k - 1)).1 + (mfSection m (k - 1)).2.1) ≤ (mfSection m k).1)
  let pinned := (mfResidency m).testBit 0
  let kind := mfKind m
  let kv := mfKvFormat m
  decide (leAt m 0 4 = 0x444F4F48 ∧ leAt m 4 2 = 1 ∧ kind ≤ 1 ∧ 1 ≤ mfResidency m ∧ mfResidency m ≤ 3 ∧ mfGrain m ≤ 1) &&
    decide ((4 ≤ kv ∧ kv ≤ 8) ∨ kv = 0xF) && decide (leAt m 10 1 ≤ 1) && (pinned || decide (mfBankMask m = 0)) &&
    decide (1 ≤ mfClusters m ∧ mfClusters m ≤ 180 ∧ (if kind = 0 then mfArgRow m = 0 else mfArgRow m ≤ 8191)) &&
    decide (4 ≤ mfImemBytes m ∧ mfImemBytes m ≤ 65536 ∧ mfImemBytes m % 4 = 0 ∧ mfImemBytes m = (mfSection m 0).2.1) &&
    decide (2 ≤ mfVocab m ∧ mfVocab m ≤ 1048576 ∧ 1 ≤ mfContext m ∧ mfContext m ≤ 4194304) &&
    decide (mfPinned m ≤ 524288 * ((List.range 8).filter fun b => (mfBankMask m).testBit b).length) &&
    decide (mfWeights m = (mfSection m 4).2.1 ∧ m.length = 4096) && aligned && inOrder &&
    decide ((mfSection m 5).2.2 = zeros 32 ∧ slice m 368 3728 = zeros 3728)

/-- Whether every section has its digest (R271). -/
def digestsOk (image : List Byte) : Bool :=
  (List.range 5).all fun k => decide (shake256 (sectionBytes image k) = (mfSection image k).2.2)

/-- Whether the signature section verifies (R589). -/
def hoodSigned (s : State) (image : List Byte) : Bool := blkVerifies s 5 (sha3_512 (image.take 4096)) (sectionBytes image 5)

/-- The load status that checks of an image give, in the order of R273, and the signature result of R592. -/
def imageVerdict (s : State) (image : List Byte) : Nat × Nat :=
  if !manifestOk (image.take 4096) image.length then (7, 0)
  else if !digestsOk image then (5, 0)
  else if sigMode s = 0 then (0, 0)
  else if hoodSigned s image then (0, 1)
  else if sigMode s = 1 then (0, 2)
  else (6, 0)

/-- Outside SOLO the image goes to the partner in HOOD_COPY messages (R509). -/
def copyOut (s : State) (adapter : Bool) (id : Nat) (image : List Byte) : State :=
  if twinSolo s then s else emit s (.twin 0x22 s.journal.epoch (leBytes 1 (boolNat adapter) ++ leBytes 2 id ++ image))

/-- An image that arrived for a hood entry: checked, stored, or freed (R273, R590). -/
def hoodLand (s : State) (id : Nat) (image : List Byte) : State :=
  let h := hoodOf s id
  let (st, sig) := imageVerdict s image
  if st ≠ 0 then setLast (hbmDrop (setHood s id HoodRec.none) (h.base, h.len)) 0x3200 id st
  else
    let s := if sig = 2 then record s 0x0905 0xFF 0xFFFF 0 (leBytes 4 id ++ leBytes 4 (sigMode s)) else s
    let s := storeImage s (leAt h.request 3 1) h.base image
    setLast (setHood s id { h with state := 2, image := image, partnerBad := false, sigResult := BitVec.ofNat 8 sig,
                                   signer := if sig = 0 then 0xFF else (sectionBytes image 5).getD 0 0xFF }) 0x3200 id 0

/-- A hood's fetch failed: FETCH_FAILED, and its HBM is zeroed and freed (R273). -/
def hoodFetchFailed (s : State) (id : Nat) : State :=
  setLast (hbmDrop (setHood s id HoodRec.none) ((hoodOf s id).base, (hoodOf s id).len)) 0x3200 id 4

/-- Regions that hold a hood in a staged slot. -/
def hoodStaged (s : State) (id : Nat) : List Nat :=
  (List.range 64).filter fun r => let g := regionOf s r
    decide ((g.slotA ≠ .empty ∧ g.hoodA.toNat = id) ∨ (g.slotB ≠ .empty ∧ g.hoodB.toNat = id))

/-- Regions that name a hood: in a staged slot, or in :05 or :06 (log entry 144). -/
def hoodRegions (s : State) (id : Nat) : List Nat :=
  (List.range 64).filter fun r => let g := regionOf s r
    decide ((g.slotA ≠ .empty ∧ g.hoodA.toNat = id) ∨ (g.slotB ≠ .empty ∧ g.hoodB.toNat = id) ∨
      dnum s (0x3100 + r) 0x05 = id ∨ dnum s (0x3100 + r) 0x06 = id)

def hoodOrders (s : State) (id : Nat) : List Order := s.orders.filter fun o => decide (recHood o.record = id)

/-- HOOD_UNLOAD's check: an unknown hood is a value out of reach, and one that is named stays (R274). One still loading stays too: DESIGN CHOICE, unsafe (log entry 144). -/
def hoodUnloadCheck (s : State) (id : Nat) : Nat :=
  if (hoodOf s id).state = 0 then 0xA301
  else if (hoodOf s id).state = 1 ∨ hoodRegions s id ≠ [] ∨ hoodOrders s id ≠ [] then 0xA401 else 0

/-- HOOD_UNLOAD (R274): the entry empties and its HBM is zeroed before it returns. -/
def hoodUnloadApply (s : State) (id : Nat) : State :=
  let h := hoodOf s id
  hbmGive (setHood s id HoodRec.none) (1000 + id) [(h.base, h.len)]

/-! ## Adapters (R285 to R287) -/

def adapterLoadCheck (v : List Byte) : Nat :=
  if 4095 < leAt v 0 2 then 0xA303
  else if leAt v 8 8 = 0 then 0xA302
  else 0

/-- ADAPTER_LOAD_REQUEST's effect (R286): as a hood's; no adapter larger than the cache loads. -/
def adapterLoadApply (s : State) (session : Nat) (v : List Byte) : State :=
  let id := leAt v 0 2
  if (adapterOf s id).state ≠ 0 then setLast s 0x3300 id 2
  else if dnum s 0x3300 0x05 * 2 ^ 20 < leAt v 8 8 then setLast s 0x3300 id 3
  else match hbmFree s false 0 (leAt v 8 8) with
    | none => setLast s 0x3300 id 3
    | some r => match imageRead s session v with
      | none => setLast s 0x3300 id 4
      | some (s, qp) =>
        let a : AdapterRec :=
          { AdapterRec.none with state := 1, request := v, hood := BitVec.ofNat 16 (leAt v 2 2), base := r.1, len := r.2, qp := some qp }
        setLast (setAdapter (hbmTake s r) id a) 0x3300 id 1

/-- An adapter image: its header carries the base digest of its base hood in its first 32 bytes, and its own digest follows (log entry 26). -/
def adapterVerdict (s : State) (hood : Nat) (image : List Byte) : Nat :=
  if !hoodLoaded s hood ∨ image.take 32 ≠ mfBase (manifest s hood) then 7
  else if slice image 32 32 ≠ shake256 (image.drop 64) then 5
  else 0

def adapterLand (s : State) (id : Nat) (image : List Byte) : State :=
  let a := adapterOf s id
  let st := adapterVerdict s a.hood.toNat image
  if st ≠ 0 then setLast (hbmDrop (setAdapter s id AdapterRec.none) (a.base, a.len)) 0x3300 id st
  else setLast (setAdapter (storeImage s 0 a.base image) id { a with state := 2, image := image }) 0x3300 id 0

/-- An adapter's fetch failed (R273, R286). -/
def adapterFetchFailed (s : State) (id : Nat) : State :=
  setLast (hbmDrop (setAdapter s id AdapterRec.none) ((adapterOf s id).base, (adapterOf s id).len)) 0x3300 id 4

/-- The image READs in flight on a queue pair that enters the error state fail (R420). -/
def failImages (s : State) (qp : Nat) : State :=
  let hoods := (s.hoods.filter fun h => decide (h.2.state = 1 ∧ h.2.qp = some qp)).map (·.1)
  let adapters := (s.adapters.filter fun a => decide (a.2.state = 1 ∧ a.2.qp = some qp)).map (·.1)
  adapters.foldl adapterFetchFailed (hoods.foldl hoodFetchFailed s)

/-- ADAPTER_IMAGE_FETCHED (R286). -/
def execAdapterImageFetched (id : BitVec 16) (image : Option (List Byte)) (s : State) : Answer :=
  let a := adapterOf s id.toNat
  guarded (decide (a.state = 1) && !rangeHolds s (a.base, a.len)) s
    (match image with
     | none => adapterFetchFailed s id.toNat
     | some b => adapterLand (copyOut s true id.toNat b) id.toNat b)

def adapterOrders (s : State) (id : Nat) : List Order := s.orders.filter fun o => decide (recAdapter o.record = id)

def adapterUnloadCheck (s : State) (id : Nat) : Nat :=
  if 4095 < id then 0xA303
  else if (adapterOf s id).state = 0 then 0xA301
  else if (adapterOf s id).state = 1 ∨ adapterOrders s id ≠ [] then 0xA401 else 0

def adapterUnloadApply (s : State) (id : Nat) : State :=
  let a := adapterOf s id
  let s := { s with caches := s.caches.filter fun c => decide (c.adapter.toNat ≠ id) }
  hbmGive (setAdapter s id AdapterRec.none) (2000 + id) [(a.base, a.len)]

/-! ## Kill, scrub and release (R165 to R170, R276, R278, R535) -/

/-- A core at a kill: halted, its latch cleared. -/
def coreKilled (k : Core) : Core :=
  { k with status := .halted, latch := [], latchTags := 0, lld := none, fence := none, woken := false, trapDue := none }

def queueKilled (q : CmdQueue) : CmdQueue := { q with entries := [] }

/-- A tile at a kill (R165, R214). -/
def tileKilled (t : Tile) (at_ : Nat) : Tile :=
  { t with core0 := coreKilled t.core0, core1 := coreKilled t.core1, arrayQ := queueKilled t.arrayQ,
           vectorQ := queueKilled t.vectorQ, moveQ := queueKilled t.moveQ, syncQ := queueKilled t.syncQ,
           sems := [], waiters := [], syncFence := none, mma := none, moves := [], idleSince := some at_,
           rampDue := false, idleEntry := none, preWarn := none, notices := [], stepPending := none }

/-- Whether a packet belongs to a tile of a list. -/
def packetOf (sites : List Nat) (p : Packet) : Bool := match p.source with
  | some x => sites.contains x.val
  | none => false

/-- A kill clears EN of every barrier group that the region owns (R236). -/
def clearGroups (s : State) (r : Nat) : State :=
  (List.range 64).foldl (fun s g => if bgRegion s g = r then bgDisable s g else s) s

/-- The kill of R165 in every reachable tile of a region, and of R236 in its barrier groups. -/
def killTiles (s : State) (r : Nat) : State :=
  let sites := regionSites s r
  let s := sites.foldl (fun s x =>
    let s := modTile s x fun t => tileKilled t (tileCycles s x)
    (List.range 8).foldl (fun s i => regField s (spadReg x (0x040 + 4 * i)) 26 2 0) s) s
  let s := { s with net := s.net.filter fun p => !packetOf sites p,
                    gangs := s.gangs.filter fun g => decide (g.1 % 64 ≠ r) }
  clearGroups s r

/-- Banks in RETAIN, WAKE or FILL set OFF (R166). -/
def banksDropped (s : State) (x : Nat) : State :=
  (List.range 8).foldl (fun s b => match bankState s x b with
    | .on => s
    | .off => s
    | _ => bankOff s x b) s

/-- A region enters SCRUB (R166 to R168): its rows answer with errors until they are zero, its field memory is scrubbed and its HBM withheld. -/
def enterScrub (s : State) (r : Nat) : State :=
  let g := regionOf s r
  let s := (regionSites s r).foldl (fun s x => modTile (banksDropped s x) x fun t => { t with unscrubbed := true }) s
  let n := homeField s r
  let s := (List.range 4).foldl (fun s i =>
    let k := n * 128 + g.fmBase + i
    { s with fmUnits := mset 0 s.fmUnits k (mget 0 s.fmUnits k ||| 1) }) s
  hbmGive (setRegion s r { g with state := .scrub, kvRange := (0, 0) }) r [g.kvRange]

/-- Whether a lost region is handed to the partner (R535). -/
def handsOver (s : State) (r : Nat) : Bool := !twinSolo s && (regionOf s r).protected_

/-- A lost region's orders go with it to the partner: the home bit changes, a REGION_HANDED record is written, and nothing closes; the partner learns it in a FORWARD (kind 5 of log entry 45). -/
def handOver (s : State) (r cause : Nat) : State :=
  let os := regionOrders s r
  let s := dput s 0x4800 0x08 (let h := dget s 0x4800 0x08
    let b := h.getD (r / 8) 0
    splice h (r / 8) [b ^^^ BitVec.ofNat 8 (2 ^ (r % 8))])
  let s := record s 0x0704 r 0xFFFF 0 (leBytes 4 os.length)
  let s := os.foldl forgetOrder s
  let s := emit s (.twin 0x30 s.journal.epoch ([5] ++ leBytes 1 r ++ leBytes 1 cause))
  let s := dropCompared s fun q => decide (q = r)
  modRegion s r fun g => { g with protected_ := false, resync := true }

/-- The orders of a region end: open ones with a final entry, retained ones without, and those not yet answered are refused (R278). -/
def endOrders (s : State) (r status : Nat) : State :=
  (regionOrders s r).foldl (fun s o =>
    let step := (regionOf s r).stepNo
    if unanswered s o then refuseOrder s o
    else if o.state = .retained then closeRetained s o status step else closeOrder s o status step (resultCount o) false) s

/-- A region leaves service: R165 in its tiles, its orders handed over or ended, then SCRUB, or HELD when :10 was 1 (R276). -/
def killRegion (s : State) (r cause status : Nat) (command : Bool) : State :=
  let s := killTiles s r
  let s := if !command && handsOver s r then handOver s r cause else endOrders (deliverWithheld s fun q => decide (q = r)) r status
  let s := record s 0x0703 r 0xFFFF 0 (leBytes 4 cause)
  let s := modRegion s r fun g => { g with killCause := cause, batch := none, recovering := [], recoveryPages := [], stageMask := 0,
                                           pounceHold := false, orphans := [], cmdFault := false, trapSeen := false, marks := 0, tileNotices := [] }
  if dnum s (0x3100 + r) 0x10 = 1 then modRegion s r fun g => { g with state := .held } else enterScrub s r

/-- Whether a region can be lost by an event: any state but FREE, SCRUB and HELD. -/
def regionLosable (s : State) (r : Nat) : Bool :=
  decide ((regionOf s r).state ≠ .free ∧ (regionOf s r).state ≠ .scrub ∧ (regionOf s r).state ≠ .held)

/-- A loss event of R276 that closes orders with KILLED_FAULT. -/
def loseRegion (s : State) (r cause : Nat) : State := if regionLosable s r then killRegion s r cause 0x21 false else s

/-- Rows, IMEM, key and base slots of a tile zero-filled; banks not ON end OFF (R166). -/
def scrubTile (s : State) (x : Nat) : State :=
  let s := (List.range 8).foldl (fun s b => bankZero s x b) (banksDropped s x)
  let s := { s with imem := memZero s.imem (x * 65536) 65536 }
  modTile s x fun t => { t with unscrubbed := false, keySlots := [], baseSlots := [] }

/-- The values that a region's subindices take at FREE (R457). -/
def regionDefaults (s : State) (r : Nat) : State :=
  [(1, 0x04), (2, 0x08), (3, 0x0A), (4, 0x0B), (5, 0x0C), (6, 0x0D), (7, 0x0E), (8, 0x0F)].foldl
    (fun s p => dput s (0x3100 + r) p.2 (dget s 0x3000 p.1)) s

/-- The values written to 0x3100 + r:08 and :0A to :0D. -/
def writtenParams (s : State) (r : Nat) : StepParams :=
  { period := dnum s (0x3100 + r) 0x08, lead := dnum s (0x3100 + r) 0x0A, chunk := dnum s (0x3100 + r) 0x0B,
    budget := dnum s (0x3100 + r) 0x0C, maxBatch := dnum s (0x3100 + r) 0x0D }

/-- The values in force become those of the dictionary: at a batch close the written ones, at FREE the defaults (R277, R457). -/
def latchParams (s : State) (r : Nat) : State := modRegion s r fun g => { g with params := writtenParams s r }

/-- A region becomes FREE: its slots and multicast tables are cleared (R186, R278). -/
def freeRegion (s : State) (r : Nat) : State :=
  let s := { s with mcast := s.mcast.filter fun m => decide (m.1 / 256 ≠ r) }
  allShares (latchParams (regionDefaults (setRegion s r { Region.reset with killCause := (regionOf s r).killCause }) r) r)

/-- SCRUB_DONE (R168): scratchpad and field memory are zero; the region leaves for FREE, or HOLED when its set holds a cluster no longer whole. -/
def execScrubDone (region : RegionId) (s : State) : Answer :=
  let r := region.val
  let g := regionOf s r
  guarded (decide (g.state = .scrub)) s
    (let s := (regionSites s r).foldl scrubTile s
     let n := homeField s r
     let s := { s with fmem := memZero s.fmem (fmKey n (g.fmBase * 2 ^ 20)) (4 * 2 ^ 20),
                       fmemTag := mdrop s.fmemTag (fmKey n (g.fmBase * 2 ^ 20) / 64) (4 * 2 ^ 14),
                       fmemErr := mdrop s.fmemErr (fmKey n (g.fmBase * 2 ^ 20) / 8) (4 * 2 ^ 17) }
     let s := (List.range 4).foldl (fun s i =>
       let k := n * 128 + g.fmBase + i
       { s with fmUnits := mset 0 s.fmUnits k (mget 0 s.fmUnits k / 2 * 2) }) s
     let s := fmTake s n g.fmBase 4 0x7F
     if (regionLcs s r).all fun lc => (clusterOfLc s lc).isSome then freeRegion s r
     else setRegion s r { Region.reset with state := .holed, killCause := g.killCause, set := g.set, params := g.params })

/-! ## Region commands (R275 to R277) -/

/-- Whether the set written to :03 may be configured (R275). -/
def clusterSetOk (s : State) (r : Nat) : Bool :=
  let set := dget s (0x3100 + r) 0x03
  let lcs := (List.range 180).filter (bitAt set)
  !lcs.isEmpty && lcs.all fun lc => (clusterOfLc s lc).isSome && !((List.range 64).any fun q => decide (q ≠ r) && regionHasLc s q lc)

/-- The home field of the set in :03. -/
def setField (s : State) (r : Nat) : Nat := (((List.range 180).filter (bitAt (dget s (0x3100 + r) 0x03))).headD 0) / 15

/-- The KV pool that CONFIGURE would take. -/
def poolFor (s : State) (r : Nat) : Option Range :=
  let n := dnum s (0x3100 + r) 0x0E * 2 ^ 20
  if n = 0 then some (0, 0) else hbmFree s (decide (dnum s (0x3100 + r) 0x0F = 1)) (setField s r) n

def configureCheck (s : State) (r : Nat) : Nat :=
  let st := (regionOf s r).state
  if !decide (st = .free ∨ st = .holed) || !clusterSetOk s r then 0xA401
  else if (poolFor s r).isNone || (fmRun s (setField s r) 4).isNone then 0xA501
  else 0

/-- A tile at CONFIGURE: its semaphores are 0, its key and base slots are empty, and its queues number from 0 (R114, R133, R214). -/
def tileConfigured (t : Tile) : Tile :=
  let restart (q : CmdQueue) : CmdQueue := { q with nextSeq := 0 }
  { t with sems := [], lastSig := [], keySlots := [], baseSlots := [], step := 0,
           arrayQ := restart t.arrayQ, vectorQ := restart t.vectorQ, moveQ := restart t.moveQ, syncQ := restart t.syncQ }

/-- CONFIGURE (R186, R214, R275): pool, field memory and slot shares are taken, and the tiles begin anew. -/
def configureApply (s : State) (r : Nat) : State :=
  let n := setField s r
  match poolFor s r, fmRun s n 4 with
  | some pool, some u =>
    let s := fmTake (if pool.2 = 0 then s else hbmTake s pool) n u 4 r
    let g : Region := { Region.reset with state := .configured, set := dget s (0x3100 + r) 0x03, kvRange := pool, fmBase := u, params := (regionOf s r).params }
    let s := allShares (setRegion s r g)
    (regionSites s r).foldl (fun s x => modTile s x tileConfigured) s
  | _, _ => s

def slotHood (g : Region) (i : Nat) : Nat := if i = 0 then g.hoodA.toNat else g.hoodB.toNat
def slotStateOf (g : Region) (i : Nat) : SlotState := if i = 0 then g.slotA else g.slotB
def setSlot (g : Region) (i : Nat) (st : SlotState) (hood : Nat) : Region :=
  if i = 0 then { g with slotA := st, hoodA := BitVec.ofNat 16 hood } else { g with slotB := st, hoodB := BitVec.ofNat 16 hood }
def namedHood (s : State) (r i : Nat) : Nat := dnum s (0x3100 + r) (0x05 + i)

/-- The slots that a STAGE takes: those named, and in service those that are not ACTIVE. -/
def stageSlots (s : State) (r : Nat) : List Nat :=
  let g := regionOf s r
  [0, 1].filter fun i => decide (namedHood s r i ≠ 0xFFFF ∧ (g.state ≠ .serving ∨ slotStateOf g i ≠ .active))

def stageCheck (s : State) (r : Nat) : Nat :=
  let st := (regionOf s r).state
  if decide (st = .configured ∨ st = .ready ∨ st = .serving) && !(stageSlots s r).isEmpty then 0 else 0xA401

/-- Bytes that staging a hood writes: its IMEM image and tables, and its pinned weights. -/
def stageBytes (s : State) (r hood : Nat) : Nat :=
  let m := manifest s hood
  (mfImemBytes m + 32) * (regionSites s r).length + (if (mfResidency m).testBit 0 then mfWeights m else 0)

/-- STAGE (R276, R281): the named slots begin to stage. -/
def stageApply (s : State) (r : Nat) : State :=
  let slots := stageSlots s r
  let g := slots.foldl (fun g i => setSlot g i .staging (namedHood s r i)) (regionOf s r)
  let left := (slots.map fun i => stageBytes s r (namedHood s r i)).foldl (· + ·) 0
  setRegion s r { g with state := (if g.state = .serving then .serving else .staging), stageStatus := 0, stagingLeft := left,
                         stageMask := slots.foldl (fun m i => m ||| BitVec.ofNat 2 (2 ^ i)) 0 }

/-- Regions that wait for a hood's copy to be restored are staged again (R516): those handed over, and those adopted. -/
def restageWaiting (s : State) (id : Nat) : State :=
  let waits (r : Nat) : Bool := let g := regionOf s r
    (g.resync || g.adopted) && decide (g.state = .configured ∧ (namedHood s r 0 = id ∨ namedHood s r 1 = id))
  ((List.range 64).filter waits).foldl
    (fun s r => if stageCheck s r = 0 then modRegion (stageApply s r) r fun g => { g with resync := false } else s) s

/-- HOOD_IMAGE_FETCHED (R273): the RDMA READ ends, with the image or without; a stack that retrains holds it (R262). A copy that was read again is restored, and what waited for it is staged (R516). -/
def execHoodImageFetched (id : BitVec 16) (image : Option (List Byte)) (s : State) : Answer :=
  let h := hoodOf s id.toNat
  guarded (decide (h.state = 1) && !rangeHolds s (h.base, h.len)) s
    (match image with
     | none => hoodFetchFailed s id.toNat
     | some b =>
       let s := hoodLand (copyOut s false id.toNat b) id.toNat b
       if h.image = [] then s else restageWaiting s id.toNat)

/-- Whether a slot is staged beside another one. -/
def otherStaged (g : Region) (i : Nat) : Bool := decide (slotStateOf g (1 - i) ≠ .empty)

/-- Whether a hood is pinned in a region's slot: pinned residency is allowed and it has banks. -/
def isPinned (m : List Byte) : Bool := (mfResidency m).testBit 0 && decide (mfBankMask m ≠ 0)

/-- The stage status of a slot (R277, R279, R280): the first failing code. -/
def slotVerdict (s : State) (r i : Nat) : Nat :=
  let g := regionOf s r
  let m := manifest s (slotHood g i)
  let two := otherStaged g i
  let m2 := manifest s (slotHood g (1 - i))
  if !hoodLoaded s (slotHood g i) then 1
  else if mfGrain m ≠ dnum s (0x3100 + r) 0x04 then 2
  else if (regionLcs s r).length < mfClusters m then 3
  else if two && decide (mfBankMask m &&& mfBankMask m2 ≠ 0) then 4
  else if two && decide (32768 < mfImemBytes m ∨ 32768 < mfImemBytes m2) then 5
  else if two && !(isPinned m && isPinned m2) then 6
  else if !isPinned m && (i = 1 || !(mfResidency m).testBit 1) then 6
  else 0

/-- The first IMEM byte of a slot: unit 0, or unit 64 for slot B beside slot A (R280). -/
def slotEntry (g : Region) (i : Nat) : Nat := if i = 1 ∧ g.splitImem then 0x8000 else 0

/-- A section of a hood's HBM copy as the region's order engine reads it, sector by sector with its poison (R258, R264). -/
def readSection (s : State) (r hood k : Nat) : State × List (List Byte × Bool) :=
  let h := hoodOf s hood
  let (o, n, _) := mfSection h.image k
  engineSectors s (engineReq (homeField s r) r) (h.base + o) (ceilDiv n 64)

/-- CR_ENTRY of both cores of a region's tiles, for a slot. -/
def writeEntries (s : State) (r i : Nat) : State :=
  let e := BitVec.ofNat 64 (slotEntry (regionOf s r) i)
  (regionSites s r).foldl (fun s x =>
    modTile s x fun t => { t with core0 := { t.core0 with entry := e }, core1 := { t.core1 with entry := e } }) s

/-- Windows, multicast table and CR_ENTRY of a slot, in every tile (R281, R283): window words as the hood's section lists them for all tiles, and groups of 32 bytes with CMASK in bytes 0 to 22 and TMASK in bytes 24 to 25 (log entry 27). -/
def slotTables (s : State) (r i : Nat) : State :=
  let hood := slotHood (regionOf s r) i
  let (s, win) := readSection s r hood 1
  let (s, mc) := readSection s r hood 2
  let win := win.flatMap (·.1)
  let mc := mc.flatMap (·.1)
  let s := (regionSites s r).foldl (fun s x =>
    let s := (List.range 8).foldl (fun s k => regPut s (spadReg x (0x040 + 4 * k)) (BitVec.ofNat 32 (leAt win (4 * k) 4) &&& 0x1FFFFFFF)) s
    regSetBit s (syncReg x 0) 1 (mfChecked (manifest s hood))) s
  (List.range 256).foldl (fun s k =>
    let e := slice mc (32 * k) 32
    let lcs := (List.range 180).filter (bitAt e)
    { s with mcast := mset [] s.mcast (r * 256 + k) (lcs.map fun lc => (lc, leAt e 24 2 % 2 ^ 15)) }) (writeEntries s r i)

/-- The banks of a region's slots that must be ON for a slot to run: its own, and every working bank. -/
def slotBanks (s : State) (r i : Nat) : List Nat :=
  let g := regionOf s r
  let other := if otherStaged g i then mfBankMask (manifest s (slotHood g (1 - i))) else 0
  (List.range 8).filter fun b => !other.testBit b

/-- A bank ON with its request, filled when it was OFF. -/
def bankOn (s : State) (x b : Nat) : State :=
  let s := regField s (spadReg x 0x008) (2 * b) 2 3
  match bankState s x b with
  | .on => s
  | .retain => setBank s x b .on
  | .wake _ => setBank s x b .on
  | _ => setBank (bankZero s x b) x b .on

/-- The scratchpad rows that hold a hood's pinned weights in each tile (R281). -/
def pinnedRows (m : List Byte) : List Nat :=
  (((List.range 8).filter fun b => (mfBankMask m).testBit b).flatMap fun b => (List.range 1024).map fun k => 1024 * b + k).take (ceilDiv (mfPinned m) 512)

/-- One tile's pinned copy written, row by row from the section bytes named for each, each sector poisoned when a byte of it is. -/
def writePins (s : State) (x : Nat) (w : List (List Byte × Bool)) (bytes : List Byte) (rows : List (Nat × List Nat)) : State :=
  rows.foldl (fun s p =>
    let tags := (List.range 8).foldl (fun t i =>
      if ((p.2.drop (64 * i)).take 64).any fun o => (w.getD (o / 64) ([], false)).2 then t + 2 ^ i else t) 0
    rowWrite s x p.1 reqMaintenance [] (p.2.map fun o => bytes.getD o 0) (BitVec.ofNat 8 tags)) s

/-- The pinned weights of a slot written into the banks of its mask (R281); the digest of each tile's copy is kept (R515). -/
def pinWeights (s : State) (r i : Nat) : State :=
  let hood := slotHood (regionOf s r) i
  let m := manifest s hood
  let (s, w) := readSection s r hood 4
  let bytes := w.flatMap (·.1)
  let copies : List (Nat × List (Nat × List Nat)) := (regionSites s r).zipIdx.map fun p =>
    (p.1, (pinnedRows m).zipIdx.map fun q => (q.1, (List.range 512).map fun b => Config.pinnedFrom m p.2 (512 * q.2 + b)))
  let s := copies.foldl (fun s c => writePins s c.1 w bytes c.2) s
  let pins := copies.map fun c => (i, c.1, shake256 (c.2.flatMap fun row => row.2.map fun o => bytes.getD o 0))
  modRegion s r fun g => { g with pins := (g.pins.filter fun p => decide (p.1 ≠ i)) ++ pins }

/-- IMEM image of a slot written in every tile; IMEM keeps no poison (log entry 139). -/
def stageImem (s : State) (r i : Nat) : State :=
  let g := regionOf s r
  let (s, xs) := readSection s r (slotHood g i) 0
  let image := (xs.flatMap (·.1)).take (mfImemBytes (manifest s (slotHood g i)))
  (regionSites s r).foldl (fun s x => { s with imem := memWrite s.imem (x * 65536 + slotEntry g i) image }) s

/-- Where the images of a region's slots stand once slot i is staged: slot B's moves to its own half, with its entry, when slot A joins it (R280; log entry 145). -/
def splitSlots (s : State) (r i : Nat) : State :=
  let g := regionOf s r
  let two := otherStaged g i
  let s := modRegion s r fun g => { g with splitImem := two }
  if two && decide (i = 0) && !g.splitImem && decide (g.slotB = .standby ∨ g.slotB = .active) then
    let s := stageImem s r 1
    if g.slotB = .active then writeEntries s r 1 else s
  else s

/-- What staging a slot writes (R281): into a region in service only IMEM and the slot's banks. -/
def stageSlot (s : State) (r i : Nat) : State :=
  let g := regionOf s r
  let m := manifest s (slotHood g i)
  let banks := if g.state = .serving then (List.range 8).filter fun b => (mfBankMask m).testBit b else slotBanks s r i
  let s := (regionSites s r).foldl (fun s x => banks.foldl (fun s b => bankOn s x b) s) s
  let s := stageImem (splitSlots s r i) r i
  let s := if isPinned m then pinWeights s r i else s
  if g.state = .serving then s else slotTables s r i

/-- The slot that becomes ACTIVE when staging ends: the one that was staged first. -/
def activateFirst (g : Region) (i : Nat) : Region :=
  if g.slotA = .active ∨ g.slotB = .active then g
  else
    let k := if slotStateOf g (1 - i) = .standby then 1 - i else i
    setSlot g k .active (slotHood g k)

/-- Whether staging a slot waits: for a stack that retrains and holds the hood (R262), or, where slot B's image has to make room for slot A's, for the step in flight (log entry 145). -/
def stagingHeld (s : State) (r i : Nat) : Bool :=
  let g := regionOf s r
  let h := hoodOf s (slotHood g i)
  rangeHolds s (h.base, h.len) || (decide (i = 0) && otherStaged g 0 && !g.splitImem && (g.batch.bind (·.releaseAt)).isSome)

/-- STAGING_COMPLETE (R276, R281): a slot's staging ends, well or with the stage status of its failure. -/
def execStagingComplete (region : RegionId) (slot : Fin 2) (s : State) : Answer :=
  let r := region.val
  let i := slot.val
  let g := regionOf s r
  guarded (g.stageMask.toNat.testBit i && !stagingHeld s r i) s
    (let st := slotVerdict s r i
     let mask := g.stageMask &&& ~~~(BitVec.ofNat 2 (2 ^ i))
     if st = 0 then
       let s := stageSlot s r i
       let g := setSlot { regionOf s r with stageMask := mask, stagingLeft := g.stagingLeft - stageBytes s r (slotHood g i) } i .standby (slotHood g i)
       if mask = 0 then
         let g := if g.state = .serving then g else activateFirst g i
         let s := setRegion s r { g with state := (if g.state = .staging then (if g.adopted then .serving else .ready) else g.state), stagingLeft := 0 }
         if g.state ≠ .serving ∧ slotStateOf (regionOf s r) i ≠ .active then slotTables s r (1 - i) else s
       else setRegion s r g
     else
       let g := setSlot { g with stageMask := mask, stageStatus := st } i .empty 0xFFFF
       if g.state = .staging then
         let fail (g : Region) (k : Nat) : Region := if slotStateOf g k = .staging then setSlot g k .empty 0xFFFF else g
         setRegion s r { fail (fail g 0) 1 with state := .configured, stageMask := 0, stagingLeft := 0 }
       else setRegion s r g)

def killCheck (s : State) (r : Nat) : Nat :=
  match (regionOf s r).state with
  | .free => 0xA401
  | .scrub => 0xA401
  | .held => 0xA401
  | _ => 0

/-- KILL (R276): SCRUB or HELD with kill cause 1; a HOLED region is freed. -/
def killApply (s : State) (r : Nat) : State :=
  if (regionOf s r).state = .holed then freeRegion s r else killRegion s r 1 0x22 true

/-- The check of a write of 0x3100 + r:02. -/
def commandCheck (s : State) (r cmd : Nat) : Nat :=
  let st := (regionOf s r).state
  if cmd = 0 then 0xA302
  else if 6 < cmd then 0xA303
  else if cmd = 1 then configureCheck s r
  else if cmd = 2 then stageCheck s r
  else if cmd = 3 then (if st = .ready then 0 else 0xA401)
  else if cmd = 4 then (if st = .serving then 0 else 0xA401)
  else if cmd = 5 then killCheck s r
  else if st = .held then 0 else 0xA401

/-- The transition of a region command (R276). -/
def commandApply (s : State) (r cmd : Nat) : State :=
  if cmd = 1 then configureApply s r
  else if cmd = 2 then stageApply s r
  else if cmd = 3 then modRegion s r fun g => { g with state := .serving }
  else if cmd = 4 then modRegion s r fun g => { g with state := .draining }
  else if cmd = 5 then killApply s r
  else enterScrub s r

/-- DRAIN_COMPLETE (R276): no open or retained order is left. -/
def execDrainComplete (region : RegionId) (s : State) : Answer :=
  guarded (decide ((regionOf s region).state = .draining) && (regionOrders s region).isEmpty && (regionOf s region).batch.isNone) s
    (modRegion s region fun g => { g with state := .ready })

end Sys2Proof.Machine
end

