-- ==== Sys2Proof/Machine/Orders.lean ====
section
/-! DEFINITION. Work orders: the checks of SUBMIT, acceptance, contexts, adapter copies and cancellation (R20, R21, R287, R289 to R300, R415, R416). -/
namespace Sys2Proof.Machine
open Sys2Proof

/-! ## Checks of SUBMIT (R296, R299, R416) -/

/-- Whether a ring is active for a session: its descriptor is the session's and its queue pair belongs to it and is not in error (R422). For a request that the front forwarded (session 100 + n) the front has checked it (R508). -/
def ringActive (s : State) (session ring : Nat) : Bool :=
  let r := ringOf s ring
  decide (100 ≤ session ∧ ring / 16 + 1 = session - 100) ||
  decide (ring / 16 + 1 = session ∧ r ≠ Ring.none ∧ r.bad = false) &&
    decide ((sessionQps s session).contains r.desc.qp.toNat) && qpOk s r.desc.qp.toNat

/-- The context limit, vocabulary and kind of an order's hood. -/
def orderManifest (s : State) (b : List Byte) : List Byte := manifest s (recHood b)

/-- Reserved bytes of a record that must be zero. -/
def reservedZero (b : List Byte) : Bool :=
  decide (recFlags b < 8 ∧ slice b 42 2 = zeros 2) &&
    decide (if recKind b = 3 then slice b 100 28 = zeros 28 else recKind b = 5 ∨ slice b 96 32 = zeros 32)

/-- Total tokens of an order: prefix, context, continuation. -/
def prefixLen (s : State) (b : List Byte) : Nat :=
  if recHasPrefix b then match findOrder s (recTarget b) with
    | some o => o.context.length
    | none => 0
  else 0

def totalContext (s : State) (b : List Byte) : Nat := prefixLen s b + recContext b + recCont b

/-- Tokens an order may generate. -/
def genTokens (b : List Byte) : Nat := if recKind b = 1 then recMaxNew b else 0

/-- Result bytes that R306 needs. -/
def resultNeed (s : State) (b : List Byte) : Nat :=
  if recKind b = 1 then (if recLogprob b then 8 else 4) * recMaxNew b
  else if recKind b = 3 then 4 * recCont b
  else if recKind b = 4 then 4 * mfEmbed (orderManifest s b)
  else 0

/-- Whether one FP32 word is less than another. -/
def ltFP32 (a b : Nat) : Bool := gtFP32 b a

/-- Temperature or top-p below its range; both matter to GENERATE alone, and a NaN is taken as below (log entry 28). -/
def samplingLow (b : List Byte) : Bool :=
  decide (recKind b = 1) &&
    ((!(ofFP32 (recTemp b)).isZero && ltFP32 (recTemp b) 0x3A800000) || !gtFP32 (recTopP b) 0 || decide (ofFP32 (recTopP b) = .nan))

def samplingHigh (b : List Byte) : Bool :=
  decide (recKind b = 1) && (gtFP32 (recTemp b) 0x42C80000 || gtFP32 (recTopP b) 0x3F800000)

/-- Whether a region holds a hood in a staged slot. -/
def holdsHood (s : State) (r hood : Nat) : Bool :=
  let g := regionOf s r
  [0, 1].any fun i => decide ((slotStateOf g i = .active ∨ slotStateOf g i = .standby) ∧ slotHood g i = hood)

/-- Open and retained orders of a region (0x3100 + r:13). -/
def openCount (s : State) (r : Nat) : Nat := (regionOrders s r).length

/-- The region an order goes to: the one named, or the SERVING one that holds the hood with the fewest open orders (R295). -/
def chooseRegion (s : State) (b : List Byte) : Option Nat :=
  let fits (r : Nat) : Bool := decide ((regionOf s r).state = .serving) && holdsHood s r (recHood b)
  if recRegion b < 64 then (if fits (recRegion b) then some (recRegion b) else none)
  else if recRegion b ≠ 0xFF then none
  else ((List.range 64).filter fits).foldl (fun best r => match best with
    | none => some r
    | some q => if openCount s r < openCount s q then some r else some q) none

/-- The slots that an order commits: one open slot and its stored slots, without the pages a prefix shares (R294). -/
def slotSizes (s : State) (b : List Byte) : List Nat :=
  let m := orderManifest s b
  if mfKvFormat m = 0xF then []
  else openSlot m :: List.replicate (ceilDiv (totalContext s b + genTokens b - 1) 64 - prefixLen s b / 64) (storedSlot m)

/-- Those slots in a region's pool; none when it cannot take the commitment. -/
def kvSlots (s : State) (r : Nat) (b : List Byte) : Option (List Range) :=
  placeSlots (regionOf s r).kvRange (kvUsed s r) (slotSizes s b)

/-- Field memory that an order takes in its region's home field: a page table of 8 bytes a page, and until its context is present the tokens of one CONTEXT record (log entry 94). -/
def stagingBytes (landed : Bool) (tokens gen : Nat) : Nat := 8 * ceilDiv (tokens + gen) 64 + if landed then 0 else 4 * min tokens 4096

def orderStaging (o : Order) : Nat :=
  stagingBytes o.landed (o.prefixTokens.length + recContext o.record + recCont o.record) (genTokens o.record)

/-- Whether a region's 4 MiB of field memory hold one more order's page table and context (R275, R296). -/
def stagingRoom (s : State) (r : Nat) (b : List Byte) : Bool :=
  decide (((regionOrders s r).map orderStaging).foldl (· + ·) 0 + stagingBytes false (totalContext s b) (genTokens b) ≤ 4 * 2 ^ 20)

/-- The fields with clusters of a region. -/
def regionFields (s : State) (r : Nat) : List Nat := (List.range 12).filter fun n => decide (clustersIn s r n ≠ 0)

/-! ## The adapter cache (R287) -/

def cacheEntry (s : State) (a n : Nat) : Option CacheEntry := s.caches.find? fun c => decide (c.adapter.toNat = a ∧ c.field = n)

/-- The units of a field's adapter cache: the highest free ones, taken with the first reservation and shared read-only (R200, R287); none when :05 MiB are not free. -/
def cacheUnits (s : State) (n : Nat) : Option State :=
  if (List.range 128).any fun u => decide (fmOwner s n u = 0x41) then some s
  else
    let free := ((List.range 128).filter (fmFree s n)).reverse.take (dnum s 0x3300 0x05)
    if free.length < dnum s 0x3300 0x05 then none else some (free.foldl (fun s u => fmTake s n u 1 0x41) s)

/-- The first byte in field memory of block b of a field's cache (log entry 149). -/
def cacheBlock (s : State) (n b : Nat) : Nat :=
  ((List.range 128).filter fun u => decide (fmOwner s n u = 0x41)).getD (b / 256) 0 * 2 ^ 20 + b % 256 * 4096

/-- The free blocks of a field's cache. -/
def cacheFree (s : State) (n : Nat) : List Nat :=
  let used := (s.caches.filter fun c => decide (c.field = n)).flatMap (·.blocks)
  (List.range (256 * dnum s 0x3300 0x05)).filter fun b => !used.contains b

/-- The least recently used entry of a field that no open order reserves, lowest adapter id first among equals. -/
def cacheVictim (s : State) (n : Nat) : Option CacheEntry :=
  (s.caches.filter fun c => decide (c.field = n) && c.holders.isEmpty).foldl (fun best c => match best with
    | none => some c
    | some v => if c.used < v.used ∨ (c.used = v.used ∧ c.adapter.toNat < v.adapter.toNat) then some c else some v) none

/-- Entries evicted until an adapter of k blocks fits, or none when it cannot. -/
def cacheMake (n k : Nat) : Nat → State → Option State
  | 0, _ => none
  | f + 1, s =>
    if k ≤ (cacheFree s n).length ∧ (s.caches.filter fun c => decide (c.field = n)).length < 256 then some s
    else match cacheVictim s n with
      | some v => cacheMake n k f { s with caches := s.caches.filter fun c => decide (c ≠ v) }
      | none => none

/-- An adapter reserved in one field: the state, and whether it must be copied. -/
def cacheReserve (s : State) (tag : BitVec 32) (a n : Nat) : Option (State × Bool) :=
  match cacheEntry s a n with
  | some c =>
    let s := { s with caches := s.caches.map fun x => if x = c then { x with used := now s, holders := x.holders ++ [tag] } else x }
    some (dcount s 0x3300 0x06 8 1, !c.ready)
  | none =>
    let size := (adapterOf s a).len
    match (cacheUnits s n).bind (cacheMake n (ceilDiv size 4096) 258) with
    | none => none
    | some s =>
      let c : CacheEntry := { adapter := BitVec.ofNat 16 a, field := n, size := size, blocks := (cacheFree s n).take (ceilDiv size 4096),
                              used := now s, ready := false, holders := [tag] }
      some (dcount { s with caches := s.caches ++ [c] } 0x3300 0x07 8 1, true)

/-- An adapter reserved in every field of a region, with the fields whose copy is awaited. -/
def reserveAll (tag : BitVec 32) (a : Nat) : List Nat → State → Option (State × List Nat)
  | [], s => some (s, [])
  | n :: ns, s => match cacheReserve s tag a n with
    | none => none
    | some (s, copy) => match reserveAll tag a ns s with
      | none => none
      | some (s, left) => some (s, if copy then n :: left else left)

/-! ## The checks in order -/

/-- The first failing check of R296 for a record of a session, 0 when none fails. -/
def submitCheck (s : State) (session : Nat) (b : List Byte) : Nat :=
  let k := recKind b
  let m := orderManifest s b
  let tag := BitVec.ofNat 32 (leAt b 0 4)
  let a := recAdapter b
  let model := mfKind m
  if k = 6 then (if reservedZero b then (if jRoom s 5 false then 0 else 0xA501) else 0xA301)
  else if !ringActive s session (recRing b) then 0xA301
  else if k = 0 ∨ 6 < k ∨ !reservedZero b ∨ !hoodLoaded s (recHood b) then 0xA301
  else if a ≠ 0xFFFF ∧ ((adapterOf s a).state ≠ 2 ∨ (adapterOf s a).hood.toNat ≠ recHood b) then 0xA301
  else if (mfKvFormat m = 0xF ∧ (k = 1 ∨ k = 2 ∨ k = 3)) ∨ (k = 5 ∧ model = 0) ∨ (k ≠ 5 ∧ model = 1) then 0xA301
  else if recHasPrefix b && (match findOrder s (recTarget b) with
      | some o => decide (recHood o.record ≠ recHood b ∨ recAdapter o.record ≠ a)
      | none => false) then 0xA301
  else if (recContext b = 0 ∧ k ≠ 5) ∨ samplingLow b ∨ (k = 5 ∧ recSteps b = 0) ∨ recResLen b < resultNeed s b then 0xA302
  else if mfContext m < totalContext s b + genTokens b ∨ samplingHigh b ∨ (k = 5 ∧ 65535 < recSteps b) ∨
      (recResKey b = 0 ∧ 65472 < recResLen b) then 0xA303
  else if (findOrder s tag).isSome || (heldSlotOf s tag).isSome then 0xA401
  else match chooseRegion s b with
    | none => 0xA401
    | some r =>
      if recHasPrefix b && (match findOrder s (recTarget b) with
          | some o => decide (o.state ≠ .retained)
          | none => true) then 0xA401
      else if s.replay.state = 1 ∧ leAt s.replay.request 0 1 = r then 0xA401
      else if 4096 ≤ s.orders.length ∨ (regionOf s r).params.maxBatch ≤ openCount s r then 0xA501
      else if (kvSlots s r b).isNone then 0xA501
      else if a ≠ 0xFFFF && (reserveAll tag a (regionFields s r) s).isNone then 0xA501
      else if !stagingRoom s r b then 0xA501
      else if recResKey b = 0 ∧ k ≠ 2 ∧ (heldFree s).isNone then 0xA501
      else if !jRoom s 128 false then 0xA501
      else 0

/-! ## Acceptance (R20, R297) -/

/-- The record as it is journaled, with the region chosen (R326). -/
def withRegion (b : List Byte) (r : Nat) : List Byte := splice b 6 [BitVec.ofNat 8 r]

/-- A new order entered as PENDING: adapter reserved, pool committed, held slot taken, and its prefix as it stands kept for it (R299). -/
def enterOrder (s : State) (session : Nat) (b : List Byte) (r : Nat) (shadow : Bool) : State :=
  let tag := BitVec.ofNat 32 (leAt b 0 4)
  let a := recAdapter b
  let (s, left) := if a = 0xFFFF then (s, []) else (reserveAll tag a (regionFields s r) s).getD (s, [])
  let slots := (kvSlots s r b).getD []
  let need := rangeBytes slots
  let pre := if recHasPrefix b then findOrder s (recTarget b) else none
  let slot := if recResKey b = 0 ∧ recKind b ≠ 2 ∧ !shadow then heldFree s else none
  let s := match slot with
    | some i => heldTake s i tag
    | none => s
  let o : Order :=
    { tag := tag, record := withRegion b r, session := session, region := r, state := .pending, heldSlot := slot, context := [],
      landed := false, fieldsLeft := left, processed := 0, generated := [], resultBytes := [], pages := [], slots := slots, committed := need,
      resumes := 0, cancelPending := false, stepsDone := 0, latestStep := 0, accepted := now s, mirrored := 0,
      replayed := false, admitNo := 0, admitStep := 0, shadowOnly := shadow,
      prefixTokens := (pre.map (·.context)).getD [], prefixPages := (pre.map (·.pages)).getD [] }
  let s := modRegion s r fun g => { g with kvCommitted := g.kvCommitted + need }
  { s with orders := s.orders ++ [o] }

/-- An order whose context and adapter copies are present becomes ELIGIBLE (R21, R287). -/
def settleEligible (s : State) (tag : BitVec 32) : State :=
  modOrder s tag fun o => if o.state = .pending ∧ o.landed ∧ o.fieldsLeft = [] then { o with state := .eligible } else o

/-- The RDMA READ of a context, once the submission is acknowledged; an order with nothing to read has its context at once, and for a forwarded order the front reads it (R508; kind 3 of log entry 45). -/
def fetchContext (s : State) (tag : BitVec 32) : State :=
  match findOrder s tag with
  | none => s
  | some o =>
    let n := recContext o.record + recCont o.record
    if n = 0 then settleEligible (modOrder s tag fun o => { o with landed := true }) tag
    else if 100 ≤ o.session then
      emit s (.twin 0x30 s.journal.epoch ([3] ++ leBytes 1 (o.session - 100) ++ leBytes 4 tag.toNat ++ slice o.record 16 12 ++ leBytes 4 n))
    else match dataQp s o.session with
      | some qp =>
        if qpOk s qp then emit s (.rdmaRead qp (BitVec.ofNat 64 (leAt o.record 16 8)) (BitVec.ofNat 32 (leAt o.record 24 4)) (4 * n))
        else closeOrder s o 0x30 0 0 false
      | none => closeOrder s o 0x30 0 0 false

/-! ## Contexts (R293, R294, R297, R299, R326) -/

/-- The entry of an order's open page (R293). -/
def openEntry (o : Order) : BitVec 64 := peMake 8 false true (openAt o)

/-- The entry of an own page in its stored slot; a page that commits none stays open. -/
def storedEntry (m : List Byte) (o : Order) (p : Nat) : BitVec 64 := match storedAt o p with
  | some a => peMake (mfKvFormat m) false false a
  | none => openEntry o

def setPage (s : State) (tag : BitVec 32) (p : Nat) (e : BitVec 64) : State :=
  modOrder s tag fun o => { o with pages := mset 0 o.pages p e }

/-- The entries of a context's pages: the prefix's stored pages mapped SHARED, the page of the order's first own token and one that the context does not fill open, the others in their slots; the prefix's open page is copied into the open slot (R294, R299). -/
def enterPages (s : State) (o : Order) : State :=
  let m := orderManifest s o.record
  if mfKvFormat m = 0xF then s
  else
    let shared := sharedPages o
    let n := o.context.length
    let s := (List.range (ceilDiv n 64)).foldl (fun s p => setPage s o.tag p
      (if p < shared then peMake (mfKvFormat m) true false (peAddr (mget 0 o.prefixPages p))
       else if p = shared ∨ n < 64 * p + 64 then openEntry o else storedEntry m o p)) s
    if o.prefixTokens.length % 64 = 0 then s
    else engineCopy s (engineReq (homeField s o.region) o.region) (peAddr (mget 0 o.prefixPages shared)) (openAt o) (openSlot m)

/-- The CONTEXT records of a landed context: up to 4,096 tokens in each (R326). -/
def contextRecords (s : State) (o : Order) (first : Nat) (ts : List (BitVec 32)) : State :=
  (List.range (ceilDiv ts.length 4096)).foldl (fun s i =>
    jAppend s 2 o.region (some o.tag) (leBytes 4 o.tag.toNat ++ leBytes 4 (first + 4096 * i) ++
      ((ts.drop (4096 * i)).take 4096).flatMap fun t => leBytes 4 t.toNat)) s

/-- A context that is present: after a prefix's tokens come the order's own (R299). -/
def landContext (s : State) (tag : BitVec 32) (ts : List (BitVec 32)) : State :=
  match findOrder s tag with
  | none => s
  | some o =>
    let pre := o.prefixTokens
    let s := modOrder s tag fun o => { o with context := pre ++ ts, landed := true, processed := pre.length }
    settleEligible (match findOrder s tag with
      | some o => enterPages s o
      | none => s) tag

/-- A context's RDMA READ ends at its order, with the tokens or failed. -/
def contextEnds (s : State) (o : Order) (tokens : Option (List (BitVec 32))) : State :=
  if o.state ≠ .pending ∨ o.landed then s
  else match tokens with
    | none => closeOrder s o 0x30 0 0 false
    | some ts =>
      if ts.length = recContext o.record + recCont o.record then
        let s := match dataQp s o.session with
          | some qp => qpProgress s qp
          | none => s
        landContext (contextRecords s o o.prefixTokens.length ts) o.tag ts
      else s

/-- Whether a context's landing waits: for journal space outside the reserve (R329), or for a stack that retrains and holds a page of it (R262). -/
def landingHeld (s : State) (o : Order) (n : Nat) : Bool :=
  !jRoom s (ceilDiv n 4096 * 32 + 4 * n) false ||
    (o.prefixTokens.length % 64 ≠ 0 && (rangeHolds s (openAt o, openSlot (orderManifest s o.record)) ||
      rangeHolds s (peAddr (mget 0 o.prefixPages (sharedPages o)), openSlot (orderManifest s o.record))))

/-- CONTEXT_LANDED (R297): the RDMA READ ends. The front sends a context that it read for the partner on to it (R508). -/
def execContextLanded (tag : BitVec 32) (tokens : Option (List (BitVec 32))) (s : State) : Answer :=
  match findOrder s tag with
  | some o => guarded (tokens.isNone || !landingHeld s o (tokens.getD []).length) s (contextEnds s o tokens)
  | none => match s.twin.forwarded.find? fun p => decide (leAt p 2 4 = tag.toNat) with
    | none => answer s
    | some p =>
      answer (emit { s with twin := { s.twin with forwarded := s.twin.forwarded.filter fun x => decide (x ≠ p) } }
        (.twin 0x30 s.journal.epoch ([4] ++ leBytes 4 tag.toNat ++ leBytes 1 (boolNat tokens.isSome) ++ (tokens.getD []).flatMap fun t => leBytes 4 t.toNat)))

/-- An adapter's HBM copy written into a cache entry, row by row with its poison (R258, R287). -/
def copyAdapter (s : State) (c : CacheEntry) : State :=
  let a := adapterOf s c.adapter.toNat
  (List.range (ceilDiv c.size 512)).foldl (fun s i =>
    let (s, xs) := engineSectors s (engineReq c.field 0xFF) (a.base + 512 * i) 8
    let tags := xs.zipIdx.foldl (fun t p => if p.1.2 then t + 2 ^ p.2 else t) 0
    (fmRowWrite s c.field (cacheBlock s c.field (c.blocks.getD (i / 8) 0) + 512 * (i % 8)) (engineSrc c.field 0xFF) (xs.flatMap (·.1))
      (BitVec.ofNat 8 tags)).1) s

/-- ADAPTER_COPIED (R287): the copy reaches one field's cache, for every order that waits for it. -/
def execAdapterCopied (tag : BitVec 32) (field : Field) (s : State) : Answer :=
  match findOrder s tag with
  | none => answer s
  | some o =>
    let a := recAdapter o.record
    guarded (o.fieldsLeft.contains field.val && !rangeHolds s ((adapterOf s a).base, (adapterOf s a).len)) s
      (let s := match cacheEntry s a field with
         | some c => copyAdapter { s with caches := s.caches.map fun x => if x = c then { x with ready := true } else x } c
         | none => s
       let waiting := s.orders.filter fun x => decide (recAdapter x.record = a) && x.fieldsLeft.contains field.val
       waiting.foldl (fun s x =>
         settleEligible (modOrder s x.tag fun x => { x with fieldsLeft := x.fieldsLeft.filter fun n => decide (n ≠ field.val) }) x.tag) s)

/-! ## Cancellation (R300) -/

/-- What a CANCEL does to its target. -/
def cancelApply (s : State) (target : BitVec 32) : State :=
  match findOrder s target with
  | none => cancelEffect s 0xFF target 0 true
  | some o =>
    let step := (regionOf s o.region).stepNo + 1
    match o.state with
    | .pending => closeOrder (cancelEffect s o.region target step false) o 0x10 step 0 false
    | .eligible => closeOrder (cancelEffect s o.region target step false) o 0x10 step 0 false
    | .running => modOrder s target fun o => { o with cancelPending := true }
    | .retained => closeRetained (cancelEffect s o.region target step false) o 0x10 step

/-- A CANCEL journaled and applied; `by_` is 0 by SUBMIT and 1 by CANCEL. -/
def cancelJournal (s : State) (target : BitVec 32) (by_ : Nat) : State :=
  let r := match findOrder s target with
    | some o => o.region
    | none => 0xFF
  jAppend s 4 r (some target) (leBytes 4 target.toNat ++ leBytes 1 by_)

end Sys2Proof.Machine
end

