-- ==== Sys2Proof/Machine/MaintBase.lean ====
section
/-! DEFINITION. What maintenance shares: Pounce targets and results, scopes, the conflict matrix of R543, the whole-cluster maps, the profile and keys, dark and holed clusters, and failed stacks (R263, R264, R309 to R312, R375, R476, R540, R572). -/
namespace Sys2Proof.Machine
open Sys2Proof

/-! ## Pounce targets (R537, R552) -/

/-- The site that a test of code 0 to 3 names: a logical tile, or a physical site. -/
def targetSite (s : State) (t : Nat) : Option Nat :=
  if t.testBit 15 then (if t % 4096 < 3072 then some (t % 4096) else none) else siteOfLt s t

/-- The physical cluster that a test of code 4 or 6 names. -/
def targetCluster (t : Nat) : Option Nat := if t.testBit 15 ∧ t % 4096 < 192 then some (t % 4096) else none

/-- The link that a test of code 5 names: 0 to 15, 16 and 17. -/
def targetLink (t : Nat) : Option Nat := if t.testBit 15 ∧ t % 4096 < 18 then some (t % 4096) else none

def clusterSites (c : Nat) : List Nat := (List.range 16).map fun k => 16 * c + k

/-- The tile sites in an activity's scope: a Pounce test's, a row repair's, or a hood's pinned tiles (R543). -/
def maintSites (s : State) (m : Maint) : List Nat :=
  if m.activity = 2 then
    if m.test < 4 then (targetSite s m.scope).toList
    else if m.test = 4 then ((targetCluster m.scope).map clusterSites).getD []
    else []
  else if m.activity = 8 then [m.scope]
  else if m.activity = 4 then
    if isPinned (manifest s m.scope) then (hoodStaged s m.scope).flatMap (regionSites s) else []
  else []

/-- The cluster in an activity's scope. -/
def maintCluster (s : State) (m : Maint) : Option Nat :=
  if m.activity = 3 then some m.scope
  else if m.activity = 2 then
    if m.test < 4 then (targetSite s m.scope).map siteCluster
    else if m.test = 5 then none
    else targetCluster m.scope
  else none

def maintLink (m : Maint) : Option Nat :=
  if m.activity = 7 then some m.scope else if m.activity = 2 ∧ m.test = 5 then targetLink m.scope else none

/-- The stacks in an activity's scope. -/
def maintStacks (s : State) (m : Maint) : List Nat :=
  if m.activity = 1 ∨ m.activity = 6 then [m.scope]
  else if m.activity = 4 then
    let h := hoodOf s m.scope
    (List.range 24).filter fun k => decide (rangeInStack s k (h.base, h.len) ≠ 0)
  else []

def listsMeet (a b : List Nat) : Bool := a.any b.contains

/-- The cell of R543 for two activity codes, lower code first, as its letter. -/
def conflictLetter (a b : Nat) : String :=
  let lo := min a b
  let hi := max a b
  if lo = 1 then (if hi = 1 ∨ hi = 6 then "S" else "")
  else if lo = 2 then (if hi = 2 then "U" else if hi = 3 then "C" else if hi = 4 then "T" else if hi = 7 then "L" else if hi = 8 then "T" else "")
  else if lo = 3 then (if hi = 3 then "A" else "")
  else if lo = 4 then (if hi = 4 then "H" else if hi = 6 then "S" else if hi = 8 then "T" else "")
  else if lo = 5 then (if hi = 5 ∨ hi = 6 then "A" else "")
  else if lo = 6 then (if hi = 6 then "A" else "")
  else if lo = 7 then (if hi = 7 then "L" else "")
  else if hi = 8 then "T" else ""

def sameSome (a b : Option Nat) : Bool := a.isSome && decide (a = b)

/-- Whether two activities conflict (R543): targets overlap when they share a site, a cluster under a cluster test, or a link. -/
def conflicts (s : State) (a b : Maint) : Bool :=
  let l := conflictLetter a.activity b.activity
  let sites := listsMeet (maintSites s a) (maintSites s b)
  let clusters := sameSome (maintCluster s a) (maintCluster s b)
  let links := sameSome (maintLink a) (maintLink b)
  if l = "A" then true
  else if l = "S" then listsMeet (maintStacks s a) (maintStacks s b)
  else if l = "T" then sites
  else if l = "C" then clusters
  else if l = "L" then links
  else if l = "H" then decide (a.scope = b.scope)
  else if l = "U" then sites || links || (clusters && decide (4 ≤ a.test ∨ 4 ≤ b.test))
  else false

/-- An activity ends and leaves the queue. -/
def maintDone (s : State) (id : Nat) : State := { s with maint := s.maint.filter fun m => decide (m.id ≠ id) }

/-- A Pounce outcome entered in 0x5100:03, newest first, in the order of its fields (log entry 29): 0 PASS, 1 FAIL, 2 ABORTED, 3 REFUSED. -/
def pounceOutcome (s : State) (m : Maint) (outcome detail : Nat) : State :=
  let e := leBytes 4 m.id ++ leBytes 1 m.test ++ leBytes 2 m.scope ++ leBytes 1 outcome ++
    leBytes 8 (if m.running then m.started else now s) ++ leBytes 8 (now s) ++ leBytes 4 detail ++ zeros 4
  let s := dput s 0x5100 0x03 ((e ++ dget s 0x5100 0x03).take 2048)
  maintDone (if outcome = 3 then s else dcount s 0x5100 (if outcome = 0 then 0x05 else if outcome = 1 then 0x06 else 0x07) 8 1) m.id

/-- Activities whose scope goes dark end: a Pounce test ABORTED, the others without a result (R544). -/
def abortDark (s : State) (c : Nat) : State :=
  (s.maint.filter fun m => decide (maintCluster s m = some c) || (decide (m.activity = 8) && decide (m.scope / 16 = c))).foldl
    (fun s m => if m.activity = 2 then pounceOutcome s m 2 0 else maintDone s m.id) s

/-! ## Whole clusters, profile and keys (R309 to R312, R569, R572) -/

/-- Whether a physical cluster is whole: ON and not holed. -/
def clusterWhole (s : State) (c : Nat) : Bool := clusterOn s c && !(clusterRec s c).holed

/-- The bytes of a bitmap. -/
def bitmap (n : Nat) (p : Nat → Bool) : List Byte :=
  (List.range n).map fun i => BitVec.ofNat 8 (((List.range 8).map fun j => if p (8 * i + j) then 2 ^ j else 0).foldl (· + ·) 0)

def wholeMap (s : State) : List Byte := bitmap 24 (clusterWhole s)

/-- The cluster remap: the physical cluster of each logical one, 0xFF unbacked (0x3010:04). -/
def remapMap (s : State) : List Byte := (List.range 180).map fun j => BitVec.ofNat 8 ((clusterOfLc s j).getD 0xFF)

/-- The topology signature (R312). -/
def topology (s : State) : List Byte := shake256 (wholeMap s ++ remapMap s ++ slice (dget s 0x4400 0x24) 0 32)

def wholeIn (s : State) (n : Nat) : Nat := ((List.range 16).filter fun k => clusterWhole s (16 * n + k)).length

/-- The profile state that holds (R309); before the tables are loaded nothing reduces it. -/
def profileOf (s : State) : Nat :=
  if dnum s 0x3600 0x01 = 1 then 1
  else if 7 ≤ s.boot.lastStep ∧ (((List.range 12).any fun n => decide (wholeIn s n < 15)) ∨ ((List.range 24).any fun h => decide ((stackRec s h).st = .failed))) then 2
  else 0

/-- The match key (R312), of the signature, the firmware build and the profile state in force (log entry 30). -/
def settleProfile (s : State) : State :=
  let s := dputNum s 0x3600 0x02 1 (profileOf s)
  dput s 0x3600 0x03 (shake256 (dget s 0x1000 0x06 ++ dget s 0x1000 0x07 ++ leBytes 1 (dnum s 0x3600 0x02)))

/-- The topology signature computed again, and the match key with it. -/
def settleKeys (s : State) : State := settleProfile (dput s 0x1000 0x06 (topology s))

/-- 0x3010:03, :04, :05 and 0x3011 after a change of the clusters that are whole (R310, R380, R572). -/
def settleHoles (s : State) : State :=
  let s := dput s 0x3010 0x03 (wholeMap s)
  let s := dput s 0x3010 0x04 (remapMap s)
  let s := dput s 0x3010 0x05 (bitmap 384 fun x => regBit s (hubReg (x / 16) 0x00C) (x % 16))
  let hole (c : Nat) : Bool := decide (c < 192) && !clusterWhole s c
  let s := dput s 0x3011 0x01 (bitmap 24 hole)
  let s := dput s 0x3011 0x02 (bitmap 23 fun j => decide (j < 180) && (clusterOfLc s j).isNone)
  let s := dputNum s 0x3011 0x03 2 ((List.range 192).filter hole).length
  dputNum s 0x3011 0x04 8 (now s)

/-- The maps after a cluster is holed or mapped, and the digests that follow them (R312, R572). -/
def settleMaps (s : State) : State := settleKeys (settleHoles s)

/-! ## Dark and holed clusters (R375, R476) -/

/-- VR_STATUS.STATE, coded as 0x2010 + z:09. -/
def powerCode : ClusterPower → Nat
  | .off => 0
  | .softStart => 1
  | .on => 2
  | .deferred => 3
  | .dark => 4
  | .poweringDown => 5

/-- A cluster's power state (0x2010 + z:09, VR_STATUS.STATE). -/
def setPower (s : State) (c : Nat) (p : ClusterPower) : State := modCluster s c fun r => { r with power := p, since := now s }

/-- The banks of a cluster OFF (R148). -/
def clusterBanksOff (s : State) (c : Nat) : State :=
  (clusterSites c).foldl (fun s x => (List.range 8).foldl (fun s b => bankOff s x b) s) s

/-- Route tables of a field's clusters written again by the Crown, for the next step release (R197, R375). -/
def fieldRoutes (s : State) (n : Nat) : State :=
  (((List.range 16).map fun k => 16 * n + k).filter (clusterOn s)).foldl (fun s c => (clusterSites c).foldl crownRoutes s) s

/-- A cluster holed: HOLED sets, the maps and the profile follow, and every region that holds it is lost (R375, R476). -/
def holeCluster (s : State) (c cause : Nat) : State :=
  let held := (List.range 64).filter fun r => match logicalCluster s c with
    | some lc => regionHasLc s r lc
    | none => regionHasSurplus s r c
  let s := modCluster s c fun r => { r with holed := true }
  let s := regSetBit s (hubReg c 0x004) 1 true
  let s := settleMaps s
  held.foldl (fun s r => loseRegion s r cause) s

/-- A cluster goes dark (R375): banks OFF, maps, regions, route tables of its field. The record is the caller's. -/
def darkCluster (s : State) (c cause : Nat) : State :=
  let s := clusterBanksOff s c
  let s := setPower s c .dark
  let s := abortDark s c
  fieldRoutes (holeCluster s c cause) (clusterField c)

/-! ## Stacks that fail in service (R264) -/

/-- Hoods and adapters with a byte on the stack are lost. -/
def loseImages (s : State) (h : Nat) : State :=
  let on (b l : Nat) : Bool := decide (rangeInStack s h (b, l) ≠ 0)
  { s with hoods := s.hoods.map fun x => if (x.2.state = 2 ∨ x.2.state = 1) && on x.2.base x.2.len then (x.1, { x.2 with state := 3 }) else x,
           adapters := s.adapters.map fun x => if (x.2.state = 2 ∨ x.2.state = 1) && on x.2.base x.2.len then (x.1, { x.2 with state := 3 }) else x }

/-- The regions that have a lost hood staged. -/
def lostStaged (s : State) : List Nat :=
  (List.range 64).filter fun r => let g := regionOf s r
    (List.range 2).any fun i => decide (slotStateOf g i ≠ .empty ∧ (hoodOf s (slotHood g i)).state = 3)

/-- A journal ring in the memory that remains, at the next sequence number, opened by an EPOCH record; without room there is no ring (R264, R330). -/
def newRing (s : State) : State :=
  let s : State := { s with hbmAlloc := s.hbmAlloc.erase s.journal.range }
  match ringFree s with
  | some r => jEpoch { hbmTake s r with journal := { s.journal with entries := [], range := r, lost := false } } (s.journal.epoch + 1)
  | none => { s with journal := { s.journal with entries := [], range := (0, 0), lost := true } }

/-- Requests whose journal record was not yet acknowledged do not take effect and are answered 0xA401: their orders leave. -/
def failDeferred (s : State) : State :=
  let s := (s.deferred.filterMap (·.fetch)).foldl (fun s t => match findOrder s t with
    | some o => refuseOrder s o
    | none => s) s
  { s with deferred := s.deferred.map fun d => { refusedRequest d with upTo := 0 } }

/-- A stack FAILED: 0x4000 + h:01 reads 3, the profile follows, and a STACK_FAILED record is written (R263). -/
def stackFailed (s : State) (h cause : Nat) : State :=
  let s := setStack s h { stackRec s h with st := .failed, retraining := false }
  settleProfile (record s 0x0205 0xFF 0xFFFF h (leBytes 1 h ++ leBytes 1 cause))

/-- A failure in service of one of R263's causes: images, regions and the journal ring with anything on the stack are lost, and its part of a zeroing is over (R260, R264). -/
def failStack (s : State) (h cause : Nat) : State :=
  let s := stackFailed s h cause
  let s := loseImages s h
  let s := (lostStaged s).foldl (fun s r => loseRegion s r 2) s
  let s := zeroSettle { s with hbmZero := s.hbmZero.map fun z => { z with left := z.left.filter fun x => decide (x ≠ h) } }
  if s.journal.started ∧ rangeInStack s h s.journal.range ≠ 0 then failDeferred (newRing s) else s

/-- Lanes repaired at training or retraining: counted in :06 and appended; which lanes they are is left open (R262, log entry 31). -/
def lanesRepaired (s : State) (h n : Nat) : State :=
  let s := dputNum s (0x4000 + h) 0x06 2 (dnum s (0x4000 + h) 0x06 + n)
  (List.range n).foldl (fun s _ => let (w, s) := freeWord s
    fieldDefect s 5 3 h (w.toNat % 2 ^ 32)) s

/-- HBM_RETRAIN (R262, R263): the HBM repair of a held stack ends; accesses that waited go on, and a stack that failed, with the cause named, is lost. -/
def execHbmRetrain (stack : Stack) (lanes : Nat) (cause : Fin 4) (s : State) : Answer :=
  let h := stack.val
  let r := stackRec s h
  guarded r.retraining s
    (let s : State := { setStack s h { r with retraining := false } with
       maint := s.maint.filter fun m => decide (m.activity ≠ 6 ∨ m.scope ≠ h ∨ m.running = false) }
     let s := lanesRepaired s h lanes
     if cause = 0 then s else failStack s h cause)

end Sys2Proof.Machine
end

