-- ==== Sys2Proof/Machine/Steps.lean ====
section
/-! DEFINITION. Steps: batch close, release, end, recovery, and the writing of completion entries (R282, R283, R298 to R308, R323, R424, R513, R514, R526 to R536). -/
namespace Sys2Proof.Machine
open Sys2Proof

/-! ## Epochs (R301) -/

def epochBase (s : State) (r : Nat) : Nat := dnum s (0x3100 + r) 0x09
def stepPeriod (s : State) (r : Nat) : Nat := max 1 (regionOf s r).params.period
def closeLead (s : State) (r : Nat) : Nat := (regionOf s r).params.lead


/-- The first epoch of a region at or after `t`. -/
def epochFrom (s : State) (r t : Nat) : Nat :=
  let b := epochBase s r
  if t ≤ b then b else b + ceilDiv (t - b) (stepPeriod s r) * stepPeriod s r

/-- Epochs e with lo < e < hi. -/
def epochsBetween (s : State) (r lo hi : Nat) : Nat :=
  let f := epochFrom s r (lo + 1)
  if f < hi then ceilDiv (hi - f) (stepPeriod s r) else 0

/-- The instant of a close: the latest epoch whose close has come, less the lead, or the end of the previous step or hold when that is later. -/
def closeInstant (s : State) (r : Nat) : Option Nat :=
  let g := regionOf s r
  let p := stepPeriod s r
  let up := epochFrom s r (now s + closeLead s r + 1)
  if up < epochBase s r + p then none
  else
    let e := up - p
    if e ≤ g.lastRelease ∧ g.lastEnd ≠ 0 then none else some (max (e - closeLead s r) (max g.lastEnd g.heldUntil))

/-! ## Batch close (R282, R302, R513, R514) -/

/-- Orders of a region's slot that take part in its next step: a shadow's from the step of their ADMIT record on (R513). -/
def slotOrders (s : State) (r i : Nat) : List Order :=
  let g := regionOf s r
  if slotStateOf g i = .active ∨ slotStateOf g i = .standby then
    (regionOrders s r).filter fun o => decide (recHood o.record = slotHood g i ∧ (o.state = .running ∨ o.state = .eligible)) &&
      !(o.shadowOnly && decide (g.stepNo + 1 < o.admitStep))
  else []

/-- The slot of the next step: the one with open orders, alternating when both have some. -/
def nextSlot (s : State) (r : Nat) : Option Nat :=
  let a := !(slotOrders s r 0).isEmpty
  let b := !(slotOrders s r 1).isEmpty
  if a && b then some (1 - min 1 (regionOf s r).lastSlot) else if a then some 0 else if b then some 1 else none

/-- Whether a ring's hold is full (R424). -/
def ringFull (s : State) (n : Nat) : Bool := decide (4096 ≤ (ringOf s n).due.length)

/-- Whether an order may be admitted: in its home, with journal space and room on its ring (R329, R424). -/
def admissible (s : State) (o : Order) : Bool := homed s o.region && jRoom s 76 false && !ringFull s (recRing o.record)

def admitInsert (o : Order) : List Order → List Order
  | [] => [o]
  | x :: xs => if o.admitNo ≤ x.admitNo then o :: x :: xs else x :: admitInsert o xs

/-- The members of a step: RUNNING orders in admission order, then the newly admitted in acceptance order; a RUN order stands alone (R298, R302). -/
def batchMembers (s : State) (r i : Nat) : List Order :=
  let os := slotOrders s r i
  let all := (os.filter fun o => decide (o.state = .running)).foldr admitInsert [] ++
    os.filter fun o => decide (o.state = .eligible) && admissible s o
  match all with
  | o :: _ => if recKind o.record = 5 then [o] else all
  | [] => []

/-- Context tokens still to be prefilled. -/
def prefillLeft (o : Order) : Nat := o.context.length - o.processed

/-- Allotments in batch order: one token each, then the rest of the budget to prefilling members (R302). -/
def allot (chunk : Nat) (noPrefill : Bool) : Nat → List Order → List (BitVec 32 × Nat)
  | _, [] => []
  | left, o :: os =>
    if prefillLeft o = 0 then (o.tag, 1) :: allot chunk noPrefill left os
    else if noPrefill then (o.tag, 0) :: allot chunk noPrefill left os
    else
      let extra := min (min (prefillLeft o) chunk - 1) left
      (o.tag, 1 + extra) :: allot chunk noPrefill (left - extra) os

/-- A region's prefill rate in tokens per second of step time (R514). -/
def prefillRate (s : State) (r : Nat) : Nat :=
  let g := regionOf s r
  if g.prefillTime = 0 then 0 else g.prefillTokens * 16000000000 / g.prefillTime

/-- The estimated recompute time in DTU: tokens beyond the latest mirrored page, over the prefill rate (R514). -/
def recomputeTime (s : State) (r : Nat) : Nat :=
  let beyond := ((regionOrders s r).map fun o => o.processed - 64 * o.mirrored).foldl (· + ·) 0
  if prefillRate s r = 0 then 0 else beyond * 16000000000 / prefillRate s r

def warmLagging (s : State) (r : Nat) : Bool :=
  !twinSolo s && decide (s.twin.mode = 2 ∧ dnum s 0x4800 0x0A < recomputeTime s r) && homed s r

/-- The admission of a new member: RUNNING, with its ADMIT record (R297, R326). -/
def admitOrder (s : State) (o : Order) (step : Nat) : State :=
  if o.state = .running then s
  else
    let a := recAdapter o.record
    let dig := if a = 0xFFFF then zeros 32 else shake256 (adapterOf s a).image
    let s := jAppend s 3 o.region (some o.tag) (leBytes 4 o.tag.toNat ++ leBytes 8 step ++ manifestDigest s (recHood o.record) ++ dig)
    modOrder s o.tag fun o => { o with state := .running, admitNo := s.journal.next }

/-- The CANCELs that take effect at a batch close (R300). -/
def closeCancelled (s : State) (r : Nat) : State :=
  let step := (regionOf s r).stepNo + 1
  ((regionOrders s r).filter fun o => o.cancelPending).foldl (fun s o =>
    closeOrder (cancelEffect s r o.tag step false) o 0x10 step (resultCount o) false) s

/-- The budget left after each member's token. -/
def extraBudget (s : State) (r n : Nat) : Nat := (regionOf s r).params.budget - n

/-- A close at an instant: the batch's members and allotments are fixed. -/
def closeBatch (s : State) (r at_ : Nat) : State :=
  let s := closeCancelled (latchParams s r) r
  match nextSlot s r with
  | none => s
  | some i =>
    let ms := batchMembers s r i
    if ms.isEmpty then s
    else
      let g := regionOf s r
      let s := ms.foldl (fun s o => admitOrder s o (g.stepNo + 1)) s
      let b : Batch := { slot := i, members := allot (regionOf s r).params.chunk (warmLagging s r) (extraBudget s r ms.length) ms, closedAt := at_,
                         releaseAt := none, recovery := false, switching := decide (slotStateOf g i ≠ .active) }
      modRegion s r fun g => { g with batch := some b }

/-- Whether a region runs steps. -/
def steppable (s : State) (r : Nat) : Bool := decide ((regionOf s r).state = .serving ∨ (regionOf s r).state = .draining)

/-- BATCH_CLOSE (R301, R302): the close lead before an epoch, or the end of the previous step. -/
def execBatchClose (region : RegionId) (s : State) : Answer :=
  let r := region.val
  match closeInstant s r with
  | none => answer s
  | some t => guarded (steppable s r && (regionOf s r).batch.isNone && (regionOf s r).recovering.isEmpty && decide (t ≤ now s)) s (closeBatch s r t)

/-! ## Release (R283, R301, R513) -/

/-- The incoming slot's banks ON, the outgoing slot's in RETAIN when :11 asks for it, then windows, tables and entries; within 28,800 DTU (R283). -/
def switchSlot (s : State) (r i : Nat) : State :=
  let g := regionOf s r
  let out := mfBankMask (manifest s (slotHood g (1 - i)))
  let s := (regionSites s r).foldl (fun s x =>
    let s := (slotBanks s r i).foldl (fun s b => bankOn s x b) s
    if dnum s (0x3100 + r) 0x11 = 1 then
      ((List.range 8).filter fun b => out.testBit b).foldl (fun s b => bankRequest (regField s (spadReg x 0x008) (2 * b) 2 1) x b 1) s
    else s) s
  let s := slotTables s r i
  let (w, s) := freeWord s
  modRegion s r fun g =>
    let g := if slotStateOf g (1 - i) = .active then setSlot g (1 - i) .standby (slotHood g (1 - i)) else g
    { setSlot g i .active (slotHood g i) with lastSwitch := w.toNat % 28801 }

/-- Whether the shadow has acknowledged every ADMIT record of a region (R513). -/
def admitsAcked (s : State) (r : Nat) : Bool :=
  !(mirrored s r) || s.journal.entries.all fun e =>
    decide (e.record.type ≠ 3 ∨ e.record.region.toNat ≠ r ∨ e.record.seq < s.journal.partnerAcked)

/-- The argument block of a RUN order in its argument row: the order engine's remote write, judged by the windows and the bank of each tile (R150, R160, R298). -/
def writeArg (s : State) (r row : Nat) (args : List Byte) (x : Nat) : State :=
  let src := engineSrc (homeField s r) r
  if !windowAllows s x row true true then windowRefused s x row none (BitVec.ofNat 10 src.master) true true
  else if !bankServes s x row reqNetwork then offAccess s x row reqNetwork
  else areaPatch s x reqNetwork row 0 [] args

def writeArgs (s : State) (r : Nat) (b : Batch) : State :=
  match b.members.head?.bind fun m => findOrder s m.1 with
  | some o =>
    if recKind o.record = 5 then (regionSites s r).foldl (fun s x => writeArg s r (mfArgRow (orderManifest s o.record)) (recArgs o.record) x) s
    else s
  | none => s

/-- The stacks of a region: those that hold part of its KV pool or of a staged hood (log entry 150). -/
def regionStacks (s : State) (r : Nat) : List Nat :=
  let g := regionOf s r
  let hoods := ([0, 1].filter fun i => decide (slotStateOf g i ≠ .empty)).map fun i => hoodOf s (slotHood g i)
  (List.range 24).filter fun h => (g.kvRange :: hoods.map fun x => (x.base, x.len)).any fun a => decide (rangeInStack s h a ≠ 0)

/-- Refresh waits of a region's stacks, and its link replays, so far (R323). -/
def watchCounts (s : State) (r : Nat) : Nat × Nat :=
  (((regionStacks s r).map fun h => dnum s (0x4000 + h) 0x10).foldl (· + ·) 0,
   ((regionSites s r).map fun x => (regGet s (netReg x 0x024)).toNat).foldl (· + ·) 0 +
     ((regionFields s r).map fun n => (regGet s (fieldReg n 0x028)).toNat).foldl (· + ·) 0)

/-- The sites of a region's clusters that serve no logical tile: their routers take new tables with the region's step release. -/
def spareSites (s : State) (r : Nat) : List Nat :=
  let sites := regionSites s r
  ((regionClusters s r).flatMap fun c => (List.range 16).map fun k => 16 * c + k).filter fun x => !sites.contains x

/-- Whether a covered Pounce test runs in a region (R539). -/
def coverRuns (s : State) (r : Nat) : Bool :=
  s.maint.any fun m => m.running && m.twinCover && decide (m.activity = 2) && (maintSites s m).any fun x => decide (regionOfSite s x = some r)

/-- A DIGEST without orders: the shadow's message that a twin cover begins after a step, or ends with one (DESIGN CHOICE, log entry 153). -/
def coverMessage (s : State) (r step : Nat) : State := emit s (.twin 0x20 s.journal.epoch (leBytes 1 r ++ leBytes 8 step))

/-- The shadow's release of a step that the home has not ended yet: both run it on the same epoch, and comparison resumes with it (R539; log entry 153). -/
def settleCover (s : State) (r : Nat) : State :=
  let g := regionOf s r
  if g.cover && !homed s r && !coverRuns s r && decide (g.coverStep < g.stepNo) then
    coverMessage (modRegion s r fun g => { g with cover := false }) r g.stepNo
  else s

/-- A batch released at its epoch: the notices go out; the first one of an adopted region completes 0x4800:0F (R524). -/
def releaseBatch (s : State) (r : Nat) (b : Batch) (trel : Nat) : State :=
  let s := if b.switching then switchSlot s r b.slot else s
  let s := if s.twin.takeover.isSome && (regionOf s r).adopted then
      dput { s with twin := { s.twin with takeover := none } } 0x4800 0x0F (splice (dget s 0x4800 0x0F) 8 (leBytes 8 trel))
    else s
  let s := writeArgs s r b
  let s := (spareSites s r).foldl routesTaken s
  let g := regionOf s r
  let passed := epochsBetween s r g.lastRelease trel
  let idle := if g.lastEnd = 0 ∧ g.heldUntil = 0 then passed else epochsBetween s r (max g.lastRelease (max g.lastEnd g.heldUntil + closeLead s r)) trel
  let blocked := if b.recovery then 0 else epochsBetween s r (b.closedAt + closeLead s r - 1) trel
  setRegion s r { g with batch := some { b with releaseAt := some trel, switching := false }, tileNotices := noticeDsts (regionSites s r),
                         lastRelease := trel, stepNo := (if b.recovery then g.stepNo else g.stepNo + 1), cmdFault := false, trapSeen := false, marks := 0,
                         skipped := g.skipped + (passed - min passed idle) + min blocked idle, watch := watchCounts s r }

/-- STEP_RELEASE (R301): at the first epoch at least the close lead after the close; with the journal's reserve full none is released (R329). -/
def execStepRelease (region : RegionId) (s : State) : Answer :=
  let r := region.val
  let g := regionOf s r
  match g.batch with
  | none => answer s
  | some b =>
    guarded (steppable s r && b.releaseAt.isNone && !g.pounceHold && jRoom s 512 true && admitsAcked s r) s
      (settleCover (releaseBatch s r b (epochFrom s r (max (b.closedAt + closeLead s r) (now s)))) r)

/-! ## Members at the end of a step (R298, R303 to R306) -/

/-- What one member's step gives: its new state, the result bytes of the step, whether a stage ends it, and whether NUMERIC does. -/
structure MemberEnd where
  order : Order
  bytes : List Byte
  final : Option Nat
  prefilled : Nat
deriving DecidableEq, Repr

/-- The rows of logits that an order's output holds. -/
def logitRow (v : Nat) (out : MemberOut) (i : Nat) : List Nat := ((out.logits.drop (v * i)).take v).map (·.toNat)

/-- A GENERATE order's token from its logits: the status is NUMERIC, an ending one, or none. With max new 0 no token is drawn and the order ends (log entry 53). -/
def generateToken (m : List Byte) (o : Order) (out : MemberOut) : Order × List Byte × Option Nat :=
  let b := o.record
  let n := o.generated.length
  if recMaxNew b = 0 then (o, [], some 0) else
  match sampleToken (logitRow (mfVocab m) out 0) (recTemp b) (recTopP b) (recTopK b) (tokenDraw (recSeed b) o.tag.toNat n) with
  | none => (o, [], some 0x23)
  | some (t, lp) =>
    let lpb := if recLogprob b then leBytes 4 lp else []
    let o := { o with generated := o.generated ++ [BitVec.ofNat 32 t], resultBytes := o.resultBytes ++ lpb }
    let st := if (recStops b).contains t then some 1
      else if o.generated.length = recMaxNew b then some 0
      else if mfContext m ≤ o.context.length + o.generated.length then some 2
      else none
    (o, leBytes 4 t ++ lpb, st)

/-- The continuation tokens whose logits a SCORE step produced: token t comes from the step that processes token t − 1 (R298, R305). -/
def scoreRows (o : Order) (from_ upto : Nat) : List Nat :=
  let first := o.context.length - recCont o.record
  ((List.range o.context.length).filter fun t => decide (first ≤ t ∧ from_ ≤ t - 1 ∧ t ≤ upto ∧ 1 ≤ t))

/-- The log-probabilities of the continuation tokens that a SCORE step reaches; none when a logit is NaN or an infinity (R304, R305). -/
def scoreStep (m : List Byte) (o : Order) (from_ upto : Nat) (out : MemberOut) : Option (List Byte) :=
  let rows := (scoreRows o from_ upto).zipIdx.map fun p => (logitRow (mfVocab m) out p.2, (o.context.getD p.1 0).toNat)
  if rows.all fun r => r.1.all finiteFP32 then some (rows.flatMap fun r => leBytes 4 (fullLogProb r.1 r.2)) else none

/-- One member's work of a step with its allotment, as its kind does it (R298). -/
def memberStep (s : State) (o : Order) (n : Nat) (out : MemberOut) : MemberEnd :=
  let m := orderManifest s o.record
  let k := recKind o.record
  let left := prefillLeft o
  let take := min n left
  let o1 : Order := { o with processed := o.processed + take, stepsDone := o.stepsDone + 1 }
  if k = 5 then
    let bytes := out.bytes.take (leAt o.record 92 4 - o.resultBytes.length)
    { order := { o1 with resultBytes := o.resultBytes ++ bytes }, bytes := bytes,
      final := if o1.stepsDone = recSteps o.record then some 3 else none, prefilled := take }
  else if k = 3 then
    match scoreStep m o o.processed o1.processed out with
    | none => { order := o1, bytes := [], final := some 0x23, prefilled := take }
    | some bytes => { order := { o1 with resultBytes := o.resultBytes ++ bytes }, bytes := bytes,
                      final := if left ≠ 0 ∧ take < left then none else some 3, prefilled := take }
  else if left ≠ 0 ∧ take < left then { order := o1, bytes := [], final := none, prefilled := take }
  else if k = 1 then
    let o2 := if left = 0 then { o1 with processed := o.processed + 1 } else o1
    let (o3, bytes, st) := generateToken m o2 out
    { order := o3, bytes := bytes, final := st, prefilled := take }
  else if k = 2 then { order := o1, bytes := [], final := some 3, prefilled := take }
  else
    let bytes := slice out.bytes 0 (4 * mfEmbed m)
    { order := { o1 with resultBytes := bytes }, bytes := bytes, final := some 3, prefilled := take }

/-- Whether a member is hit by its own poison (R528). -/
def poisonHit (o : Order) (n : Nat) (out : MemberOut) : Bool :=
  let samples := decide (recKind o.record = 1 ∧ prefillLeft o ≤ n) || decide (recKind o.record = 3)
  (samples && out.logitsPoison) || out.bytesPoison || !out.pagesPoison.isEmpty || out.adapterPoison

/-! ## KV pages at the end of a step (R289 to R294, R512) -/

/-- Tile i of an order's page that fills: from the open form that its program gave, or from the open slot, with its poison. -/
def openTileOf (s : State) (q : HbmReq) (o : Order) (given : Option (List Byte)) (poison : Bool) (i : Nat) : State × List Byte × Bool :=
  match given with
  | some b => (s, slice b (openTile * i) openTile, poison)
  | none =>
    let (s, bytes, p) := engineRead s q (openAt o + openTile * i) openTile
    (s, bytes, p || poison)

/-- The Fuller stores a page tile by tile, its scales behind the tiles; in BF16 it copies (R290; log entry 147). -/
def fullerStore (s : State) (o : Order) (to_ : Nat) (given : Option (List Byte)) (poison : Bool) : State :=
  let m := orderManifest s o.record
  let q := fullerReq (homeField s o.region) o.region
  (List.range (kvTiles m)).foldl (fun s i =>
    let (s, tile, p) := openTileOf s q o given poison i
    if mfKvFormat m = 8 then engineWrite s q (to_ + openTile * i) tile p
    else
      let (data, scales) := fullerTile (mfKvFormat m) tile
      engineWrite (engineWrite s q (to_ + storedTile m * i) data p) q (to_ + kvTiles m * storedTile m + 128 * i) scales p) s

/-- A page that fills: the Fuller stores it once, in its own slot, and its entry follows; in SHADOW-WARM it goes to the partner (R289, R290, R512). -/
def storePage (s : State) (tag : BitVec 32) (p : Nat) (given : Option (List Byte)) (poison : Bool) : State :=
  match findOrder s tag with
  | none => s
  | some o => match storedAt o p with
    | none => s
    | some a =>
      let m := orderManifest s o.record
      let s := setPage (fullerStore s o a given poison) tag p (storedEntry m o p)
      if !twinSolo s && decide (s.twin.mode = 2) && homed s o.region && !o.shadowOnly then
        let (s, bytes, _) := engineRead s (engineReq (homeField s o.region) o.region) a (storedSlot m)
        emit (modOrder s tag fun o => { o with mirrored := max o.mirrored (p + 1) }) (.twin 0x13 s.journal.epoch
          (leBytes 1 o.region ++ leBytes 4 tag.toNat ++ leBytes 4 p ++ bytes))
      else s

/-- The own pages that fill when an order's tokens go from one count to another. -/
def filledPages (o : Order) (from_ upto : Nat) : List Nat :=
  (List.range (upto / 64)).filter fun p => decide (from_ / 64 ≤ p ∧ sharedPages o ≤ p)

/-- The pages of an order after its step: those filled are stored, and the page of the latest token is open. -/
def settlePages (s : State) (tag : BitVec 32) (from_ upto : Nat) (out : MemberOut) : State :=
  match findOrder s tag with
  | none => s
  | some o =>
    if mfKvFormat (orderManifest s o.record) = 0xF then s
    else
      let s := (filledPages o from_ upto).zipIdx.foldl (fun s p => storePage s tag p.1 out.filled[p.2]? (out.pagesPoison.contains p.1)) s
      if upto % 64 = 0 then s else setPage s tag (upto / 64) (openEntry o)

/-- Whether a page that a step fills is taken from an open slot with a poisoned sector (R258, R528). -/
def openPoisoned (s : State) (o : Order) (upto : Nat) (out : MemberOut) : Bool :=
  decide (out.filled.length < (filledPages o o.processed upto).length) &&
    (engineRead s (fullerReq (homeField s o.region) o.region) (openAt o) (openSlot (orderManifest s o.record))).2.2

/-- The pages that a hit member stored in the step are freed, with their entries (R530). -/
def freeStepPages (s : State) (tag : BitVec 32) (from_ upto : Nat) : State :=
  modOrder s tag fun o => { o with pages := o.pages.filter fun p => decide (p.1 < from_ / 64 ∨ upto / 64 ≤ p.1) || peShared p.2 }

/-! ## The end of a step (R301, R323, R327, R528 to R532) -/

/-- An order's part of item 3 of R327. -/
def digestPart (tag : BitVec 32) (bytes : List Byte) (status : Nat) : List Byte :=
  leBytes 4 tag.toNat ++ leBytes 4 bytes.length ++ bytes ++ leBytes 1 status

/-- Whether an order's adapter was lost with a failed stack: the order is hit at its next step (R264). -/
def adapterLost (s : State) (o : Order) : Bool := decide (recAdapter o.record ≠ 0xFFFF ∧ (adapterOf s (recAdapter o.record)).state = 3)

/-- Whether an order's pages lie partly on a stack that failed in service: it cannot resume in place (R264). -/
def pagesLost (s : State) (o : Order) : Bool := (orderRanges s o).any fun r => !onLiveStacks s r

/-- Whether a hit order may resume (R532). -/
def mayResume (s : State) (o : Order) (out : MemberOut) : Bool :=
  decide (dnum s 0x5000 0x08 = 1 ∧ o.resumes < dnum s 0x5000 0x09) && !out.adapterPoison && !pagesLost s o

/-- The member output of an order at the end of a step; none was left where the command names none. -/
def outOf (outs : List MemberOut) (tag : BitVec 32) : MemberOut :=
  (outs.find? fun o => decide (o.tag = tag)).getD ⟨tag, [], false, [], false, [], [], false⟩

/-- A hit member resumes in place, or closes: KILLED_POISON when it consumed poison, else KILLED_FAULT (R530, R532, R533). -/
def hitMember (s : State) (o : Order) (n step : Nat) (out : MemberOut) (poison : Bool) : State :=
  let upto := o.processed + n
  let s := freeStepPages s o.tag o.processed upto
  let stored := if o.processed / 64 < upto / 64 then [o.processed / 64] else []
  let p := (out.pagesPoison ++ stored).foldl min (o.processed / 64)
  if mayResume s o out then
    let s := dcount s 0x5000 0x0A 8 1
    let s := modOrder s o.tag fun o => { o with resumes := o.resumes + 1 }
    modRegion s o.region fun g => { g with recovering := g.recovering ++ [o.tag], recoveryPages := mset 0 g.recoveryPages o.tag.toNat (64 * p) }
  else closeOrder s o (if poison && !pagesLost s o then 0x20 else 0x21) step (resultCount o) true

/-- A member that is delivered: its pages settle, its entries are written, and it closes, is retained or runs on (R297, R307). A STREAM order's tokens are reported before its final entry. -/
def deliverMember (s : State) (o : Order) (e : MemberEnd) (step : Nat) (out : MemberOut) : State :=
  let s := modOrder s o.tag fun _ => { e.order with latestStep := step }
  let s := if recKind o.record = 5 then s else settlePages s o.tag o.processed e.order.processed out
  match findOrder s o.tag with
  | none => s
  | some o' =>
    let s := if streams o && decide (resultCount o < resultCount o') then
        deliver s true (deliveryOf o' 8 step (resultCount o) false)
      else s
    match e.final with
    | some st => if recKind o.record = 2 then retainOrder s o' step else closeOrder s o' st step (resultCount o') true
    | none => s

/-- TOKENS and DIGEST messages of a step, outside SOLO (R512, R513, R536); `olds` is the members as they stood before it. A step that the home delivers under a twin cover is counted in 0x5000:0D and waits for no comparison (R539). -/
def streamStep (s : State) (r step : Nat) (olds : List Order) (parts : List (BitVec 32 × Nat × List Byte × Nat × Bool)) (toks : List (BitVec 32 × Nat × List (BitVec 32))) : State :=
  if twinSolo s then s
  else
    let s := if homed s r then emit s (.twin 0x12 s.journal.epoch (leBytes 1 r ++ leBytes 8 step ++
        toks.flatMap fun t => leBytes 4 t.1.toNat ++ leBytes 4 t.2.1 ++ leBytes 4 t.2.2.length ++ t.2.2.flatMap fun x => leBytes 4 x.toNat)) else s
    if s.twin.mode = 3 ∧ (regionOf s r).protected_ then
      let ds := parts.map fun p => (p.1, (shake256 (digestPart p.1 p.2.2.1 p.2.2.2.1)).take 8, p.2.2.2.2)
      let own := ds.map fun d => (r, step, d.1, BitVec.ofNat 64 (leNat d.2.1), d.2.2)
      let s : State := if homed s r && (regionOf s r).cover then
          modRegion (dcount s 0x5000 0x0D 8 1) r fun g => { g with coverStep := step }
        else { s with twin := { s.twin with ownDigests := s.twin.ownDigests ++ own, stepStart := s.twin.stepStart ++ olds.map fun o => (step, o) } }
      emit s (.twin 0x20 s.journal.epoch (leBytes 1 r ++ leBytes 8 step ++ ds.flatMap fun d => leBytes 4 d.1.toNat ++ d.2.1 ++ leBytes 1 (boolNat d.2.2)))
    else s

/-- The SUSPECT sites of a region (R88). -/
def suspectSites (s : State) (r : Nat) : List Nat := (regionSites s r).filter fun x => regBit s (arrayReg x 4) 1

/-- The spare site of a cluster: the one no remap entry names. -/
def spareSite (s : State) (c : Nat) : Option Nat :=
  ((List.range 16).map fun k => 16 * c + k).find? fun x => (remapIndex s x).isNone && !routerDead s x

/-- The tile path of R533 step 2 for one mapped site: the hub of its cluster stops and the spare runs the array test; a cluster with another bad site has no spare and is holed. -/
def tilePath (s : State) (r x : Nat) : State :=
  let c := siteCluster x
  match (if setFld ((regGet s (hubReg c 0x00C)).toNat % 65536) (x % 16) 1 0 = 0 then spareSite s c else none) with
  | some y =>
    let s := regSetBit s (hubReg c 0) 0 false
    let s := queueMaint s 2 (physTarget y) 0 3 false 0
    modRegion s r fun g => { g with pounceHold := true }
  | none => holeCluster s c 5

/-- Whether a cache entry holds a poisoned sector. -/
def cachePoisoned (s : State) (c : CacheEntry) : Bool :=
  c.blocks.any fun b => (List.range 64).any fun i => fmTagAt s (fmKey c.field (cacheBlock s c.field b)) i

/-- In-place recovery begins (R533): the tile path of every SUSPECT tile, pinned banks that hold a poisoned sector written again from the hood, and poisoned adapter-cache entries copied again. -/
def startRecovery (s : State) (r : Nat) : State :=
  let s := (suspectSites s r).foldl (fun s x => tilePath s r x) s
  let sites := regionSites s r
  let s := (List.range 2).foldl (fun s i =>
    let m := manifest s (slotHood (regionOf s r) i)
    if decide (slotStateOf (regionOf s r) i ≠ .empty) && isPinned m &&
        s.spadTag.any fun k => majority k.2 && (mfBankMask m).testBit (k.1 / 8320 % 8) && sites.contains (k.1 / 66560)
    then pinWeights s r i else s) s
  let held := s.caches.filter fun c => (regionOrders s r).any fun o => c.holders.contains o.tag
  (held.filter (cachePoisoned s)).foldl copyAdapter s

/-- The watched region's numbers: the largest count of tile cycles from release slot to HALT, refresh waits and link replays (R321, R323). -/
def watchStep (s : State) (r : Nat) : State :=
  if dnum s 0x3600 0x06 = r then
    let cycles := ((regionSites s r).map fun x => (tileOf s x).haltedAt - (tileOf s x).releasedAt).foldl max 0
    let base := (regionOf s r).watch
    let c := watchCounts s r
    dputNum (dputNum (dputNum s 0x3600 0x07 8 cycles) 0x3600 0x08 8 (c.1 - base.1)) 0x3600 0x09 8 (c.2 - base.2)
  else s

/-- The prefill account of R514: step time and prefilled tokens of the last second. -/
def countPrefill (g : Region) (tokens time : Nat) : Region :=
  if 16000000000 < g.prefillTime + time then { g with prefillTokens := tokens, prefillTime := time }
  else { g with prefillTokens := g.prefillTokens + tokens, prefillTime := g.prefillTime + time }

/-- The numbered step's members judged, sampled, delivered and closed; `all` when a command status or a trap hits every member (R529). -/
def endNumbered (s : State) (r : Nat) (b : Batch) (trel : Nat) (outs : List MemberOut) : State :=
  let g := regionOf s r
  let step := g.stepNo
  let all := g.cmdFault || g.trapSeen
  let ms := (b.members.filter fun p => !g.recovering.contains p.1).filterMap fun p => (findOrder s p.1).map fun o => (o, p.2)
  let judged := ms.map fun p =>
    let out := outOf outs p.1.tag
    let out := { out with adapterPoison := out.adapterPoison || adapterLost s p.1 }
    let e := memberStep s p.1 p.2 out
    let poison := poisonHit p.1 p.2 out || openPoisoned s p.1 e.order.processed out
    (p.1, p.2, out, poison, poison || all, e)
  let parts := judged.map fun j => let (o, _, _, _, hit, e) := j
    if hit then (o.tag, o.generated.length, [], 0xFE, true)
    else (o.tag, o.generated.length, e.bytes, e.final.getD 0xFF, false)
  let dig := shake256 (leBytes 1 r ++ leBytes 8 step ++ parts.flatMap fun p => digestPart p.1 p.2.2.1 p.2.2.2.1)
  let hood := slotHood g b.slot
  let s := if homed s r then jAppend s 8 r none (leBytes 8 step ++ leBytes 2 hood ++ leBytes 2 ms.length ++ leBytes 4 (regionOf s r).params.budget ++
      leBytes 4 (regionOf s r).params.chunk ++ dig) else s
  let s := match judged.find? fun j => j.2.2.2.2.1 with
    | some j => record s 0x0701 r 0xFFFF 0 (leBytes 4 j.1.tag.toNat ++ leBytes 8 step ++ leBytes 4 j.1.resumes)
    | none => s
  let s := judged.foldl (fun s j => let (o, n, out, poison, hit, e) := j
    if hit then (if g.trapSeen then s else hitMember s o n step out poison) else deliverMember s o e step out) s
  let tokens := (judged.map fun j => j.2.2.2.2.2.prefilled).foldl (· + ·) 0
  let toks := judged.map fun j => let (o, _, _, _, hit, e) := j
    (o.tag, o.generated.length, if hit then [] else e.order.generated.drop o.generated.length)
  let olds := (judged.filter fun j => !j.2.2.2.2.1).map (·.1)
  let s := streamStep s r step olds parts toks
  let s := modRegion s r fun g => { countPrefill g tokens (now s - trel) with batch := none, lastStep := now s - trel, lastEnd := now s, lastSlot := b.slot }
  let s := watchStep s r
  if g.trapSeen then loseRegion s r 3
  else if judged.any fun j => j.2.2.2.2.1 then startRecovery s r else s

/-- The end of a recovery step (R533, R534): each member's rebuilt position advances; no record, no entry. -/
def endRecovery (s : State) (r : Nat) (b : Batch) (outs : List MemberOut) : State :=
  let s := b.members.foldl (fun s p =>
    match findOrder s p.1 with
    | none => s
    | some o =>
      let at_ := mget 0 (regionOf s r).recoveryPages p.1.toNat
      let upto := min (at_ + p.2) o.processed
      let s := settlePages s p.1 at_ upto (outOf outs p.1)
      modRegion s r fun g =>
        if upto = o.processed then { g with recovering := g.recovering.filter (fun t => decide (t ≠ p.1)), recoveryPages := mset 0 g.recoveryPages p.1.toNat 0 }
        else { g with recoveryPages := mset 0 g.recoveryPages p.1.toNat upto }) s
  let s := modRegion s r fun g => { g with batch := none, heldUntil := now s }
  if (regionOf s r).trapSeen then loseRegion s r 3 else s

/-- Whether every tile of a region has taken its release and halted. -/
def allHalted (s : State) (r : Nat) : Bool :=
  (regionOf s r).tileNotices.isEmpty && (regionSites s r).all fun x =>
    let t := tileOf s x
    t.stepPending.isNone && decide ((t.core0.status = .halted ∨ t.core0.status = .trapped) ∧ (t.core1.status = .halted ∨ t.core1.status = .trapped))

/-- A cluster's pending ageing trim takes effect; at 30 mV the limit is recorded with VR_PHASES, no current, and the trim in 0.5 mV (R368). -/
def applyTrim (s : State) (c : Nat) : State :=
  let r := clusterRec s c
  match r.trimPending with
  | none => s
  | some v =>
    let s := setCluster s c { r with trim := v, trimPending := none }
    if v = 60 ∧ r.trim ≠ 60 then record s 0x0507 0xFF 0xFFFF c (leBytes 4 (phasesWord s c).toNat ++ leBytes 4 0 ++ leBytes 4 v) else s

/-- STEP_END (R301): every tile has halted and the outputs are taken; a stack of the pool that retrains holds it (R262). The step boundary is where its clusters' trims take effect. -/
def execStepEnd (region : RegionId) (outs : List MemberOut) (s : State) : Answer :=
  let r := region.val
  match (regionOf s r).batch with
  | none => answer s
  | some b => match b.releaseAt with
    | none => answer s
    | some trel =>
      guarded (decide (trel ≤ now s) && allHalted s r && !rangeHolds s (regionOf s r).kvRange) s
        (let s := (regionClusters s r).foldl applyTrim s
         if b.recovery then endRecovery s r b outs else endNumbered s r b trel outs)

/-- RECOVERY_STEP (R533, R534): a step of hit orders alone, allotted as prefill from their first page to rebuild, released at an epoch; with the journal's reserve full none is released (R329). -/
def execRecoveryStep (region : RegionId) (s : State) : Answer :=
  let r := region.val
  let g := regionOf s r
  guarded (steppable s r && !g.recovering.isEmpty && g.batch.isNone && !g.pounceHold && jRoom s 512 true) s
    (let s := latchParams s r
     let os := g.recovering.filterMap (findOrder s)
     let work := os.map fun o => { o with context := o.context.take 0 ++ List.replicate o.processed 0, processed := mget 0 g.recoveryPages o.tag.toNat }
     let b : Batch := { slot := min 1 g.lastSlot, members := allot (regionOf s r).params.chunk false (extraBudget s r os.length) work,
                        closedAt := now s, releaseAt := none, recovery := true, switching := false }
     releaseBatch s r b (epochFrom s r (now s)))

/-- STEP_LIMIT_EXPIRY (R301): a step that has not ended within :1B kills the region with cause 6. -/
def execStepLimitExpiry (region : RegionId) (s : State) : Answer :=
  let r := region.val
  match (regionOf s r).batch with
  | none => answer s
  | some b => match b.releaseAt with
    | none => answer s
    | some trel => guarded (decide (trel + dnum s (0x3100 + r) 0x1B ≤ now s) && steppable s r) s (loseRegion s r 6)

/-! ## Completion rings (R424) -/

/-- CONSUMER_COUNT_READ (R424): an RDMA READ of the host's count, at most once per 10 µs, while an entry is held for room. -/
def execConsumerCountRead (ring : Nat) (count : BitVec 32) (s : State) : Answer :=
  let r := ringOf s ring
  let due := match r.lastRead with
    | some t => decide (t + 160000 ≤ now s)
    | none => true
  guarded (!r.due.isEmpty && decide (r.desc.entries ≤ r.written - r.consumer) && due && !r.bad && qpOk s r.desc.qp.toNat) s
    (let s := emit s (.rdmaRead r.desc.qp.toNat r.desc.consumer r.desc.key 4)
     let adv := (count - BitVec.ofNat 32 r.consumer).toNat
     setRing s ring { r with lastRead := some (now s), consumer := if r.consumer + adv ≤ r.written then r.consumer + adv else r.consumer })

end Sys2Proof.Machine
end

