-- ==== Sys2Proof/Machine/Replay.lean ====
section
/-! DEFINITION. Replay of journal records, in VERIFY and RESUME (R332 to R335). -/
namespace Sys2Proof.Machine
open Sys2Proof

/-! ## The request (R332) -/

def rpTarget (v : List Byte) : Nat := leAt v 0 1
def rpMode (v : List Byte) : Nat := leAt v 1 1
def rpSource (v : List Byte) : Nat := leAt v 2 1
def rpRegion (v : List Byte) : Nat := leAt v 3 1
def rpFirst (v : List Byte) : Nat := leAt v 8 8
def rpLast (v : List Byte) : Nat := leAt v 16 8
def rpDelivered (v : List Byte) : Nat := leAt v 40 8

/-- Whether a record is one of the request's. -/
def rpTakes (v : List Byte) (r : JRecord) : Bool :=
  decide (r.region.toNat = rpRegion v ∧ rpFirst v ≤ r.seq ∧ r.seq ≤ rpLast v)

/-- The records of a replay, from the journal or from the host's buffer, with the match keys in force when they were written; a buffer's is left open (log entry 32). -/
def rpRecords (s : State) (v : List Byte) (buffer : List JRecord) : List JRecord × List (List Byte) :=
  if rpSource v = 0 then
    let es := s.journal.entries.filter fun e => rpTakes v e.record
    (es.map (·.record), (es.map (·.key)).eraseDups)
  else
    let rs := buffer.filter (rpTakes v)
    (rs, (rs.map fun r => Config.bufferKey (jBytes r)).eraseDups)

/-- The slot of a region that has a hood staged. -/
def stagedSlot (s : State) (r hood : Nat) : Option Nat :=
  let g := regionOf s r
  (List.range 2).find? fun i => decide ((slotStateOf g i = .active ∨ slotStateOf g i = .standby) ∧ slotHood g i = hood)

def isStepDigest (r : JRecord) : Bool := decide (r.type = 8)

def replayCheck (s : State) (v : List Byte) (buffer : List JRecord) : Nat :=
  if 64 ≤ rpTarget v ∨ 1 < rpMode v ∨ 1 < rpSource v ∨ 64 ≤ rpRegion v then 0xA303
  else if (regionOf s (rpTarget v)).state ≠ .ready ∨ s.replay.state = 1 then 0xA401
  else if ((rpRecords s v buffer).1.filter isStepDigest).all fun d => (stagedSlot s (rpTarget v) (leAt d.payload 8 2)).isSome then 0
  else 0xA401

/-- 0x3600:10 set to the replay's state. -/
def replayState (s : State) (n : Nat) : State := dputNum { s with replay := { s.replay with state := n } } 0x3600 0x10 1 n

/-- A replay starts; one without a step to run has matched. -/
def replayApply (s : State) (v : List Byte) (buffer : List JRecord) : State :=
  let (rs, keys) := rpRecords s v buffer
  replayState { s with replay := { state := 1, request := v, records := rs, keys := keys, at_ := 0, lastEnd := now s, orders := [] } }
    (if rs.any isStepDigest then 1 else 2)

/-! ## One replayed step (R333 to R335) -/

/-- The state in which the replay's orders stand: VERIFY has its own tag space. -/
def rpEnter (s : State) : State := if rpMode s.replay.request = 0 then { s with orders := s.replay.orders } else s

/-- Back from the replay's own tag space, its orders kept there; the journal is as it was. -/
def rpLeave (s s0 : State) : State :=
  if rpMode s.replay.request = 0 then { s with replay := { s.replay with orders := s.orders }, orders := s0.orders, journal := s0.journal } else s

/-- A replayed SUBMIT: the order enters the target region and writes nothing by itself. -/
def rpSubmit (s : State) (rec_ : List Byte) (tag : BitVec 32) : State :=
  if recKind rec_ = 6 ∨ (findOrder s tag).isSome then s
  else
    let s := enterOrder s 0 rec_ (rpTarget s.replay.request) true
    modOrder s tag fun o => { o with fieldsLeft := [], replayed := true, landed := decide (recContext rec_ + recCont rec_ = 0) }

/-- A replayed CONTEXT: its tokens join those of the order, after a prefix's. -/
def rpContext (s : State) (tag : BitVec 32) (ts : List (BitVec 32)) : State :=
  match findOrder s tag with
  | none => s
  | some o => if o.context = [] then landContext s tag ts else
    let s := modOrder s tag fun o => { o with context := o.context ++ ts }
    match findOrder s tag with
    | some o => enterPages s o
    | none => s

/-- Whether an ADMIT record's digests match loaded images (R334). -/
def rpImages (s : State) (p : List Byte) : Bool :=
  ((List.range 128).any fun h => hoodLoaded s h && decide (manifestDigest s h = slice p 12 32)) &&
    (decide (slice p 44 32 = zeros 32) || s.adapters.any fun a => decide (a.2.state = 2 ∧ shake256 a.2.image = slice p 44 32))

/-- An order that leaves a replay without a record or an entry of its own. -/
def rpDrop (s : State) (tag : BitVec 32) : State := match findOrder s tag with
  | some o => if o.state = .retained then
      forgetPrefix s o
    else forgetOrder s o
  | none => s

/-- A replayed WRITE: a command of the source region goes to the target, where its check holds (R333; log entry 33). -/
def rpWrite (s : State) (p : List Byte) : State :=
  let v := s.replay.request
  let cmd := leAt p 16 1
  if leAt p 0 2 = 0x3100 + rpRegion v ∧ leAt p 2 1 = 2 ∧ commandCheck s (rpTarget v) cmd = 0 then commandApply s (rpTarget v) cmd else s

/-- One record before a step: none when an ADMIT digest names no loaded image. -/
def rpRecord (s : State) (r : JRecord) : Option State :=
  let p := r.payload
  let tag := BitVec.ofNat 32 (leAt p 0 4)
  let t := r.type.toNat
  if t = 1 then some (rpSubmit s p tag)
  else if t = 2 then
    some (rpContext s tag ((List.range ((p.length - 8) / 4)).map fun i => BitVec.ofNat 32 (leAt p (8 + 4 * i) 4)))
  else if t = 3 then
    if rpImages s p then some (modOrder s tag fun o => { o with state := .running, admitNo := r.seq }) else none
  else if t = 5 then some (if leAt p 12 1 = 0 then rpDrop s tag else s)
  else if t = 6 then some (rpWrite s p)
  else if t = 7 then some (rpDrop s tag)
  else some s

def rpFold : List JRecord → State → Option State
  | [], s => some s
  | r :: rs, s => match rpRecord s r with
    | some s => rpFold rs s
    | none => none

/-- The members of a replayed step: the admitted orders of its hood, in admission order. -/
def rpMembers (s : State) (r hood : Nat) : List Order :=
  ((regionOrders s r).filter fun o => decide (o.state = .running ∧ recHood o.record = hood)).foldr admitInsert []

/-- A replayed step: its members' work, their new states, and the output digest under the recorded region and step. -/
def rpStep (s : State) (d : JRecord) (outs : List MemberOut) : State × List Byte :=
  let v := s.replay.request
  let r := rpTarget v
  let step := leAt d.payload 0 8
  let ms := rpMembers s r (leAt d.payload 8 2)
  let alloc := allot (leAt d.payload 16 4) false (leAt d.payload 12 4 - ms.length) ms
  let judged := (ms.zip alloc).map fun p =>
    let out := outOf outs p.1.tag
    let e := memberStep s p.1 p.2.2 out
    (p.1, poisonHit p.1 p.2.2 out || openPoisoned s p.1 e.order.processed out, e)
  let dig := shake256 (leBytes 1 (rpRegion v) ++ leBytes 8 step ++ judged.flatMap fun j =>
    if j.2.1 then digestPart j.1.tag [] 0xFE else digestPart j.1.tag j.2.2.bytes (j.2.2.final.getD 0xFF))
  let quiet := decide (rpMode v = 0 ∨ step ≤ rpDelivered v)
  let s := judged.foldl (fun s j =>
    if j.2.1 then s
    else
      let s := modOrder s j.1.tag fun o => { o with shadowOnly := quiet }
      deliverMember s { j.1 with shadowOnly := quiet } { j.2.2 with order := { j.2.2.order with shadowOnly := quiet } } step (outOf outs j.1.tag)) s
  let s := if rpMode v = 1 then modRegion s r fun g => { g with stepNo := step, lastSlot := (stagedSlot s r (leAt d.payload 8 2)).getD 0 } else s
  (s, dig)

/-- The end of a replay: VERIFY's orders are gone, and those of RESUME are open orders of the device. -/
def rpEnd (s : State) (n : Nat) : State :=
  let v := s.replay.request
  let r := rpTarget v
  let s := if rpMode v = 0 then
      modRegion { s with replay := { s.replay with orders := [] } } r fun g =>
        { g with kvCommitted := ((regionOrders s r).map (·.committed)).foldl (· + ·) 0, orphans := [] }
    else { s with orders := s.orders.map fun o => if o.replayed then { o with shadowOnly := false } else o }
  replayState s n

/-- REPLAY_STEP (R333, R334): the next recorded step, at the first multiple of 2,048 DTU at least 6,400 DTU after the previous step's end. -/
def execReplayStep (outs : List MemberOut) (s : State) : Answer :=
  let p := s.replay
  let rest := p.records.drop p.at_
  let pre := rest.takeWhile fun r => !isStepDigest r
  match rest.drop pre.length with
  | [] => answer s
  | d :: later =>
    guarded (decide (p.state = 1 ∧ alignUp (p.lastEnd + 6400) 2048 ≤ now s)) s
      (if profileExtended s && p.keys.any (fun k => decide (k ≠ dget s 0x3600 0x03)) then rpEnd s 4
       else match rpFold pre (rpEnter s) with
         | none => rpEnd s 4
         | some s1 =>
           let (s2, dig) := rpStep s1 d outs
           let s3 := rpLeave s2 s
           let s3 := { s3 with replay := { s3.replay with at_ := p.at_ + pre.length + 1, lastEnd := now s } }
           if dig ≠ slice d.payload 20 32 then
             rpEnd (dput s3 0x3600 0x11 (leBytes 8 (leAt d.payload 0 8) ++ slice d.payload 20 32 ++ dig ++ leBytes 8 d.seq)) 3
           else if later.any isStepDigest then s3 else rpEnd s3 2)

end Sys2Proof.Machine
end

