-- ==== Sys2Proof/Machine/Clock.lean ====
section
/-! DEFINITION. Device time: references, discipline, time packets and operating points (R337 to R363, R381, R453). -/
namespace Sys2Proof.Machine
open Sys2Proof

/-! ## References and discipline (R340 to R345) -/

def timeSource (s : State) : Nat := dnum s 0x2200 0x04
def refSelect (s : State) : Nat := dnum s 0x2200 0x05

/-- Whether peers' time-triggered events are refused: UNTRUSTED, or FREE with source NONE (R362). -/
def timeRefused (s : State) : Bool := decide (s.time.st = .untrusted ∨ (s.time.st = .free ∧ timeSource s = 2))

/-- 0x2200:06. -/
def refStatus (s : State) : Nat :=
  let t := s.time
  boolNat t.refA + 2 * boolNat t.refB + 4 * boolNat t.ppsPresent + 8 * boolNat t.useB + 16 * boolNat (if t.useB then t.refB else t.refA)

/-- A record of kinds 0x0401 to 0x0405: an offset or e, and the reference status. -/
def timeRecord (s : State) (kind unit : Nat) (e : Int) : State :=
  record s kind 0xFF 0xFFFF unit (leIntBytes 4 e ++ leBytes 4 (refStatus s))

/-- A rate towards a measured offset: the steering law is open, so its size within 50 ppm is a free value (R345, log entry 34). -/
def steer (s : State) (off : Int) : State :=
  let (w, s) := freeWord s
  let m : Nat := w.toNat % 50001
  let rate : Int := if off = 0 then 0 else if 0 < off then m else -m
  { s with time := { s.time with rate := rate } }

def setTimeState (s : State) (st : TimeState) : State := { s with time := { s.time with st := st } }

/-- The only load: device time takes the discipline's time, and never moves back (R338, R344). -/
def loadTime (s : State) (off : Int) : State :=
  { s with time := { s.time with now := ((s.time.now : Int) + max 0 off).toNat, loaded := true } }

/-- An offset of the discipline (R343 to R345). -/
def disciplined (s : State) (off : Int) : State :=
  let s := dputInt s 0x2200 0x07 8 off
  let s : State := { s with time := { s.time with lastDiscipline := s.time.now } }
  match s.time.st with
  | .free =>
    let s := if s.time.loaded then s else loadTime s off
    { s with time := { s.time with st := .acquiring, good := 0, lastDiscipline := s.time.now } }
  | .acquiring =>
    let s := steer s off
    let good := if off.natAbs ≤ 1600 then s.time.good + 1 else 0
    if 16 ≤ good then { s with time := { s.time with good := good, st := .locked, untrusted := false } }
    else { s with time := { s.time with good := good } }
  | .locked =>
    let s := steer s off
    if 160000 < off.natAbs then timeRecord s 0x0402 0 off else s
  | _ =>
    if s.time.refA || s.time.refB then
      steer { s with time := { s.time with st := .acquiring, good := 0, holdStart := none } } off
    else s

/-- Whether the twin's TIME offsets are the discipline: until neither twin link is UP (R510). -/
def twinTime (s : State) : Bool := s.time.twinDiscipline && [16, 17].any fun i => decide ((linkOf s i).st = 2 ∨ (linkOf s i).st = 3)

/-- Whether the time unit takes its own source: it is enabled, with that source, and no twin disciplines it (R342, R510). -/
def ownSource (s : State) (src : Nat) : Bool := s.time.enabled && decide (timeSource s = src) && !twinTime s

/-- PTP_SYNC (R343, R453): a valid Sync counts and, on the port in use, disciplines; an unusable one is a timestamp fault. -/
def execPtpSync (port : Fin 2) (offset : Int) (valid : Bool) (interval : Int) (s : State) : Answer :=
  guarded (s.time.enabled && decide (timeSource s = 0) && (dnum s 0x1140 0x03).testBit port.val) s
    (if valid then
       let s := dputInt (dcount s 0x1140 0x0D 8 1) 0x1140 0x0C 4 interval
       if ownSource s 0 && decide (dnum s 0x1140 0x06 = port.val) then disciplined s offset
       else if ownSource s 0 then { s with time := { s.time with lastDiscipline := s.time.now } } else s
     else dcount s 0x1140 0x0E 4 1)

/-- PPS_EDGE (R342): the edge marks the second the host wrote, each later edge the next; `offsetDtu` is the edge's distance past the latest tick. -/
def execPpsEdge (offsetDtu : Int) (s : State) : Answer :=
  let s1 : State := { s with time := { s.time with ppsPresent := true } }
  match s.time.ppsSecond with
  | none => answer s1
  | some sec =>
    let s2 : State := { s1 with time := { s1.time with ppsSecond := some (sec + 1) } }
    let off : Int := ((sec : Int) - dnum s 0x2200 0x03) * 16000000000 - ((now s : Int) + offsetDtu)
    answer (if ownSource s 1 then disciplined s2 off else s2)

/-- The effect of a write of 0x2200:15. -/
def ppsSecondsApply (s : State) (v : List Byte) : State := { s with time := { s.time with ppsSecond := some (leNat v) } }

/-- The PLLs move to the other reference (R341). -/
def switchReference (s : State) : State :=
  let s : State := { s with time := { s.time with useB := !s.time.useB } }
  timeRecord (dcount s 0x2200 0x12 4 1) 0x0401 0 0

def refInUse (t : TimeRec) : Bool := if t.useB then t.refB else t.refA
def refOther (t : TimeRec) : Bool := if t.useB then t.refA else t.refB

/-- HOLDOVER begins: the rate is held (R344). -/
def holdover (s : State) : State := { s with time := { s.time with st := .holdover, holdStart := some s.time.now } }

/-- REFERENCE_LOSS (R340, R341, R344): the 1 s without loss begins anew with every loss. -/
def execReferenceLoss (b : Bool) (s : State) : Answer :=
  let present := if b then s.time.refB else s.time.refA
  let s : State := if b then { s with time := { s.time with refB := false, refBGoodSince := some s.time.now } }
    else { s with time := { s.time with refA := false, refAGoodSince := some s.time.now } }
  guarded present s
    (let s := if refSelect s = 0 ∧ !refInUse s.time ∧ refOther s.time then switchReference s else s
     if !s.time.refA && !s.time.refB && decide (s.time.st = .locked) then holdover s else s)

/-- The effect of a write of 0x2200:05: with 1 or 2 only A or only B is used (R341). -/
def selectReference (s : State) (v : Nat) : State := if v = 0 then s else { s with time := { s.time with useB := decide (v = 2) } }

/-- REFERENCE_PRESENT (R340): 1 s without loss. With the discipline live too, HOLDOVER and UNTRUSTED end (R344). -/
def execReferencePresent (b : Bool) (s : State) : Answer :=
  let since := if b then s.time.refBGoodSince else s.time.refAGoodSince
  match since with
  | none => answer s
  | some t =>
    guarded (decide (t + 16000000000 ≤ now s)) s
      (let s : State := if b then { s with time := { s.time with refB := true, refBGoodSince := none } }
         else { s with time := { s.time with refA := true, refAGoodSince := none } }
       let s := if refSelect s = 0 ∧ !refInUse s.time then switchReference s else s
       if decide (s.time.st = .holdover ∨ s.time.st = .untrusted) && decide (now s < s.time.lastDiscipline + 48000000000) then
         { s with time := { s.time with st := .acquiring, good := 0, holdStart := none } }
       else s)

/-- DISCIPLINE_LOSS (R344): 3 s without a valid Sync, or three missing pulses, or no offset of the twin that long. -/
def execDisciplineLoss (s : State) : Answer :=
  guarded (decide (s.time.lastDiscipline + 48000000000 ≤ now s) && (decide (timeSource s ≠ 2) || s.time.twinDiscipline)) s
    (let s : State := { s with time := { s.time with ppsPresent := s.time.ppsPresent && decide (timeSource s ≠ 1), twinDiscipline := false } }
     if s.time.st = .locked then holdover s else s)

/-- 0x2200:09. -/
def holdoverElapsed (s : State) : Nat := match s.time.holdStart with
  | some t => if s.time.st = .holdover then now s - t else 0
  | none => 0

/-- HOLDOVER_EXPIRY (R344): :09 reaches :0A; TIME_UNTRUSTED is raised, with its record. -/
def execHoldoverExpiry (s : State) : Answer :=
  guarded (decide (s.time.st = .holdover ∧ dnum s 0x2200 0x0A ≤ holdoverElapsed s)) s
    (timeRecord { s with time := { s.time with st := .untrusted, untrusted := true } } 0x0404 0 0)

/-- ANNOUNCE (R342, R453): the best master clock algorithm's outcome stands with the message. -/
def execAnnounce (port : Fin 2) (m : AnnounceMsg) (best : Bool) (s : State) : Answer :=
  guarded (s.time.enabled && decide (timeSource s = 0) && (dnum s 0x1140 0x03).testBit port.val && best) s
    (let s := dputNum s 0x1140 0x06 1 port
     let s := dput s 0x1140 0x07 (slice m.parent 0 10)
     let s := dput s 0x1140 0x08 (slice m.grandmaster 0 8)
     let s := dput s 0x1140 0x09 (slice m.quality 0 4)
     dputInt (dputNum s 0x1140 0x0A 2 m.steps) 0x1140 0x0F 4 m.utcOffset)

/-- ANNOUNCE_RECEIPT_TIMEOUT (R342): the other port takes over when it is enabled. -/
def execAnnounceReceiptTimeout (port : Fin 2) (s : State) : Answer :=
  guarded (s.time.enabled && decide (dnum s 0x1140 0x06 = port.val)) s
    (dputNum s 0x1140 0x06 1 (if (dnum s 0x1140 0x03).testBit (1 - port.val) then 1 - port.val else 0xFF))

/-- DELAY_RESP (R342): the mean path delay. -/
def execDelayResp (pathDelay : Int) (s : State) : Answer :=
  guarded (s.time.enabled && decide (timeSource s = 0 ∧ dnum s 0x1140 0x06 ≠ 0xFF)) s (dputInt s 0x1140 0x0B 8 pathDelay)

/-! ## Time packets and local counters (R346 to R348) -/

/-- TIME_PACKET_SEND (R346): the next multiple of 16,384 DTU has come. -/
def execTimePacketSend (s : State) : Answer :=
  let t := s.time.lastPacket + 16384
  guarded (decide (t ≤ now s) && !s.boot.inReset) s
    (emit { s with time := { s.time with lastPacket := now s / 16384 * 16384 } } (.timePacket (now s / 16384 * 16384)))

/-- The key of a unit that is not a tile. -/
def unitKey : TimeUnitId → Nat
  | .tile x => x
  | .clusterHub c => 10000 + c
  | .fieldHub n => 11000 + n
  | .other k => 12000 + k

/-- The unit's kind and physical number in 0x2200:11. -/
def unitName : TimeUnitId → Nat × Nat
  | .tile x => (x, 0)
  | .clusterHub c => (c, 1)
  | .fieldHub n => (n, 2)
  | .other k => (k, 3)

def unitAnswers (s : State) : TimeUnitId → Bool
  | .tile x => clusterOn s (siteCluster x)
  | .clusterHub c => clusterOn s c
  | _ => true

def unitClock (s : State) (u : TimeUnitId) : UnitClock := mget UnitClock.reset s.units (unitKey u)

def setUnit (s : State) (u : TimeUnitId) (c : UnitClock) : State := { s with units := mset UnitClock.reset s.units (unitKey u) c }

/-- The unit that a time packet reaches a unit from (R346): a cluster hub for a tile, a field hub for a cluster hub and the other units, and for a field hub the one before it from F0, along row 0 and then down; none for the time unit itself. The others are HBM controllers 0 to 23, then link controllers, and the Crown as 44 (log entry 35). -/
def packetParent : TimeUnitId → Option Nat
  | .tile x => some (10000 + siteCluster x)
  | .clusterHub c => some (11000 + clusterField c)
  | .fieldHub n => if n.val = 0 then none else if n.val < 3 then some (11000 + (n.val - 1)) else some (11000 + (n.val - 3))
  | .other k => some (11000 + if k < 24 then stackField k else 0)

/-- Whether a time packet of a multiple has come this way with no more correction than it has now: each hub adds to it, none takes away (R346). -/
def packetCame (s : State) (u : TimeUnitId) (carried correction : Nat) : Bool :=
  decide (carried % 16384 = 0 ∧ carried ≤ s.time.lastPacket) && match packetParent u with
    | none => true
    | some k => match (mget UnitClock.reset s.units k).packet with
      | some (t, c) => decide (t = carried ∧ c ≤ correction)
      | none => false

/-- The delay of the last link, which bring-up has measured once the time unit is enabled (R346). -/
def linkDelayOf (s : State) (u : TimeUnitId) : Nat := if s.time.enabled then Config.linkDelay (unitKey u) else 0

/-- A local sync fault: counted, captured and recorded (R348). -/
def localFault (s : State) (u : TimeUnitId) (e : Int) : State :=
  let (n, k) := unitName u
  let s := dput (dcount s 0x2200 0x10 4 1) 0x2200 0x11 (leBytes 8 (now s) ++ leBytes 2 n ++ leBytes 2 k ++ leIntBytes 4 e)
  timeRecord s 0x0403 n e

/-- A unit's counter after an error e found at a reading of it: removed over the next 2,048 ticks, loaded away above 64, or held out below −64 (R347, R348). -/
def corrected (reads ticks : Nat) (e : Int) (packet : Nat × Nat) : UnitClock :=
  if 64 < e then { value := (reads + e).toNat, at_ := ticks, left := 0, held := false, missed := 0, packet := some packet }
  else if e < -64 then { value := reads, at_ := ticks, left := 0, held := true, missed := 0, packet := some packet }
  else { value := reads, at_ := ticks, left := e, held := false, missed := 0, packet := some packet }

/-- TIME_PACKET_RECEIVE (R346 to R348): the packet's correction holds the residence that the hubs on its way have added (log entry 35). -/
def execTimePacketReceive (unit : TimeUnitId) (carried : Nat) (correction : Nat) (s : State) : Answer :=
  let reads := unitTime s (unitKey unit)
  let e : Int := (carried + correction + linkDelayOf s unit : Int) - reads
  guarded (unitAnswers s unit && packetCame s unit carried correction) s
    (let s := dputInt s 0x2200 0x13 4 (max (dint s 0x2200 0x13) e.natAbs)
     let s := setUnit s unit (corrected reads s.time.ticks e (carried, correction))
     if 64 < e.natAbs then localFault s unit e else s)

/-- TIME_PACKET_MISSED (R348): at the fourth in a row the unit logs the record; it has measured no e, so that is a free value. Its counter goes on with the base clock. -/
def execTimePacketMissed (unit : TimeUnitId) (s : State) : Answer :=
  let c := unitClock s unit
  guarded (unitAnswers s unit) s
    (let s := setUnit s unit { c with missed := c.missed + 1 }
     if c.missed + 1 = 4 then
       let (w, s) := freeWord s
       timeRecord s 0x0403 (unitName unit).1 (BitVec.ofNat 32 w.toNat).toInt
     else s)

/-- Held counters that device time has reached count on (R348). -/
def settleHeld (s : State) : State :=
  let go (c : UnitClock) : UnitClock := if c.held ∧ c.value ≤ now s then { c with at_ := s.time.ticks, held := false } else c
  if s.units.any fun u => u.2.held then { s with units := s.units.map fun u => (u.1, go u.2) } else s

/-- Whether every powered tile's local counter has reached an instant (R350). -/
def tilesReach (s : State) (t : Nat) : Bool :=
  decide (t ≤ now s) && ((List.range 192).filter (clusterOn s)).all fun c => (List.range 16).all fun k => decide (t ≤ localTime s (16 * c + k))

/-! ## Operating points (R358 to R361, R389, R392) -/

/-- The code a cluster is to run at: the point in force, its derate cap and its fast caps (R392). -/
def targetCode (s : State) (c applied : Nat) : Nat :=
  let r := clusterRec s c
  max (max applied (if r.derated then 2 else 0)) (max r.fastThermal r.fastZone)

/-- A cluster's clock changes: the cycles run so far are kept. -/
def setCode (s : State) (c code : Nat) : State :=
  let r := clusterRec s c
  if r.code = code then s
  else setCluster s c { r with code := code, cycleTicks := r.cycleTicks + cyclesIn (clusterMHz s c) (now s - r.cycleBase), cycleBase := now s }

/-- A slower code is taken at once; a faster one waits for its voltage (R360). -/
def slowTo (s : State) (c : Nat) : State :=
  let t := targetCode s c s.power.appliedCode
  if (clusterRec s c).code < t then setCode s c t else s

/-- The point in force when the changes due by `t` have happened: the higher of the host's and the cap's (R389). -/
def pointAt (s : State) (t : Nat) : Nat :=
  let p := s.power
  let host := match p.nextPoint with
    | some (c, at_) => if at_ ≤ t then c else p.hostCode
    | none => p.hostCode
  let cap := match p.nextCap with
    | some (c, at_) => if at_ ≤ t then c else p.capCode
    | none => p.capCode
  max host cap

/-- The instants of the scheduled changes: the host's point, the cap code, and fast caps that rise. -/
def changeInstants (s : State) : List Nat :=
  s.power.nextPoint.toList.map (·.2) ++ s.power.nextCap.toList.map (·.2) ++ s.clusters.flatMap fun c => c.2.rises.map (·.2)

/-- Fast caps of a cluster after the rises due by `t`. -/
def takeRises (r : ClusterRec) (t : Nat) : ClusterRec :=
  let due := r.rises.filter fun x => decide (x.2 ≤ t)
  let r := due.foldl (fun (r : ClusterRec) x => if x.1 then { r with fastZone := r.fastZone - 1 } else { r with fastThermal := r.fastThermal - 1 }) r
  { r with rises := r.rises.filter fun x => decide (t < x.2) }

/-- The code of a cluster once the changes due by `t` have happened. -/
def codeAt (s : State) (c t : Nat) : Nat :=
  let r := takeRises (clusterRec s c) t
  max (max (pointAt s t) (if r.derated then 2 else 0)) (max r.fastThermal r.fastZone)

/-- The check of a write of 0x2200:0B (R358, R359). -/
def pointCheck (s : State) (v : List Byte) : Nat :=
  if 6 < leAt v 0 1 then 0xA303
  else match s.power.nextPoint with
    | some (_, t) => if t ≤ now s + 1600000 then 0xA401 else 0
    | none => 0

/-- A point request: T is aligned, and the pending change is replaced (R359). -/
def pointApply (s : State) (v : List Byte) : State :=
  let t := alignUp (max (leAt v 8 8) (now s + 1600000)) 16384
  { s with power := { s.power with nextPoint := some (leAt v 0 1, t) } }

/-- VOLTAGE_RAISE_START (R360): from T − 1,600,000 the setpoints of clusters that will run faster rise. -/
def execVoltageRaiseStart (s : State) : Answer :=
  let h := now s + 1600000
  guarded ((changeInstants s).any fun t => decide (t ≤ h)) s
    ((List.range 192).foldl (fun s c =>
      let r := clusterRec s c
      if r.power = .on ∧ codeAt s c h < r.code then setCluster s c { r with raised := some (codeAt s c h) } else s) s)

/-- The scheduled codes whose instant has come take effect; a cap change is counted when it is scheduled. -/
def takePoints (s : State) : State :=
  let p := s.power
  let (host, np) := match p.nextPoint with
    | some (c, t) => if t ≤ now s then (c, none) else (p.hostCode, some (c, t))
    | none => (p.hostCode, none)
  let (cap, nc) := match p.nextCap with
    | some (c, t) => if t ≤ now s then (c, none) else (p.capCode, some (c, t))
    | none => (p.capCode, none)
  { s with power := { p with hostCode := host, nextPoint := np, capCode := cap, nextCap := nc, appliedCode := max host cap } }

/-- A cluster at the change: a slower code at once, a faster one when its raised setpoint is confirmed; else it lags (R360). -/
def clusterChange (s : State) (c : Nat) (lags : Bool) : State :=
  let s := setCluster s c (takeRises (clusterRec s c) (now s))
  let t := targetCode s c s.power.appliedCode
  let r := clusterRec s c
  if r.code < t then modCluster (setCode s c t) c fun r => { r with raised := none, lagging := false }
  else if t < r.code then
    if lags || decide (r.power ≠ .on ∨ r.raised = none) then modCluster s c fun r => { r with lagging := decide (r.power = .on) }
    else modCluster (setCode s c t) c fun r => { r with raised := none, lagging := false }
  else s

/-- Quarter periods of stretch for a droop of `mv` millivolts (R381). -/
def droopQuarters (mv : Nat) : Nat := if mv < 30 then 0 else if mv < 45 then 1 else if mv < 60 then 2 else 4

/-- DROOP_DETECT (R79, R354, R381): the next edge is stretched; the cycle count is not affected. -/
def execDroopDetect (site : Site) (milliVolts : Nat) (s : State) : Answer :=
  let q := droopQuarters milliVolts
  guarded (clusterOn s (siteCluster site) && decide (q ≠ 0)) s
    (dcount (modTile s site fun t => { t with slip := t.slip + q, stretched := t.stretched + q }) (0x2010 + site.val / 128) 0x0E 8 1)

end Sys2Proof.Machine
end

