-- ==== Sys2Proof/Machine/Power.lean ====
section
/-! DEFINITION. Power delivery, droop's boosts, the power cap, and the group budget (R364 to R400). -/
namespace Sys2Proof.Machine
open Sys2Proof

/-! ## Numbers -/

/-- n / d rounded to FP32 (R433). -/
def f32Ratio (n : Int) (d : Nat) : Nat :=
  if d = 0 then 0
  else
    let m := n.natAbs * 2 ^ 64
    toFP32 (.fin (decide (n < 0)) (2 * (m / d) + boolNat (m % d ≠ 0)) (-65))

def dputF32 (s : State) (idx sub w : Nat) : State := dputNum s idx sub 4 w

/-- A power record of kinds 0x0501 to 0x0507: VR_PHASES, current, and resistance or trim (R548). -/
def powerRecord (s : State) (kind unit phases current last : Nat) : State :=
  record s kind 0xFF 0xFFFF unit (leBytes 4 phases ++ leBytes 4 current ++ leBytes 4 last)

def clusterZone (c : Nat) : Nat := c / 8
def zoneClusters (z : Nat) : List Nat := (List.range 8).map fun i => 8 * z + i

/-! ## Setpoint (R367, R368) -/

/-- V(f) of a code in mV. -/
def pointMilliVolts (code : Nat) : Nat := [840, 800, 760, 720, 680, 620, 580].getD code 580

/-- The point whose V(f) serves a code: under the grade clamp, the slowest point at or above the clock. -/
def voltageCode (code : Nat) : Nat := min 6 (max code (match Config.fusedGrade with
  | 0 => 0
  | 1 => 1
  | _ => 3))

/-- Whether a boost is in force: a load warning's, or a release notice's (R382, R383). -/
def boostOn (s : State) (c : Nat) : Bool := (clusterRec s c).warnBoost.isSome || (clusterRec s c).relActive.isSome

/-- V(f) in force: that of the raised setpoint while one waits for its clock (R360). -/
def clusterVolts (s : State) (c : Nat) : Nat :=
  let r := clusterRec s c
  pointMilliVolts (voltageCode (match r.raised with
    | some k => min k r.code
    | none => r.code))

/-- The setpoint in 0.5 mV: V(f), less the part offset, plus trim and boost, kept within 0.550 V to 0.900 V (R367). -/
def setpointHalf (s : State) (c : Nat) : Nat :=
  let base := 2 * clusterVolts s c + (clusterRec s c).trim - Config.fusedOffset c
  let boost := if boostOn s c then 2 * dnum s 0x2000 0x10 else 0
  max 1100 (min 1800 (base + boost))

/-! ## Phases, trips and fuses (R369 to R375, R607) -/

/-- A regulator that goes off for good: its cluster is dark, with a CLUSTER_DARK record. -/
def regulatorDark (s : State) (c cause : Nat) : State :=
  let s := regSetBit s (vrReg c 0x000) 0 false
  let s := darkCluster s c cause
  powerRecord s 0x0503 c (phasesWord s c).toNat 0 (clusterRec s c).trim

/-- The rating that follows the loss of a phase (R369, R371). -/
def ratePhases (s : State) (c : Nat) : State :=
  let n := workingPhases s c
  let w := (phasesWord s c).toNat
  if n = 7 then powerRecord s 0x0501 c w 0 (clusterRec s c).trim
  else if n = 6 then
    powerRecord (modCluster s c fun r => { r with derateAt := some (alignUp (now s + 1) 16384) }) 0x0502 c w 0 (clusterRec s c).trim
  else regulatorDark s c 5

/-- A phase disabled until reset, and its defect record (R370, R549). -/
def disablePhase (s : State) (c p : Nat) (cause : PhaseCause) : State :=
  let b := BitVec.ofNat 8 (2 ^ p)
  let s := modCluster s c fun r => match cause with
    | .overcurrent => { r with offOver := r.offOver ||| b }
    | .imbalance => { r with offImbalance := r.offImbalance ||| b }
    | .test => { r with offTest := r.offTest ||| b }
  let source := match cause with
    | .test => 0
    | _ => 4
  ratePhases (fieldDefect s 6 source c p) c

def phaseDisabled (s : State) (c p : Nat) : Bool :=
  let r := clusterRec s c
  (r.offOver ||| r.offImbalance ||| r.offTest).toNat.testBit p

/-- Whether a regulator runs: its cluster is ON, or ramps up. -/
def regulatorRuns (s : State) (c : Nat) : Bool := decide ((clusterRec s c).power = .on ∨ (clusterRec s c).power = .softStart)

/-- PHASE_DISABLE (R370). -/
def execPhaseDisable (cluster : Cluster) (phase : Fin 8) (cause : PhaseCause) (s : State) : Answer :=
  guarded (regulatorRuns s cluster && !phaseDisabled s cluster phase) s (disablePhase s cluster phase cause)

/-- DERATE_CAP_APPLY (R371): the clock cap of point code 2, until reset. -/
def execDerateCapApply (cluster : Cluster) (s : State) : Answer :=
  match (clusterRec s cluster).derateAt with
  | none => answer s
  | some t => guarded (decide (t ≤ now s)) s (slowTo (modCluster s cluster fun r => { r with derateAt := none, derated := true }) cluster)

/-- REGULATOR_TRIP (R372): every phase off, and the cluster dark. -/
def execRegulatorTrip (cluster : Cluster) (s : State) : Answer :=
  guarded (regulatorRuns s cluster) s (regulatorDark (modCluster s cluster fun r => { r with tripped := true }) cluster 5)

/-- The clusters of a zone that are not dark yet go dark. -/
def darkZone (s : State) (z cause : Nat) : State :=
  ((zoneClusters z).filter fun c => decide ((clusterRec s c).power ≠ .dark)).foldl (fun s c =>
    darkCluster (regSetBit s (vrReg c 0x000) 0 false) c cause) s

/-- ZONE_FUSE_OPEN (R373, R375): all eight clusters of the zone go dark, with one ZONE_FUSE record. -/
def execZoneFuseOpen (zone : Zone) (_cause : FuseCause) (s : State) : Answer :=
  let z := zone.val
  guarded (!(zoneRec s z).fuseOpen) s
    (let s := setZone s z { zoneRec s z with fuseOpen := true }
     let s := dputNum s (0x2010 + z) 0x01 1 2
     powerRecord (darkZone s z 4) 0x0504 z 0 (zoneRec s z).milliAmps (dnum s (0x2010 + z) 0x05))

/-- ZONE_INPUT_FAULT (R607): the zone's regulators turn off until the next bring-up; its clusters go dark with kill cause 5. -/
def execZoneInputFault (zone : Zone) (_cause : RailFault) (s : State) : Answer :=
  let z := zone.val
  guarded (s.pins.powerGood && !(zoneRec s z).inputFault) s
    (let s := setZone s z { zoneRec s z with inputFault := true }
     ((zoneClusters z).filter fun c => decide ((clusterRec s c).power ≠ .dark)).foldl (fun s c => regulatorDark s c 5) s)

/-- PATH_RESISTANCE_CHECK (R376): computed at 40 A and above; 10 s above the baseline by more than 15 % sets the flag. -/
def execPathResistanceCheck (zone : Zone) (stageMicroVolts : Int) (dieMicroVolts : Int) (milliAmps : Nat) (s : State) : Answer :=
  let z := zone.val
  let s := dputF32 s (0x2010 + z) 0x04 (f32Ratio dieMicroVolts 1000000)
  if milliAmps < 40000 then answer s
  else
    let diff := stageMicroVolts - dieMicroVolts
    let r := f32Ratio diff milliAmps
    let limit := mulFP32 (Config.fusedBaseline z).toNat (f32Ratio 115 100)
    let s := dputF32 s (0x2010 + z) 0x05 r
    let q := zoneRec s z
    if gtFP32 r limit then
      let t := q.suspectSince.getD (now s)
      let s := setZone s z { q with suspectSince := some t }
      if t + 160000000000 ≤ now s ∧ dnum s (0x2010 + z) 0x07 = 0 then
        answer (powerRecord (dputNum s (0x2010 + z) 0x07 1 1) 0x0505 z 0 milliAmps r)
      else answer s
    else answer (setZone s z { q with suspectSince := none })

/-! ## Power-up and power-down (R377 to R380) -/

/-- Whether a region holds a cluster. -/
def clusterHeld (s : State) (c : Nat) : Bool := (regionOfCluster s c).isSome

/-- Whether a zone may power clusters: a valid stage, no open fuse, no input fault, and not left without power at bring-up (R373, R561, R607). -/
def zonePowers (s : State) (z : Nat) : Bool :=
  let q := zoneRec s z
  q.stageValid && !q.fuseOpen && !q.inputFault && !s.boot.zoneUnpowered.toNat.testBit z && !s.pins.thermTrip

/-- The check of a write of 0x2010 + z:08 (R377, R561). -/
def powerCheck (s : State) (z : Nat) (v : List Byte) : Nat :=
  let old := dnum s (0x2010 + z) 0x08
  let new := leAt v 0 1
  let drops := (List.range 8).filter fun i => old.testBit i && !new.testBit i
  let rises := (List.range 8).filter fun i => new.testBit i && !old.testBit i
  if drops.any fun i => clusterHeld s (8 * z + i) then 0xA401
  else if !rises.isEmpty && s.boot.zoneUnpowered.toNat.testBit z then 0xA401
  else 0

/-- The requests of a zone: a cluster asked for waits for its attempts, one no longer asked for ramps down (R377, R380). -/
def powerApply (s : State) (z : Nat) (v : List Byte) : State :=
  let old := dnum s (0x2010 + z) 0x08
  let new := leAt v 0 1
  let s := dputNum s (0x2010 + z) 0x08 1 new
  (List.range 8).foldl (fun s i =>
    let c := 8 * z + i
    let r := clusterRec s c
    if new.testBit i && !old.testBit i then setCluster s c { r with since := now s }
    else if old.testBit i && !new.testBit i then
      match r.power with
      | .on => setPower s c .poweringDown
      | .softStart => setPower s c .poweringDown
      | .deferred => setPower s c .off
      | _ => s
    else s) s

/-- Whether a cluster waits for a power-up attempt. -/
def powerWaits (s : State) (c : Nat) : Bool :=
  decide ((clusterRec s c).power = .off ∨ (clusterRec s c).power = .deferred) && (dnum s (0x2010 + clusterZone c) 0x08).testBit (c % 8)

/-- The edge-adjacent physical clusters (R378). -/
def besideClusters (c : Nat) : List Nat := (nearClusters c).drop 1

/-- Whether a neighbour's 10-µs output current exceeds 90 % of its rating: no rule gives that current, so it is a free value (R378, log entry 36). -/
def neighboursLoaded (s : State) (c : Nat) : Bool × State :=
  ((besideClusters c).filter (clusterOn s)).foldl (fun a b =>
    let (w, s) := freeWord a.2
    (a.1 || decide ((if workingPhases s b = 6 then 43200 else 50400) < w.toNat % 65536), s)) (false, s)

/-- POWER_UP_ATTEMPT (R378, R379): at a multiple of 10 µs, the lowest waiting cluster of a zone with none in SOFT_START starts or is DEFERRED. -/
def execPowerUpAttempt (cluster : Cluster) (s : State) : Answer :=
  let c := cluster.val
  let z := clusterZone c
  let r := clusterRec s c
  guarded (powerWaits s c && zonePowers s z && decide ((r.since / 160000 + 1) * 160000 ≤ now s) &&
      !(zoneClusters z).any (fun d => decide ((clusterRec s d).power = .softStart) || (decide (d < c) && powerWaits s d))) s
    (let (loaded, s) := neighboursLoaded s c
     if loaded || decide (85 * 1000 * dnum s (0x2010 + z) 0x02 < 100 * (zoneRec s z).milliAmps) then
       dcount (setPower s c .deferred) (0x2010 + z) 0x0F 4 1
     else dputNum (regSetBit (setPower s c .softStart) (vrReg c 0x000) 0 true) (0x2010 + z) 0x01 1 1)

/-- SOFT_START_DONE (R379): after 50 µs the cluster is ON, its banks OFF, and whole again. -/
def execSoftStartDone (cluster : Cluster) (s : State) : Answer :=
  let c := cluster.val
  let r := clusterRec s c
  guarded (decide (r.power = .softStart ∧ r.since + 800000 ≤ now s)) s
    (let s := clusterBanksOff (setPower s c .on) c
     let s := modCluster s c fun r => { r with cycleBase := now s, code := targetCode s c s.power.appliedCode, raised := none }
     if 7 ≤ s.boot.lastStep then settleProfile (settleHoles s) else s)

/-- A cluster without power: tiles halted, their memories lost (R380). -/
def clusterStopped (s : State) (c : Nat) : State :=
  let cycles := (clusterRec s c).cycleTicks + cyclesIn (clusterMHz s c) (now s - (clusterRec s c).cycleBase)
  let s := (clusterSites c).foldl (fun s x =>
    { setTile s x { Tile.reset with idleSince := some (tileCycles s x), stretched := (tileOf s x).stretched } with imem := memZero s.imem (x * 65536) 65536 }) (clusterBanksOff s c)
  modCluster s c fun r => { r with cycleTicks := cycles, warnBoost := none, relBoosts := [], relActive := none }

/-- POWER_DOWN_DONE (R380): after 10 µs the cluster is OFF and not whole: 0x3011 lists it and the logical cluster that it leaves unbacked (R310, R572). -/
def execPowerDownDone (cluster : Cluster) (s : State) : Answer :=
  let c := cluster.val
  let r := clusterRec s c
  let z := clusterZone c
  guarded (decide (r.power = .poweringDown ∧ r.since + 160000 ≤ now s)) s
    (let s := setPower (regSetBit (clusterStopped s c) (vrReg c 0x000) 0 false) c .off
     let s := if (zoneClusters z).any (fun d => decide ((clusterRec s d).power ≠ .off ∧ (clusterRec s d).power ≠ .dark)) then s
       else dputNum s (0x2010 + z) 0x01 1 0
     if 7 ≤ s.boot.lastStep then settleProfile (settleHoles s) else s)

/-! ## Boosts (R382, R383) -/

/-- LOAD_BOOST_END (R382). -/
def execLoadBoostEnd (cluster : Cluster) (s : State) : Answer :=
  match (clusterRec s cluster).warnBoost with
  | none => answer s
  | some (_, e) => guarded (decide (e ≤ now s)) s (modCluster s cluster fun r => { r with warnBoost := none })

/-- RELEASE_BOOST_START (R383): the armed boost whose start has come. -/
def execReleaseBoostStart (cluster : Cluster) (s : State) : Answer :=
  match (clusterRec s cluster).relBoosts.find? fun b => decide (b.1 ≤ now s) with
  | none => answer s
  | some b => answer (regAdd (modCluster s cluster fun r =>
      { r with relBoosts := r.relBoosts.erase b, relActive := some (max b.2 (r.relActive.getD 0)) }) (vrReg cluster 0x028) 1)

/-- RELEASE_BOOST_END (R383). -/
def execReleaseBoostEnd (cluster : Cluster) (s : State) : Answer :=
  match (clusterRec s cluster).relActive with
  | none => answer s
  | some e => guarded (decide (e ≤ now s)) s (modCluster s cluster fun r => { r with relActive := none })

/-! ## Estimate and averages (R384 to R386) -/

/-- The calibrated estimate in milliwatts: each zone's estimate times its gain, or its measured power once replaced, the fixed term and the device offset. -/
def calibrated (s : State) (zones : List Nat) (fixed : Nat) : Nat :=
  let part := (List.range 24).map fun z =>
    let q := zoneRec s z
    if q.replaced then q.measured else zones.getD z 0 * q.gainQ / 1048576
  (((part.foldl (· + ·) fixed : Nat) : Int) + s.power.offset).toNat

/-- The mean of the last n of the buckets, those before the first counting at its value (R386). -/
def bucketMean (n : Nat) (bs : List Nat) : Nat :=
  let last := bs.drop (bs.length - n)
  (last.foldl (· + ·) 0 + (n - last.length) * last.headD 0) / n

/-- POWER_ESTIMATE (R384, R386): 100 estimates of 10 µs make a bucket. -/
def execPowerEstimate (zonesMilliWatts : List Nat) (fixedMilliWatts : Nat) (s : State) : Answer :=
  let e := calibrated s zonesMilliWatts fixedMilliWatts
  let p := s.power
  let p : PowerRec := { p with bucketSum := p.bucketSum + e, bucketCount := p.bucketCount + 1, epochSum := p.epochSum + e, epochCount := p.epochCount + 1 }
  let p : PowerRec := if p.bucketCount < 100 then p
    else
      let bs := p.buckets ++ [p.bucketSum / 100]
      let bs := bs.drop (bs.length - 10000)
      { p with buckets := bs, bucketSum := 0, bucketCount := 0, a1 := bucketMean 1000 bs, a10 := bucketMean 10000 bs }
  let s := dputF32 { s with power := p } 0x2000 0x05 (f32Ratio e 1000)
  answer (dputF32 (dputF32 s 0x2000 0x06 (f32Ratio p.a1 1000)) 0x2000 0x07 (f32Ratio p.a10 1000))

/-- ZONE_GAIN_UPDATE (R385): the gain moves an eighth of the way to m / e; out of 0.5 to 2.0 the measured power replaces the estimate. Without an estimate the quotient is open: a free value. -/
def execZoneGainUpdate (zone : Zone) (measuredMilliWatts : Nat) (estimateMilliWatts : Nat) (s : State) : Answer :=
  let z := zone.val
  let q := { zoneRec s z with measured := measuredMilliWatts }
  if q.replaced then answer (setZone s z q)
  else
    let (w, s) := if estimateMilliWatts = 0 then freeWord s else (0, s)
    let ratio := if estimateMilliWatts = 0 then w.toNat % 2 ^ 32 else measuredMilliWatts * 1048576 / estimateMilliWatts
    let g := ((q.gainQ : Int) + ((ratio : Int) - q.gainQ) / 8).toNat
    if g < 524288 ∨ 2097152 < g then answer (powerRecord (setZone s z { q with replaced := true }) 0x0506 z 0 0 0)
    else answer (dputF32 (setZone s z { q with gainQ := g }) (0x2010 + z) 0x11 (f32Ratio g 1048576))

/-- DEVICE_OFFSET_UPDATE (R385). -/
def execDeviceOffsetUpdate (measuredMilliWatts : Nat) (estimateMilliWatts : Nat) (s : State) : Answer :=
  let o := s.power.offset + ((measuredMilliWatts : Int) - estimateMilliWatts) / 8
  answer (dputF32 { s with power := { s.power with offset := o } } 0x2000 0x08 (f32Ratio measuredMilliWatts 1000))

/-! ## Fast caps (R390 to R393) -/

/-- Whether a cluster's fast caps slow it below the point in force and its derate cap. -/
def fastIn (s : State) (fast : Nat) (c : Nat) : Bool := decide (max s.power.appliedCode (if (clusterRec s c).derated then 2 else 0) < fast)

def anyFast (s : State) (f : ClusterRec → Nat) : Bool := s.clusters.any fun c => fastIn s (f c.2) c.1

/-- Whether the group budget is RUNNING: enabled, with device time trusted (R397). -/
def groupRuns (s : State) : Bool := s.budget.running && !timeRefused s

/-- CAP_STRAGGLER follows the fast caps; each setting is counted (R393). -/
def settleStraggler (s : State) : State :=
  let b := groupRuns s && (anyFast s (·.fastThermal) || anyFast s (·.fastZone))
  let s := if b && !s.power.straggler then dcount s 0x2000 0x0F 4 1 else s
  { s with power := { s.power with straggler := b } }

/-- The aligned instant of a drop: the next multiple of 16,384, and 50 µs after the drop before. -/
def dropInstant (s : State) (last : Option Nat) : Nat := alignUp (max (now s + 1) ((last.map (· + 800000)).getD 0)) 16384

def thermalLimit (s : State) : Int := dint s 0x2000 0x04

/-- THERMAL_READING (R390): at the limit a drop is scheduled; below it no repetition follows. -/
def execThermalReading (cluster : Cluster) (celsius : Int) (s : State) : Answer :=
  let r := { clusterRec s cluster with celsius := celsius }
  let at_ := if thermalLimit s ≤ celsius then some (r.fastDropAt.getD (dropInstant s r.lastDrop))
    else r.fastDropAt.filter fun t => decide (t < now s + 16384)
  guarded (decide (r.power = .on)) s (setCluster s cluster { r with fastDropAt := at_ })

/-- ZONE_CURRENT_CHECK (R391): above its limit, every ON cluster of the zone has a drop scheduled. -/
def execZoneCurrentCheck (zone : Zone) (milliAmps : Nat) (s : State) : Answer :=
  let z := zone.val
  let above := decide (1000 * dnum s (0x2010 + z) 0x02 < milliAmps)
  let s := dputF32 (setZone s z { zoneRec s z with milliAmps := milliAmps }) (0x2010 + z) 0x03 (f32Ratio milliAmps 1000)
  answer (((zoneClusters z).filter (clusterOn s)).foldl (fun s c => modCluster s c fun r =>
    { r with zoneDropAt := if above then some (r.zoneDropAt.getD (dropInstant s r.lastZoneDrop)) else r.zoneDropAt.filter fun t => decide (t < now s + 16384) }) s)

def due (s : State) (t : Option Nat) : Bool := match t with
  | some t => decide (t ≤ now s)
  | none => false

/-- FAST_CAP_DROP (R390, R391): the fast cap drops one code below the clock in force. -/
def execFastCapDrop (cluster : Cluster) (s : State) : Answer :=
  let c := cluster.val
  let r := clusterRec s c
  let th := due s r.fastDropAt
  let zo := due s r.zoneDropAt
  guarded (clusterOn s c && (th || zo)) s
    (let k := min 6 (r.code + 1)
     let r := if th then { r with fastThermal := k, lastDrop := some (now s), fastDropAt := none } else r
     let r := if zo then { r with fastZone := k, lastZoneDrop := some (now s), zoneDropAt := none } else r
     settleStraggler (slowTo (setCluster s c { r with rises := [] }) c))

/-- FREQUENCY_CHANGE (R350, R360, R389): at the change instant every tile switches its ratio; the clusters named have not confirmed their setpoint. -/
def execFrequencyChange (lagging : List Cluster) (s : State) : Answer :=
  guarded ((changeInstants s).any (tilesReach s)) s
    (settleStraggler ((List.range 192).foldl (fun s c => clusterChange s c (lagging.any fun x => decide (x.val = c))) (takePoints s)))

/-- FREQ_LAG_CONFIRM (R360): a lagging cluster's setpoint is confirmed; it changes and the record is written. -/
def execFreqLagConfirm (cluster : Cluster) (s : State) : Answer :=
  guarded (clusterRec s cluster).lagging s
    (let s := setCode s cluster (targetCode s cluster s.power.appliedCode)
     let s := modCluster s cluster fun r => { r with lagging := false, raised := none }
     timeRecord (dcount s 0x2200 0x14 4 1) 0x0405 cluster 0)

/-! ## The cap (R387 to R389) -/

/-- The group's epoch period. -/
def groupPeriod (s : State) : Nat := max 1 (dnum s 0x2100 0x06)

def capPeriod (s : State) : Nat := max 1 (if groupRuns s then dnum s 0x2100 0x06 else dnum s 0x2000 0x03)

/-- C10 in milliwatts (R388). -/
def capTen (s : State) : Nat :=
  let own := dnum s 0x2000 0x01
  1000 * (if groupRuns s then min own (s.budget.shares.getD (dnum s 0x2100 0x04) 0) else own)

/-- The next cap code by ρ, the largest of three ratios (R388). -/
def nextCapCode (s : State) (cur : Nat) : Nat :=
  let p := s.power
  let pe := if p.epochCount = 0 then p.a1 else p.epochSum / p.epochCount
  let c1 := 1000 * dnum s 0x2000 0x02
  let rs : List (Nat × Nat) := [(p.a10, capTen s), (p.a1, c1), (pe, c1)]
  if rs.any fun r => decide (105 * r.2 < 100 * r.1) then min 6 (cur + 2)
  else if rs.any fun r => decide (r.2 < r.1) then min 6 (cur + 1)
  else if rs.all fun r => decide (100 * r.1 < 90 * r.2) then cur - 1
  else cur

/-- Fast caps that may rise at a cap epoch, with the timing of R360 (R390, R391). -/
def capRises (s : State) (c : Nat) : State :=
  let r := clusterRec s c
  let t := alignUp (now s + 1600000) 16384
  let q := zoneRec s (clusterZone c)
  let add (b : Bool) (ok : Bool) (l : List (Bool × Nat)) : List (Bool × Nat) := if ok && !(l.any fun x => x.1 = b) then l ++ [(b, t)] else l
  let l := add false (decide (r.fastThermal ≠ 0 ∧ r.celsius + 5 ≤ thermalLimit s)) r.rises
  let l := add true (decide (r.fastZone ≠ 0 ∧ 100 * q.milliAmps ≤ 90 * 1000 * dnum s (0x2010 + clusterZone c) 0x02)) l
  if l = r.rises then s else setCluster s c { r with rises := l }

/-- CAP_EPOCH (R350, R387, R388): by the Crown's local counter the next epoch has come; its code is for the epoch after it. A change due at this epoch has taken effect first. -/
def execCapEpoch (s : State) : Answer :=
  let p := capPeriod s
  let e := (s.power.capAt / p + 1) * p
  guarded (decide (e ≤ crownTime s) && !due s (s.power.nextCap.map (·.2))) s
    (let at_ := crownTime s / p * p
     let cur := s.power.capCode
     let new := nextCapCode s cur
     let s : State := { s with power := { s.power with capAt := at_, epochSum := 0, epochCount := 0 } }
     let s := if new = cur then s
       else dcount { s with power := { s.power with nextCap := some (new, at_ + p) } } 0x2000 0x0E 4 1
     (s.clusters.map (·.1)).foldl capRises s)

/-- MARGIN_TRIM (R368): the slowdown in steps of 2.5 mV, at most 30 mV, rising only; at once where no region holds the cluster. -/
def execMarginTrim (cluster : Cluster) (halfMilliVolts : Nat) (s : State) : Answer :=
  let c := cluster.val
  let r := clusterRec s c
  let new := min 60 (halfMilliVolts / 5 * 5)
  guarded (decide (r.power = .on)) s
    (let s : State := { s with maint := s.maint.filter fun m => decide (m.activity ≠ 3 ∨ m.scope ≠ c ∨ m.running = false) }
     if new ≤ max r.trim (r.trimPending.getD 0) then s
     else
       let s := setCluster s c { r with trimPending := some new }
       if clusterHeld s c then s else applyTrim s c)

/-! ## Group budget (R394 to R397, R400) -/

/-- The members listed in 0x2100:03: rank and fabric identifier. -/
def groupMembers (s : State) : List (Nat × Nat) :=
  ((List.range 64).map fun i => (i, leAt (dget s 0x2100 0x03) (2 * i) 2)).filter fun m => decide (m.2 ≠ 0xFFFF)

/-- The check of a write of 0x2100:01 (R394). -/
def groupCheck (s : State) (v : List Byte) : Nat :=
  let ms := groupMembers s
  if leAt v 0 1 = 0 then 0
  else if !(ms.any fun m => decide (m.2 = fabricId s)) || decide (ms.length < 2 ∨ dnum s 0x2100 0x05 < ms.length * dnum s 0x2100 0x07) then 0xA301
  else 0

/-- Shares set equal, the remainder one watt each to the lowest ranks. -/
def equalShares (s : State) : List Nat :=
  let ms := groupMembers s
  let n := ms.length
  let b := dnum s 0x2100 0x05
  (List.range 64).map fun i => match findPos (fun m => decide (m.1 = i)) ms with
    | some k => b / n + (if k < b % n then 1 else 0)
    | none => 0

/-- The group enabled or disabled (R394). -/
def groupApply (s : State) (v : List Byte) : State :=
  let on := decide (leAt v 0 1 = 1)
  let s := dputNum s 0x2100 0x01 1 (boolNat on)
  let s := if on && !s.budget.running then
      let rank := (((groupMembers s).find? fun m => decide (m.2 = fabricId s)).map (·.1)).getD 0xFF
      let s := dputNum s 0x2100 0x04 1 rank
      { s with budget := { GroupBudget.reset with running := true, shares := equalShares s, epoch := now s / groupPeriod s } }
    else { s with budget := { s.budget with running := on } }
  settleStraggler s

/-- The device's own report of an epoch (R395). -/
def ownReport (s : State) (epoch slack : Nat) : SlackReport :=
  let rank := dnum s 0x2100 0x04
  { groupId := BitVec.ofNat 32 (dnum s 0x2100 0x02), budget := dnum s 0x2100 0x05, period := groupPeriod s, epoch := epoch,
    rank := ⟨rank % 64, Nat.mod_lt _ (by decide)⟩, straggler := s.power.straggler, share := s.budget.shares.getD rank 0, gradeMax := gradeMax10, slack := slack }

/-- A SLACK payload from byte 8 (R504). -/
def slackBytes (r : SlackReport) : List Byte :=
  leBytes 4 r.groupId.toNat ++ leBytes 4 r.budget ++ leBytes 8 r.period ++ leBytes 8 r.epoch ++ leBytes 1 r.rank ++ leBytes 1 (boolNat r.straggler) ++
    zeros 2 ++ leBytes 4 r.share ++ leBytes 4 r.gradeMax ++ leBytes 2 r.slack

/-- GROUP_EPOCH (R395): at a multiple of the period the report goes to every other member. -/
def execGroupEpoch (ownSlack : Nat) (s : State) : Answer :=
  let p := groupPeriod s
  guarded (groupRuns s && decide (s.budget.epoch < now s / p)) s
    (let k := now s / p
     let rep := ownReport s k ownSlack
     let s := ((groupMembers s).filter fun m => decide (m.2 ≠ fabricId s)).foldl (fun s m => emit s (.fabricControl m.2 1 (slackBytes rep))) s
     let s := dputNum s 0x2100 0x0C 2 ownSlack
     { s with budget := { s.budget with epoch := k, computed := false, ownSlack := ownSlack, reports := (s.budget.reports.filter fun r => decide (r.epoch = k)) ++ [rep] } })

/-- SLACK (R395): a report whose identifier, budget or period differs is as if missing. -/
def execSlack (report : SlackReport) (s : State) : Answer :=
  guarded (groupRuns s && decide (report.groupId.toNat = dnum s 0x2100 0x02 ∧ report.budget = dnum s 0x2100 0x05 ∧ report.period = groupPeriod s ∧ s.budget.epoch ≤ report.epoch)) s
    { s with budget := { s.budget with reports := s.budget.reports.filter (fun r => decide (r.rank ≠ report.rank ∨ r.epoch ≠ report.epoch)) ++ [report] } }

/-- The gifts of R396: shares after, and the pool. -/
def shareGive (floor smin : Nat) : List SlackReport → List (SlackReport × Nat) × Nat
  | [] => ([], 0)
  | r :: rs =>
    let (l, pool) := shareGive floor smin rs
    let d := if !r.straggler && decide (smin + 51 ≤ r.slack) then min (r.share / 50) (r.share - floor) else 0
    ((r, r.share - d) :: l, pool + d)

/-- The pool handed out, the remainder one watt each in rank order. -/
def shareTake (smin each : Nat) : Nat → List (SlackReport × Nat) → List (SlackReport × Nat)
  | _, [] => []
  | extra, (r, x) :: l =>
    if !r.straggler && decide (r.slack ≤ smin + 20) then (r, x + each + (if extra = 0 then 0 else 1)) :: shareTake smin each (extra - 1) l
    else (r, x) :: shareTake smin each extra l

/-- The difference D spread in rank order within each member's limits. -/
def shareSpread (floor : Nat) : Int → List (SlackReport × Nat) → List (SlackReport × Nat)
  | _, [] => []
  | d, (r, x) :: l =>
    let y := (max (floor : Int) (min r.gradeMax ((x : Int) + d))).toNat
    (r, y) :: shareSpread floor (d - ((y : Int) - x)) l

/-- All shares of an epoch from its reports in rank order (R396). -/
def newShares (budget floor : Nat) (reps : List SlackReport) : List (SlackReport × Nat) :=
  let live := reps.filter fun r => !r.straggler
  match live with
  | [] => reps.map fun r => (r, r.share)
  | r :: rs =>
    let smin := (rs.map (·.slack)).foldl min r.slack
    let (l, pool) := shareGive floor smin reps
    let n := (live.filter fun r => decide (r.slack ≤ smin + 20)).length
    let l := shareTake smin (pool / n) (pool % n) l
    let l := l.map fun p => (p.1, max floor (min p.1.gradeMax p.2))
    shareSpread floor ((budget : Int) - ((l.map (·.2)).foldl (· + ·) 0 : Nat)) l

/-- SHARE_COMPUTE (R396, R397): half a period into an epoch, with every report; without, the epoch is incomplete. -/
def execShareCompute (s : State) : Answer :=
  let b := s.budget
  let ms := groupMembers s
  let reps := ms.filterMap fun m => b.reports.find? fun r => decide (r.rank.val = m.1 ∧ r.epoch = b.epoch)
  guarded (groupRuns s && !b.computed && decide (b.epoch * groupPeriod s + groupPeriod s / 2 ≤ now s)) s
    (if reps.length = ms.length then
       let l := newShares (dnum s 0x2100 0x05) (dnum s 0x2100 0x07) reps
       let pick (f : SlackReport × Nat → Nat) : List Nat := (List.range 64).map fun i => ((l.find? fun p => decide (p.1.rank.val = i)).map f).getD 0
       { s with budget := { b with computed := true, shares := pick (·.2), slacks := pick (·.1.slack) } }
     else dcount { s with budget := { b with computed := true } } 0x2100 0x0D 4 1)

end Sys2Proof.Machine
end

