-- ==== Sys2Proof/Machine/Regs.lean ====
section
/-! DEFINITION. Register reads and writes as a master makes them, the enables that check a map, the error block's arrival, and mailboxes (R462 to R491, R622). -/
namespace Sys2Proof.Machine
open Sys2Proof

/-- The master identities of R467. -/
def listedMaster (m : Nat) : Bool :=
  decide (m ≤ 3 ∨ m = 0x092 ∨ m = 0x093 ∨ m = 0x094 ∨ m = 0x0A0 ∨ m = 0x080 ∨ m = 0x081 ∨ m = 0x3FF) ||
    decide ((0x010 ≤ m ∧ m < 0x060 ∧ m % 16 < 12) ∨ (0x060 ≤ m ∧ m < 0x078) ∨ (0x082 ≤ m ∧ m < 0x092) ∨ (0x100 ≤ m ∧ m < 0x1C0))

/-- The masters that reach register block space (R465); a mailbox's ends reach the mailbox block too (R485, R491). -/
def reachesRegs (b : RegBlock) (m : Nat) : Bool :=
  isCrown m || isEngine m || decide (m = 3) || decide (0x040 ≤ m ∧ m < 0x04C) || match b with
    | .mbox => true
    | _ => false

/-! ## Mailboxes (R482 to R490) -/

def mbSender (s : State) (m : Nat) : Nat := rfld (regGet s (mboxReg (0x1000 + 8 * m))) 0 10
def mbReceiver (s : State) (m : Nat) : Nat := rfld (regGet s (mboxReg (0x1000 + 8 * m))) 10 10
def mbDoorbell (s : State) (m : Nat) : Bool := regBit s (mboxReg (0x1000 + 8 * m)) 21

/-- Whether a channel's binding is VALID and locked. -/
def mbBound (s : State) (m : Nat) : Bool := regBit s (mboxReg (0x1000 + 8 * m)) 20 && regBit s (mboxReg 0x1800) 0

def mbFull (s : State) (m : Nat) : Bool := regBit s (mbReg m 8) 0
def mbIsSender (s : State) (m x : Nat) : Bool := mbBound s m && decide (mbSender s m = x)
def mbIsReceiver (s : State) (m x : Nat) : Bool := mbBound s m && decide (mbReceiver s m = x)

/-- An access by a master at neither end: FOREIGN, and the capture when no flag of the block was set (R485). -/
def mbForeign (s : State) (addr x : Nat) : State :=
  let armed := !anyIgnored s .mbox
  let s := regSetBit s (mboxReg 0x1804) 0 true
  if armed then regPut (reg64Put s (mboxReg 0xFF0) addr) (mboxReg 0xFF8) (BitVec.ofNat 32 x) else s

/-- A word taken in: counted, with its time; FULL runs from the earliest commit not taken (R484, R490). -/
def mbPut (s : State) (m word : Nat) : State :=
  let s : State := if mbFull s m then s else { s with mbSince := mset 0 s.mbSince m (now s + 1) }
  let s := regSetBit (reg64Put s (mbReg m 0) word) (mbReg m 8) 0 true
  reg64Put (regAdd s (mbReg m 0x0C) 1) (mbReg m 0x10) (now s)

/-- An emptied mailbox: its word reads zero. -/
def mbEmpty (s : State) (m : Nat) : State :=
  regSetBit (reg64Put { s with mbSince := mset 0 s.mbSince m 0 } (mbReg m 0) 0) (mbReg m 8) 0 false

/-- Whether a doorbell word replaces, repeats or clashes with the word held (R490). -/
def mbCommit (s : State) (m word : Nat) : State :=
  if !mbFull s m then mbPut s m word
  else
    let old := reg64 s (mbReg m 0)
    if mbDoorbell s m ∧ fld word 0 16 = fld old 0 16 then
      if seqAfter (BitVec.ofNat 32 (fld old 16 32)) (BitVec.ofNat 32 (fld word 16 32)) then mbPut s m word else s
    else regSetBit s (mbReg m 8) 3 true

/-- The Crown commits the oldest answer it holds to an empty MB01 (R557, R559). -/
def carryAnswers (s : State) : State := match s.boot.answers with
  | [] => s
  | w :: rest => if mbBound s 1 && !mbFull s 1 then mbPut { s with boot := { s.boot with answers := rest } } 1 w.toNat else s

/-- The receiver's read of HI: the read shadow, and the mailbox is emptied; an empty one reads zero and does not change. -/
def mbTake (s : State) (m x : Nat) : State × Word32 :=
  if mbFull s m then (carryAnswers (mbEmpty s m), shadowGet s (mbReg m 0) x false) else (s, 0)

/-- A reset of a master: its FULL mailboxes are emptied with ABORTED, and the flags of the channels it sends on clear (R488). -/
def masterReset (s : State) (x : Nat) : State :=
  (List.range 64).foldl (fun s m =>
    let s := if mbIsReceiver s m x && mbFull s m then regSetBit (mbEmpty s m) (mbReg m 8) 2 true else s
    if mbIsSender s m x then regField s (mbReg m 8) 1 3 0 else s) s

/-! ## Reads (R466, R472) -/

/-- SP_PWR_STAT (R171): stable states, then the banks in WAKE and in FILL. -/
def spPwrStat (s : State) (site : Nat) : Word32 :=
  BitVec.ofNat 32 (((List.range 8).map fun b => match bankState s site b with
    | .on => 3 * 2 ^ (2 * b)
    | .retain => 2 ^ (2 * b)
    | .off => 0
    | .wake _ => 2 ^ (2 * b) + 2 ^ (16 + b)
    | .fill _ => 2 ^ (24 + b)).foldl (· + ·) 0)

/-- SP_STATUS (R172). -/
def spStatus (s : State) (site : Nat) : Word32 :=
  let w := rset (regGet s (spadReg site 4)) 8 1 (boolNat (siteHeld s site))
  rset w 0 8 (((List.range 8).map fun b =>
    if (tileOf s site).unscrubbed ∧ bankState s site b = .on then 2 ^ b else 0).foldl (· + ·) 0)

/-- VR_STATUS (R479). -/
def vrStatus (s : State) (c : Nat) : Word32 :=
  let r := clusterRec s c
  let w := rset (regGet s (vrReg c 4)) 0 3 (powerCode r.power)
  let w := rset w 8 1 (boolNat (decide (workingPhases s c = 6)))
  let w := rset w 9 1 (boolNat r.tripped)
  let w := rset w 10 1 (boolNat (boostOn s c))
  rset w 11 1 (boolNat (decide (60 ≤ r.trim)))

/-- The word in force of a register whose value follows other state. Measured voltages and currents, and a field hub's BUSY, are free values (log entries 36 and 37). -/
def liveWord (s : State) (b : RegBlock) (off : Nat) : Word32 × State :=
  let w := regGet s (b.base + off)
  match b with
  | .array x =>
    if off = 4 then (rset (rset w 0 1 (boolNat (!(tileOf s x).arrayQ.entries.isEmpty))) 2 1 (boolNat (regBit s (arrayReg x 0) 8)), s)
    else (w, s)
  | .spad x =>
    if off = 4 then (spStatus s x, s) else if off = 0x00C then (spPwrStat s x, s) else (w, s)
  | .vr c =>
    if off = 4 then (vrStatus s c, s)
    else if off = 8 then (phasesWord s c, s)
    else if off = 0x00C then (BitVec.ofNat 32 (setpointHalf s c / 2 + clusterVolts s c * 2 ^ 16), s)
    else if off = 0x010 then (BitVec.ofNat 32 ((clusterRec s c).trim + Config.fusedOffset c % 256 * 2 ^ 8), s)
    else if off = 0x014 ∨ off = 0x018 then let (f, s) := freeWord s
      (BitVec.ofNat 32 (f.toNat % 65536), s)
    else if off = 0x01C then (BitVec.ofNat 32 ((clusterRec s c).celsius * 8 % 65536).toNat, s)
    else (w, s)
  | .field _ =>
    if off = 4 then let (f, s) := freeWord s
      (rset w 0 1 f.toNat, s)
    else (w, s)
  | .err =>
    if off = 4 then (rset w 0 1 (boolNat (!s.errBuf.isEmpty)), s)
    else if off = 0x01C then (BitVec.ofNat 32 s.errBuf.length, s)
    else (w, s)
  | .mbox => if off < 0x1000 ∧ off % 0x40 = 8 then (rset w 4 1 (boolNat (mbBound s (off / 0x40))), s) else (w, s)
  | _ => (w, s)

/-- A read of a listed register in a block that answers, with the shadows of R472. -/
def blockRead (s : State) (b : RegBlock) (off x : Nat) : State × Word32 :=
  let a := b.base + off
  if isPairLo b off then
    let (w, s) := liveWord s b off
    (shadowPut s a x false (regGet s (a + 4)), w)
  else if isPairHi b off then (s, shadowGet s (a - 4) x false)
  else let (w, s) := liveWord s b off
    (s, w)

/-- A read in the mailbox channels: the word for the ends alone, the rest for the ends and the window (R484, R485). -/
def mbRead (s : State) (off x : Nat) : State × Word32 :=
  let m := off / 0x40
  let o := off % 0x40
  if o < 8 then
    if mbIsReceiver s m x then (if o = 0 then blockRead s .mbox off x else mbTake s m x)
    else if mbIsSender s m x then blockRead s .mbox off x
    else (mbForeign s (mboxReg off) x, 0)
  else if mbIsReceiver s m x || mbIsSender s m x || decide (x = 3) then blockRead s .mbox off x
  else (mbForeign s (mboxReg off) x, 0)

/-- Where a register access lands: its block and offset, when a map lists it, its block answers and the master reaches it. -/
def regTarget (s : State) (addr x : Nat) : Option (RegBlock × Nat) :=
  match (physAddr s addr).bind regBlockAt with
  | none => none
  | some (b, off) => if (regSpec b off).isSome && blockAnswers s b && reachesRegs b x then some (b, off) else none

/-- Whether an offset lies in a mailbox channel: the capture of R470 stands in the place of channel 63's upper offsets. -/
def inChannel (off : Nat) : Bool := decide (off < 0x1000 ∧ off % 0x40 < 0x18)

/-- A 32-bit register read by a master: what no map lists reads zero (R464). -/
def regRead (s : State) (addr x : Nat) : State × Word32 :=
  match regTarget s addr x with
  | none => (s, 0)
  | some (b, off) => match b with
    | .mbox => if inChannel off then mbRead s off x else blockRead s b off x
    | _ => blockRead s b off x

/-! ## Writes with an effect of their own (R475, R478, R483) -/

/-- Whether a hub's tile map is accepted (R475). -/
def hubMapOk (s : State) (c : Nat) : Bool :=
  let es := (List.range 15).map fun i => regGet s (hubReg c (0x010 + 4 * i))
  let sites := es.map fun e => rfld e 0 4
  (es.all fun e => rbit e 4) && decide sites.Nodup && sites.all fun k => !regBit s (hubReg c 0x00C) k

/-- A write of HUB_CTRL: setting EN checks the map. -/
def hubCtrl (s : State) (c named x : Nat) (v : Word32) : State :=
  if rbit v 0 ∧ !regBit s (hubReg c 0) 0 then
    if hubMapOk s c then fieldWrite (regSetBit s (hubReg c 4) 0 false) (.hub c) 0 named x v
    else fieldWrite (regSetBit s (hubReg c 4) 0 true) (.hub c) 0 named x (rset v 0 1 0)
  else fieldWrite s (.hub c) 0 named x v

/-- Whether a field's cluster remap is accepted; in DEGRADED an entry may be invalid (R478). -/
def fieldMapOk (s : State) (n : Nat) (degraded : Bool) : Bool :=
  let es := (List.range 15).map fun j => (j, regGet s (fieldReg n (0x3000 + 4 * j)))
  let valid := es.filter fun e => rbit e.2 4
  (degraded || decide (valid.length = 15)) && decide (valid.map fun e => rfld e.2 0 4).Nodup &&
    valid.all fun e =>
      let c := 16 * n + rfld e.2 0 4
      !regBit s (hubReg c 4) 1 && decide (rfld (regGet s (hubReg c 8)) 0 9 = 15 * n + e.1)

/-- A write of FH_CTRL: setting EN checks the remap. -/
def fieldCtrl (s : State) (n named x : Nat) (v : Word32) : State :=
  if rbit v 0 ∧ !regBit s (fieldReg n 0) 0 then
    if fieldMapOk s n (decide (dnum s 0x3600 0x02 = 2)) then fieldWrite (regSetBit s (fieldReg n 0x3040) 0 false) (.field n) 0 named x v
    else fieldWrite (regSetBit s (fieldReg n 0x3040) 0 true) (.field n) 0 named x (rset v 0 1 0)
  else fieldWrite s (.field n) 0 named x v

/-- The bytes that FH_SHARE keeps of a written word: slots 0, 16, 32 and 48 and the ports a field lacks are the device's, and so is a value that names no region (R212). -/
def shareWord (n off : Nat) (v : Word32) : Word32 :=
  let p := (off - 0x1000) / 64
  let absent := decide (32 ≤ p ∧ p < 35 ∧ stackCount n ≤ p - 32) || (decide (35 ≤ p ∧ p < 39) && (trunkField n (p - 35)).isNone)
  BitVec.ofNat 32 (((List.range 4).map fun i =>
    let x := rfld v (8 * i) 8
    (if ((off + i) % 16 = 0) ∨ absent ∨ 0x40 ≤ x then 0x40 else x) * 2 ^ (8 * i)).foldl (· + ·) 0)

/-- A binding as it is kept: VALID is forced to 0 for a reserved identity, or one that names itself (R483). -/
def bindWord (v : Word32) : Word32 :=
  let a := rfld v 0 10
  let b := rfld v 10 10
  if listedMaster a && listedMaster b && decide (a ≠ b) then v else rset v 20 1 0

/-- Both words of a pair applied as one change (R472). -/
def pairWrite (s : State) (b : RegBlock) (lo named x : Nat) (l h : Word32) : State :=
  let a := b.base + lo
  match b with
  | .barrier => if lo % 32 = 8 then bgDeadlinePut s (lo / 32) (l.toNat + h.toNat * 2 ^ 32) else fieldWrite (fieldWrite s b lo named x l) b (lo + 4) named x h
  | .mbox =>
    if lo < 0x1000 then s
    else
      let l := bindWord l &&& 0x3FFFFF
      if regBit s (mboxReg 0x1800) 0 then (if regGet s a ≠ l ∨ regGet s (a + 4) ≠ h then ignoredWrite s b lo named x else s)
      else regPut (regPut s a l) (a + 4) h
  | _ => fieldWrite (fieldWrite s b lo named x l) b (lo + 4) named x h

/-- A write in the mailbox channels: data by the sender, flags by the sender and the window (R482, R484, R485). -/
def mbWrite (s : State) (off x : Nat) (v : Word32) : State :=
  let m := off / 0x40
  let o := off % 0x40
  let a := mboxReg off
  if o = 0 then if mbIsSender s m x then shadowPut s a x true v else if mbIsReceiver s m x then s else mbForeign s a x
  else if o = 4 then
    if mbIsSender s m x then mbCommit s m ((shadowGet s (a - 4) x true).toNat + v.toNat * 2 ^ 32)
    else if mbIsReceiver s m x then s else mbForeign s a x
  else if o = 8 then
    if mbIsSender s m x || decide (x = 3) then fieldWrite s .mbox off a x v
    else if mbIsReceiver s m x then s else mbForeign s a x
  else if mbIsSender s m x || mbIsReceiver s m x || decide (x = 3) then s else mbForeign s a x

/-- A write of a register by its block. -/
def blockWrite (s : State) (b : RegBlock) (off named x : Nat) (v : Word32) : State :=
  match b with
  | .array i =>
    if off = 0 ∧ 64 < rfld v 9 7 then fieldWrite s b off named x (rset v 9 7 (rfld (regGet s (arrayReg i 0)) 9 7))
    else fieldWrite s b off named x v
  | .spad i =>
    if off = 8 then bankPower s i v
    else if 0x100 ≤ off then
      let open_ := !regBit s (spadReg i 0) 0
      let s := fieldWrite s b off named x v
      if open_ then remapWritten s i ((off - 0x100) / 64) ((off - 0x100) % 64 / 4) else s
    else fieldWrite s b off named x v
  | .net i => if 0x100 ≤ off then routePut s i ((off - 0x100) / 4) (v &&& 0x1F) else fieldWrite s b off named x v
  | .sync _ => fieldWrite s b off named x v
  | .hub c => if off = 0 then hubCtrl s c named x v else fieldWrite s b off named x v
  | .vr _ => fieldWrite s b off named x v
  | .field n =>
    if off = 0 then fieldCtrl s n named x v
    else if 0x1000 ≤ off ∧ off < 0x2000 then fieldWrite s b off named x (shareWord n off v)
    else fieldWrite s b off named x v
  | .barrier => if off < 0x800 ∧ off % 32 = 0 then bgCfgAccess s (off / 32) named x v else fieldWrite s b off named x v
  | .err => fieldWrite s b off named x v
  | .mbox => if inChannel off then mbWrite s off x v else fieldWrite s b off named x v

/-- Whether a write to a listed register reaches a writable field. -/
def reachesField (b : RegBlock) (off x : Nat) : Bool :=
  mayWrite b off x && match regSpec b off with
    | some sp => decide (sp.rw ≠ 0 ∨ sp.rwd ≠ 0 ∨ sp.w1c ≠ 0)
    | none => false

/-- A 32-bit register write by a master: LO is held, HI applies both, and every other register takes the word (R468 to R473, R622). -/
def regWrite (s : State) (addr x : Nat) (v : Word32) : State :=
  match regTarget s addr x with
  | none => s
  | some (b, off) =>
    if !(reachesField b off x && blockTakes s b) then (match b with
      | .mbox => if inChannel off then mbWrite s off x v else s
      | _ => s)
    else match b with
    | .mbox =>
      if inChannel off then mbWrite s off x v
      else if isPairLo b off then shadowPut s (b.base + off) x true v
      else if isPairHi b off then pairWrite s b (off - 4) addr x (shadowGet s (b.base + off - 4) x true) v
      else blockWrite s b off addr x v
    | _ =>
      if isPairLo b off then shadowPut s (b.base + off) x true v
      else if isPairHi b off then pairWrite s b (off - 4) addr x (shadowGet s (b.base + off - 4) x true) v
      else blockWrite s b off addr x v

/-! ## The commands -/

/-- REGISTER_WRITE (R468, R469, R473). -/
def execRegisterWrite (master : Master) (addr : BitVec 48) (value : BitVec 32) (s : State) : Answer :=
  answer (regWrite s addr.toNat master.toNat value)

/-- Whether an address names the LO, or the HI, word of a pair in a block that answers the master. -/
def pairAt (s : State) (addr x : Nat) (hi : Bool) : Bool :=
  match regTarget s addr x with
  | some (b, off) => if hi then isPairHi b off else isPairLo b off
  | none => false

/-- LOHI_LOW_READ (R472): the HI half is latched in the master's read shadow. -/
def execLohiLowRead (master : Master) (addr : BitVec 48) (s : State) : Answer :=
  guarded (pairAt s addr.toNat master.toNat false) s (regRead s addr.toNat master.toNat).1

/-- LOHI_HIGH_WRITE (R472): the write shadow and the HI half together. -/
def execLohiHighWrite (master : Master) (addr : BitVec 48) (value : BitVec 32) (s : State) : Answer :=
  guarded (pairAt s addr.toNat master.toNat true) s (regWrite s addr.toNat master.toNat value)

/-- HUB_EN_SET (R475). -/
def execHubEnSet (master : Master) (cluster : Cluster) (value : BitVec 32) (s : State) : Answer :=
  guarded (rbit value 0) s (regWrite s (hubReg cluster 0) master.toNat value)

/-- FH_EN_SET (R478). -/
def execFhEnSet (master : Master) (field : Field) (value : BitVec 32) (s : State) : Answer :=
  guarded (rbit value 0) s (regWrite s (fieldReg field 0) master.toNat value)

/-- ERROR_RECORD_ARRIVAL (R480). -/
def execErrorRecordArrival (rec : ErrRecord) (s : State) : Answer :=
  answer (errArrive s { rec with body := slice rec.body 0 32 })

/-- MB_COMMIT (R484, R486, R490). -/
def execMbCommit (master : Master) (channel : Fin 64) (high : BitVec 32) (s : State) : Answer :=
  answer (regWrite s (mbReg channel 4) master.toNat high)

/-- MB_TAKE (R484): the read of HI. -/
def execMbTake (master : Master) (channel : Fin 64) (s : State) : Answer :=
  answer (regRead s (mbReg channel 4) master.toNat).1

/-- MB_TIMEOUT (R487): FULL has lasted the channel's timeout in µs. -/
def execMbTimeout (channel : Fin 64) (s : State) : Answer :=
  let m := channel.val
  let t := (regGet s (mboxReg (0x1004 + 8 * m))).toNat
  guarded (mbFull s m && decide (t ≠ 0 ∧ mget 0 s.mbSince m + t * 16000 ≤ now s + 1)) s (regSetBit s (mbReg m 8) 1 true)

/-- RECEIVER_RESET (R488): a Crown core, an order engine, a link controller or the register window. -/
def execReceiverReset (master : Master) (s : State) : Answer :=
  let x := master.toNat
  guarded (isCrown x || isEngine x || decide (x = 3 ∨ (0x082 ≤ x ∧ x < 0x094))) s (carryAnswers (masterReset s x))

/-- MB_LOCK_WRITE (R483). -/
def execMbLockWrite (master : Master) (value : BitVec 32) (s : State) : Answer :=
  answer (regWrite s (mboxReg 0x1800) master.toNat value)

end Sys2Proof.Machine
end

