-- ==== Sys2Proof/Machine/ObjRead.lean ====
section
/-! DEFINITION. The value an object reads as when it follows other state (R243, R267, R274, R288, R308, R336, R363, R398 to R400, R449 to R461, R523 to R525, R551 to R553, R600). -/
namespace Sys2Proof.Machine
open Sys2Proof

def bytesOf (n : Nat) (f : Nat → Nat) : List Byte := (List.range n).map fun i => BitVec.ofNat 8 (f i)

/-! ## Hoods, regions and orders -/

def regionCode : RegionState → Nat
  | .free => 0
  | .configured => 1
  | .staging => 2
  | .ready => 3
  | .serving => 4
  | .draining => 5
  | .scrub => 6
  | .held => 7
  | .holed => 8

def slotCode : SlotState → Nat
  | .empty => 0
  | .staging => 1
  | .standby => 2
  | .active => 3

/-- 0x3100 + r. -/
def liveRegion (s : State) (r sub : Nat) : Option (List Byte) :=
  let g := regionOf s r
  if sub = 0x01 then some (leBytes 1 (regionCode g.state))
  else if sub = 0x07 then some (leBytes 1 (slotCode g.slotA + 4 * slotCode g.slotB))
  else if sub = 0x12 then some (leBytes 8 g.stepNo)
  else if sub = 0x13 then some (leBytes 2 (openCount s r))
  else if sub = 0x14 then some (leBytes 4 g.skipped)
  else if sub = 0x15 then some (leBytes 8 g.lastStep)
  else if sub = 0x16 then some (leBytes 8 g.lastSwitch)
  else if sub = 0x17 then some (leBytes 8 g.stagingLeft)
  else if sub = 0x18 then some (leBytes 8 g.kvCommitted)
  else if sub = 0x19 then some (leBytes 1 g.killCause)
  else if sub = 0x1A then some (leBytes 1 g.stageStatus)
  else none

/-- The length of a hood's image: that of its load request until it has come (R273, R274). -/
def hoodLength (h : HoodRec) : Nat := if h.image = [] then leAt h.request 8 8 else h.image.length

/-- One hood entry (0x3200:10): the entries stand in ascending id. -/
def hoodEntry (s : State) (i : Nat) : List Byte :=
  match s.hoods[i]? with
  | none => zeros 64
  | some (id, h) =>
    leBytes 2 id ++ leBytes 1 h.state ++ leBytes 1 (mfKind h.image) ++ zeros 4 ++ leBytes 8 h.base ++ leBytes 8 (hoodLength h) ++
      leBytes 2 (hoodRegions s id).length ++ leBytes 4 (hoodOrders s id).length ++ zeros 2 ++
      (if h.state = 2 then manifestDigest s id else zeros 32)

def orderCode : OrderState → Nat
  | .pending => 1
  | .eligible => 2
  | .running => 3
  | .retained => 4

/-- The order view (0x3400:08). -/
def orderView (s : State) : List Byte :=
  match findOrder s (BitVec.ofNat 32 (dnum s 0x3400 0x07)) with
  | none => zeros 32
  | some o =>
    leBytes 1 (orderCode o.state) ++ leBytes 1 o.region ++ leBytes 2 (recHood o.record) ++ leBytes 2 (recAdapter o.record) ++ zeros 2 ++
      leBytes 4 (min o.processed o.context.length) ++ leBytes 4 o.generated.length ++ leBytes 4 o.pages.length ++ zeros 4 ++ leBytes 8 o.latestStep

/-- 0x3200, 0x3300, 0x3400 and 0x3600. -/
def liveServing (s : State) (idx sub : Nat) : Option (List Byte) :=
  if idx = 0x3200 then
    if sub = 0x04 then some (leBytes 1 (s.hoods.filter fun h => decide (h.2.state = 2)).length)
    else if 0x10 ≤ sub then some (hoodEntry s (sub - 0x10))
    else none
  else if idx = 0x3300 then
    if sub = 0x04 then some (leBytes 2 (s.adapters.filter fun a => decide (a.2.state = 2)).length)
    else if sub = 0x08 then some (bytesOf 4096 fun i => (adapterOf s i).state)
    else none
  else if idx = 0x3400 then
    if sub = 0x01 then some (leBytes 2 s.orders.length) else if sub = 0x08 then some (orderView s) else none
  else if sub = 0x04 then some (bitmap 24 (clusterSurplus s))
  else if sub = 0x0B then some (leBytes 8 s.journal.next ++ leBytes 8 (jTail s) ++ leBytes 8 (jUsed s) ++ leBytes 8 s.journal.epoch)
  else if sub = 0x13 then
    let g := dget s 0x3600 0x12
    let w (i : Nat) : Word64 := BitVec.ofNat 64 (leAt g (8 * i) 8)
    some (leBytes 8 (ossilDraw (w 0) (w 1) (w 2) (w 3)).toNat)
  else none

/-! ## Time, power, HBM -/

def timeCode : TimeState → Nat
  | .free => 0
  | .acquiring => 1
  | .locked => 2
  | .holdover => 3
  | .untrusted => 4

/-- 0x2200. A pending change is the host's (R359). -/
def liveTime (s : State) (sub : Nat) : Option (List Byte) :=
  if sub = 0x01 then some (leBytes 8 (now s))
  else if sub = 0x02 then some (leBytes 1 (timeCode s.time.st))
  else if sub = 0x06 then some (leBytes 1 (refStatus s))
  else if sub = 0x08 then some (leIntBytes 4 s.time.rate)
  else if sub = 0x09 then some (leBytes 8 (holdoverElapsed s))
  else if sub = 0x0C then some (leBytes 1 s.power.appliedCode)
  else if sub = 0x0D then some (match s.power.nextPoint with
    | some (c, t) => leBytes 1 c ++ zeros 7 ++ leBytes 8 t
    | none => [0xFF] ++ zeros 15)
  else if sub = 0x0E then some (leBytes 4 (min (pointMHz s.power.appliedCode) gradeTopMHz))
  else if sub = 0x0F then some (leBytes 4 gradeTopMHz)
  else none

def darkCount (s : State) : Nat := ((List.range 192).filter fun c => decide ((clusterRec s c).power = .dark)).length

/-- 0x2000:0A. A reduced capacity is read as the DEGRADED profile (log entry 38). -/
def powerStatus (s : State) : Nat :=
  boolNat (decide (0 < s.power.capCode)) + 2 * boolNat (anyFast s (·.fastThermal)) + 4 * boolNat (anyFast s (·.fastZone)) +
    8 * boolNat s.power.straggler + 16 * boolNat ((List.range 24).any fun z => decide (dnum s (0x2010 + z) 0x07 = 1)) +
    32 * boolNat (decide (dnum s 0x3600 0x02 = 2)) + 64 * boolNat (s.zones.any fun z => z.2.replaced)

def livePower (s : State) (sub : Nat) : Option (List Byte) :=
  if sub = 0x09 then some (leBytes 1 s.power.capCode)
  else if sub = 0x0A then some (leBytes 2 (powerStatus s))
  else if sub = 0x0B then some (leBytes 2 ((List.range 192).filter (clusterWhole s)).length)
  else if sub = 0x0C then some (leBytes 2 (darkCount s))
  else if sub = 0x0D then
    some (leIntBytes 4 (match ((List.range 192).filter (clusterOn s)).map fun c => (clusterRec s c).celsius with
      | [] => 0
      | t :: ts => ts.foldl max t))
  else none

/-- 0x2010 + z. -/
def liveZone (s : State) (z sub : Nat) : Option (List Byte) :=
  let cs := zoneClusters z
  if sub = 0x09 then some (cs.map fun c => BitVec.ofNat 8 (powerCode (clusterRec s c).power))
  else if sub = 0x0A then some (cs.map fun c => BitVec.ofNat 8 (phasesWord s c).toNat)
  else if sub = 0x0B then some (cs.map fun c => BitVec.ofNat 8 (clusterRec s c).code)
  else if sub = 0x0C then some (cs.flatMap fun c => leIntBytes 2 (clusterRec s c).celsius)
  else if sub = 0x10 then some (cs.map fun c => BitVec.ofNat 8 (clusterRec s c).trim)
  else none

/-- 0x2100. -/
def liveGroup (s : State) (sub : Nat) : Option (List Byte) :=
  let b := s.budget
  if sub = 0x09 then some (leBytes 4 (b.shares.getD (dnum s 0x2100 0x04) 0))
  else if sub = 0x0A then some ((List.range 64).flatMap fun i => leBytes 4 (b.shares.getD i 0))
  else if sub = 0x0B then some ((List.range 64).flatMap fun i => leBytes 2 (b.slacks.getD i 0))
  else if sub = 0x0E then some (leBytes 1 (if !b.running then 0 else if groupRuns s then 1 else 2))
  else none

/-- 0x4000 + h:01. A stack whose operation HBM repair interrupts is TRAINING again (DESIGN CHOICE, log entry 151). -/
def stackCode (s : State) (h : Nat) : Nat :=
  let r := stackRec s h
  match r.st with
  | .absent => 0
  | .training => 1
  | .up => if r.retraining then 1 else 2
  | .failed => 3
  | .selfRefresh => 4

/-- 0x4000 + h. -/
def liveStack (s : State) (h sub : Nat) : Option (List Byte) :=
  if sub = 0x01 then some (leBytes 1 (stackCode s h))
  else if sub = 0x03 then some (leBytes 1 (stackField h))
  else none

/-! ## Ports, links and the twin pair -/

def portOn (s : State) (p : Nat) : Bool := decide (dnum s (0x1100 + p) 0x02 = 1)

/-- The last key switched in for a target, and what 0x5840:05 says of it. -/
def targetKeys (s : State) (t : Nat) : List KeyRec := s.sec.keys.filter fun k => decide (k.target = t)

def keyed (s : State) (t : Nat) : Bool := (targetKeys s t).any fun k => k.active

/-- 0x1100 + p. -/
def livePort (s : State) (p sub : Nat) : Option (List Byte) :=
  let q := portOf s p
  if sub = 0x01 then some (leBytes 1 (if !portOn s p then 3 else if q.up then (if q.carries then 2 else 1) else 0))
  else if sub = 0x14 ∧ p < 2 then some (leBytes 1 (boolNat (keyed s p)))
  else none

def laneCount (l : Link) : Nat := ((List.range 5).filter fun i => l.lanes.toNat.testBit i).length

/-- 0x4400 + i. -/
def liveLink (s : State) (i sub : Nat) : Option (List Byte) :=
  let l := linkOf s i
  if sub = 0x01 then some (leBytes 1 l.st)
  else if sub = 0x03 then some (leBytes 1 l.lanes.toNat)
  else if sub = 0x04 then some (leBytes 1 (laneCount l))
  else if sub = 0x0D then some (leBytes 1 (boolNat (keyed s (2 + i))))
  else none

def pairCode : PairState → Nat
  | .solo => 0
  | .forming => 1
  | .syncing => 2
  | .paired => 3
  | .suspect => 4
  | .alone => 5
  | .isolated => 6
  | .mismatch => 7

def memberByte (s : State) : Nat := match s.twin.member with
  | some m => m
  | none => 0xFF

/-- The member that is the front. -/
def frontByte (s : State) : Nat := match s.twin.member with
  | some m => if s.twin.front then m else 1 - m
  | none => 0xFF

/-- Whether the partner's HEARTBEAT is current: it came within the loss count's intervals. -/
def beatCurrent (s : State) : Bool :=
  decide (s.twin.lastBeat ≠ 0 ∧ now s < s.twin.lastBeat + dnum s 0x4800 0x0B * dnum s 0x4800 0x0C)

/-- The pair state (R525). -/
def pairBytes (s : State) : List Byte :=
  leBytes 8 (now s) ++ leBytes 1 s.twin.mode ++ leBytes 1 (pairCode s.twin.st) ++ leBytes 1 (frontByte s) ++ leBytes 1 (memberByte s) ++
    leBytes 1 (boolNat (linkUsable s 16) + 2 * boolNat (linkUsable s 17) + 4 * boolNat (beatCurrent s)) ++ zeros 3 ++
    slice (dget s 0x4800 0x08) 0 8 ++ bitmap 8 (fun r => (regionOf s r).protected_) ++ leBytes 8 s.twin.beatAcked ++
    leBytes 2 s.twin.partnerFabric.toNat ++ zeros 6 ++ slice s.twin.partnerSerial 0 16

/-- The prefill rates of the regions this member homes, as F32. -/
def homeRates (s : State) : List Byte := (List.range 64).flatMap fun r => if homed s r then leBytes 4 (f32Ratio (prefillRate s r) 1) else zeros 4

/-- 0x4800:15: the partner's rates are those of its latest HEARTBEAT. -/
def prefillRates (s : State) : List Byte :=
  (List.range 64).flatMap fun r => if homed s r then slice (homeRates s) (4 * r) 4 else slice s.twin.partnerRates (4 * r) 4

/-- 0x4800. -/
def liveTwin (s : State) (sub : Nat) : Option (List Byte) :=
  if sub = 0x02 then some (leBytes 1 s.twin.mode)
  else if sub = 0x03 then some (pairBytes s)
  else if sub = 0x05 then some (leBytes 1 (memberByte s))
  else if sub = 0x11 then some (leBytes 8 (((List.range 64).filter (homed s)).foldl (fun m r => max m (recomputeTime s r)) 0))
  else if sub = 0x12 then some (leBytes 8 (if twinSolo s then 0 else s.journal.next - s.journal.partnerAcked))
  else if sub = 0x15 then some (prefillRates s)
  else none

/-! ## Logs, tests and maintenance -/

/-- An entry of the protocol-violation log (R430). -/
def vBytes (e : VEntry) : List Byte :=
  leBytes 8 e.time ++ leBytes 6 e.mac.toNat ++ leBytes 1 e.port ++ leBytes 1 (min 255 e.repeats) ++ beBytes 16 e.ip.toNat ++ leBytes 2 e.udp.toNat ++
    leBytes 2 e.session.toNat ++ leBytes 2 e.status.toNat ++ leBytes 1 e.opcode.toNat ++ [0] ++ leBytes 8 e.detail.toNat

/-- An entry of the error log (R547). -/
def logBytes (e : LogEntry) : List Byte :=
  leBytes 8 e.record.time ++ leBytes 8 e.seq ++ leBytes 2 e.record.kind.toNat ++ leBytes 1 e.classes.toNat ++ leBytes 1 (min 255 e.repeats) ++
    leBytes 1 e.record.region.toNat ++ [0] ++ leBytes 2 e.record.master.toNat ++ leBytes 2 e.record.tile.toNat ++
    leBytes 2 e.record.unit.toNat ++ zeros 4 ++ slice e.record.body 0 32

def noRecord : ErrRecord := { time := 0, kind := 0, region := 0, master := 0, tile := 0, unit := 0, body := [] }

def logNone : LogEntry := { record := noRecord, seq := 0, classes := 0, repeats := 0 }

def liveViolations (s : State) (sub : Nat) : Option (List Byte) :=
  if sub = 0x01 then some (leBytes 8 s.vlog.total)
  else if sub = 0x02 then some (leBytes 2 s.vlog.held)
  else if sub = 0x03 then some (leBytes 1 s.vlog.next)
  else if sub = 0x04 then some ((List.range 256).flatMap fun i => vBytes (mget vNone s.vlog.entries i))
  else none

/-- A session's entry of 0x1210 (R455). -/
def subscription (s : State) (n : Nat) : List Byte :=
  match s.sessions.find? fun x => decide (x.1 = n) with
  | none => zeros 80
  | some (_, x) =>
    leBytes 4 x.mask.toNat ++ leBytes 2 x.watches.length ++ zeros 2 ++
      slice (x.watches.flatMap fun w => leBytes 2 w.idx.toNat ++ leBytes 1 w.sub.toNat ++ [0]) 0 64 ++ leBytes 4 x.sent.toNat ++ leBytes 4 x.lost.toNat

def liveErrors (s : State) (sub : Nat) : Option (List Byte) :=
  if sub = 0x01 then some (leBytes 8 s.errLog.records)
  else if sub = 0x02 then some (leBytes 2 s.errLog.held)
  else if sub = 0x03 then some (leBytes 2 s.errLog.next)
  else if sub = 0x04 then some ((List.range 4096).flatMap fun i => logBytes (mget logNone s.errLog.entries i))
  else if sub = 0x05 then some ((List.range 8).flatMap fun i => leBytes 8 (s.errLog.counts.getD i 0))
  else if sub = 0x07 then some (leBytes 8 (regGet s (errReg 0x018)).toNat)
  else if sub = 0x0B then some (slice (s.otp.field.flatMap fun d => d.1 :: (defectBytes d.2).drop 1) 0 4096)
  else if sub = 0x0C then some (leBytes 2 s.otp.field.length)
  else none

/-- The activity that a waiting one waits on: the first running one in conflict. -/
def waitsOn (s : State) (m : Maint) : List Byte :=
  match s.maint.find? fun x => x.running && conflicts s x m with
  | some x => leBytes 1 x.activity ++ zeros 1 ++ leBytes 2 x.scope
  | none => zeros 4

/-- An entry of 0x5200:01, with its fields in the order listed (log entry 29). -/
def maintBytes (s : State) (m : Maint) : List Byte :=
  leBytes 1 m.activity ++ leBytes 1 (if m.running then 2 else 1) ++ leBytes 2 m.scope ++ leBytes 2 m.requester.toNat ++ zeros 2 ++
    leBytes 8 m.time ++ (if m.running then zeros 4 else waitsOn s m) ++ zeros 12

def liveMaint (s : State) (idx sub : Nat) : Option (List Byte) :=
  if idx = 0x5100 then
    if sub = 0x04 then some (leBytes 2 (s.maint.filter fun m => decide (m.activity = 2) && !m.running).length) else none
  else if sub = 0x01 then some (slice (s.maint.flatMap (maintBytes s)) 0 8192)
  else if sub = 0x02 then some (leBytes 2 (s.maint.filter (·.running)).length)
  else if sub = 0x03 then some (leBytes 2 (s.maint.filter fun m => !m.running).length)
  else none

/-! ## Security -/

/-- One target's entry of 0x5840:05: the transmit key is slot 0 of a port and the latest active index of a link. -/
def keyState (s : State) (t : Nat) : List Byte :=
  let ks := targetKeys s t
  let act := ks.filter (·.active)
  let tx := if t < 2 then act.find? fun k => decide (k.slot = 0) else act.getLast?
  let pend := ks.find? fun k => !k.active
  leBytes 4 (match tx with
    | some k => k.keyId.toNat
    | none => 0) ++
    leBytes 1 (((List.range 3).map fun i => if ks.any fun k => decide (k.slot = i) then 2 ^ i else 0).foldl (· + ·) 0) ++
    leBytes 1 (match pend with
      | some k => k.slot
      | none => 0xFF) ++ zeros 2

def liveSecurity (s : State) (idx sub : Nat) : Option (List Byte) :=
  if idx = 0x5800 then
    if sub = 0x01 then some (leBytes 1 (boolNat (owned s)))
    else if sub = 0x02 then some (bytesOf 4 (slotState s))
    else if sub = 0x03 then some ((List.range 4).flatMap fun i => slice (slotHash s i) 0 64)
    else if sub = 0x04 then some (leBytes 1 (rollbackCount s))
    else if sub = 0x05 then some (leBytes 1 s.sec.debugScope.toNat)
    else none
  else if idx = 0x5811 then
    if sub = 0x01 then some (leBytes 1 s.sec.imageState)
    else if sub = 0x02 then some (leBytes 1 s.sec.reason)
    else if sub = 0x03 then some (leBytes 2 s.sec.version)
    else none
  else if idx = 0x5820 then
    if sub = 0x02 then some (s.sec.report.getD [])
    else if sub = 0x03 then some Config.certificateChain
    else if sub = 0x04 then some (leBytes 4 s.sec.reports)
    else none
  else if idx = 0x5840 then
    if sub = 0x01 then some (slice Config.kemKey 0 1568)
    else if sub = 0x02 then some (slice Config.kemKeySignature 0 4627)
    else if sub = 0x05 then some ((List.range 20).flatMap (keyState s))
    else none
  else none

/-! ## The debug view (R243, R461) -/

def agentCode : Agent → Nat
  | .core c => c.val
  | .queue q => 2 + queueNo q

/-- The waiters of a semaphore, oldest first. -/
def waiterBytes (t : Tile) (n : Nat) : List Byte :=
  let ws := (t.waiters.filter fun w => decide (w.sem = n)).take 8
  leBytes 1 ws.length ++ zeros 3 ++ slice (ws.flatMap fun w => leBytes 1 (agentCode w.agent) ++ leBytes 1 (boolNat w.watch) ++ leBytes 2 w.count) 0 32

def lastSigNone : LastSignal := { time := 0, source := 0, master := 0, path := 0, ord := false, units := 0 }

def signalBytes (t : Tile) (n : Nat) : List Byte :=
  let l := mget lastSigNone t.lastSig n
  leBytes 8 l.time ++ leBytes 2 l.source.toNat ++ leBytes 2 l.master.toNat ++ leBytes 1 l.path ++ leBytes 1 (boolNat l.ord) ++ leBytes 2 l.units

def liveDebug (s : State) (lt sub : Nat) : Option (List Byte) :=
  if sub = 0 then none
  else match siteOfLt s lt with
    | none => none
    | some x =>
      let t := tileOf s x
      let n := (sub - 1) / 3
      if sub % 3 = 1 then some (leBytes 2 (mget 0 t.sems n).toNat)
      else if sub % 3 = 2 then some (waiterBytes t n)
      else some (signalBytes t n)

/-! ## The value of an object -/

/-- The live value of a subindex, if it follows other state. -/
def liveValue (s : State) (idx sub : Nat) : Option (List Byte) :=
  if 0x1100 ≤ idx ∧ idx < 0x1103 then livePort s (idx - 0x1100) sub
  else if idx = 0x1200 then liveViolations s sub
  else if idx = 0x1210 then (if 1 ≤ sub ∧ sub ≤ 0x10 then some (subscription s sub) else none)
  else if idx = 0x2000 then livePower s sub
  else if 0x2010 ≤ idx ∧ idx < 0x2028 then liveZone s (idx - 0x2010) sub
  else if idx = 0x2100 then liveGroup s sub
  else if idx = 0x2200 then liveTime s sub
  else if 0x3100 ≤ idx ∧ idx < 0x3140 then liveRegion s (idx - 0x3100) sub
  else if idx = 0x3200 ∨ idx = 0x3300 ∨ idx = 0x3400 ∨ idx = 0x3600 then liveServing s idx sub
  else if 0x4000 ≤ idx ∧ idx < 0x4018 then liveStack s (idx - 0x4000) sub
  else if 0x4400 ≤ idx ∧ idx < 0x4412 then liveLink s (idx - 0x4400) sub
  else if idx = 0x4800 then liveTwin s sub
  else if idx = 0x5000 then liveErrors s sub
  else if idx = 0x5100 ∨ idx = 0x5200 then liveMaint s idx sub
  else if 0x5800 ≤ idx ∧ idx < 0x5900 then liveSecurity s idx sub
  else if 0x9000 ≤ idx ∧ idx < 0x9A8C then liveDebug s (idx - 0x9000) sub
  else none

/-- The value in force of a subindex whose read has no effect. -/
def objValue (s : State) (idx sub : Nat) : List Byte := (liveValue s idx sub).getD (dget s idx sub)

/-- A fresh nonce: the device keeps the 16 latest (R586). -/
def drawNonce (s : State) : State × List Byte :=
  let (n, s) := freeBytes s 32
  ({ s with sec := { s.sec with nonces := ((n, now s) :: s.sec.nonces).take 16 } }, n)

/-! ## The register window (R458 to R460) -/

/-- What a window access gives: the state, its code, whether a memory word was corrected on the way, and the word. -/
structure WindowAns where
  state : State
  code : Nat
  corrected : Bool
  word : Word32
deriving DecidableEq, Repr

/-- An access that returns no word. -/
def windowNone (s : State) (code : Nat) : WindowAns := ⟨s, code, false, 0⟩

/-- A word of a stored row or sector: a poisoned sector gives code 4 and reads 0. -/
def windowWord (s : State) (m : Memory) (key : Nat) (poison corrected : Bool) : WindowAns :=
  if poison then ⟨s, 4, corrected, 0⟩ else ⟨s, 0, corrected, BitVec.ofNat 32 (leNat (memRead m key 4))⟩

/-- Whether a read of a row corrects the 64-bit word `w` of it. -/
def wordCorrected (mem : Memory) (err : SMap (BitVec 72)) (tags : SMap (BitVec 3)) (row key w : Nat) (events : List RowEvent) : Bool :=
  (eccWords mem (upsets err tags row key events).1 key).2.2.contains (w, false)

/-- A row of a tile, read as requestor 9 with its error correction: a HELD region answers it and keeps its contents and tags (R143, R150, R169, R171). -/
def windowTile (s : State) (site a : Nat) (w : WindowFind) : WindowAns :=
  let row := a / 512 % 8192
  if !clusterOn s (siteCluster site) then windowNone s 5
  else if (tileOf s site).unscrubbed then windowNone s 3
  else if !bankServes s site row reqMaintenance then windowNone (offAccess s site row reqMaintenance) 5
  else
    let key := rowKey s site row
    let (t, _, _) := rowRead s site row reqMaintenance w.events
    let ans := windowWord t t.spad (key * 512 + a % 512) (tagAt t key (a % 512 / 64))
      (wordCorrected s.spad s.spadErr s.spadTag row key (a % 512 / 8) w.events)
    if siteHeld s site then { ans with state := { t with spad := s.spad, spadErr := s.spadErr, spadTag := s.spadTag } } else ans

/-- The Crown's accesses for the register window, in HBM's records (R269). -/
def windowReq : HbmReq := ⟨6, 0x003, 0xFF⟩

/-- A word of HBM with the records of the rows that deliver or refuse it (R251, R253 to R256, R260, R264). While its stack retrains, no answer comes within 10 µs (log entry 39). -/
def windowHbm (s : State) (a : Nat) (w : WindowFind) : WindowAns :=
  if hbmZeroing s a 4 then windowNone (hbmRefused s a 6 windowReq) 3
  else match hbmPlace s a with
    | some (h, off) =>
      let r := stackRec s h
      if r.retraining then windowNone s 8
      else if r.st = .failed then windowNone (hbmRefused s a 5 windowReq) 5
      else if r.st ≠ .up then windowNone s 5
      else
        let key := hbmKey h (off / 512 * 512)
        let i := off % 512 / 64
        let mine (j : Fin 8) : Bool := decide (j.val = i)
        let stored := hbmTagAt s key i
        let find : HbmFind :=
          { corrected := w.found.corrected.filter mine, bad := w.found.bad.filter mine, onDie := w.found.onDie, parity := w.found.parity.filter fun p => mine p.1 }
        let t := if stored then hbmRecord s (a / 64 * 64) h (off / 64 * 64) 3 windowReq else s
        let t := hbmFound t (a / 512 * 512) h (off / 512 * 512) false find windowReq
        windowWord t t.hbm (hbmKey h off) (hbmTagAt t key i) (!stored && !find.corrected.isEmpty)
    | none => windowNone (hbmRefused s a 5 windowReq) 5

/-- A word of field memory, with the errors its row shows (R199, R200). -/
def windowField (s : State) (n off : Nat) (w : WindowFind) : WindowAns :=
  if fmScrubbing s n (off / 1048576) then windowNone s 3
  else
    let row := off / 512
    let key := fmKey n (row * 512)
    let t := fmEcc s n row w.events
    windowWord t t.fmem (fmKey n off) (fmTagAt t key (off % 512 / 64)) (wordCorrected s.fmem s.fmemErr s.fmemTag row (key / 512) (off % 512 / 8) w.events)

/-- A memory word by the class of its address. No answer comes from another device through an aperture within 10 µs (log entry 39). -/
def windowMemory (s : State) (a : Nat) (w : WindowFind) : WindowAns :=
  if 0x200000000000 ≤ a ∧ a < 0x280000000000 then
    let t := (a - 0x200000000000) / 0x400000
    if 2700 ≤ t then windowNone s 2
    else match siteOfLt s t with
      | some x => windowTile s x a w
      | none => windowNone s 5
  else match targetOf s a with
    | .hbm => windowHbm s a w
    | .fieldMem n off => windowField s n off w
    | .tile x _ => windowTile s x a w
    | .fabric => windowNone s 8
    | .nothing => windowNone s 2

/-- Whether an address lies in memory that the debug lock withholds; a HELD region's rows are not (R597). -/
def memoryLocked (s : State) (a : Nat) : Bool :=
  let held := match targetOf s a with
    | .tile x _ => siteHeld s x
    | _ => false
  decide (a < 0xF00000000000) && (addrRange a).isSome && decide (addrRange a ≠ some 4) && !s.sec.debugScope.toNat.testBit 0 && !held

/-- Why a register address does not answer: 2 unmapped, 5 dark, holed or OFF. -/
def registerGap (s : State) (a : Nat) : Nat :=
  match (physAddr s a).bind regBlockAt with
  | none => 2
  | some (b, off) => if (regSpec b off).isNone then 2 else if blockAnswers s b then 0 else 5

/-- A read of the word at an address. -/
def windowRead (s : State) (a : Nat) (w : WindowFind) : WindowAns :=
  if memoryLocked s a then windowNone s 9
  else if 0xF00000000000 ≤ a then
    let g := registerGap s a
    if g ≠ 0 then windowNone s g else
      let (t, v) := regRead s a 3
      ⟨t, 0, false, v⟩
  else windowMemory s (a / 4 * 4) w

/-- Whether a write of a register reaches a field it may write. -/
def windowWritable (s : State) (a : Nat) : Bool :=
  match (physAddr s a).bind regBlockAt with
  | some (b, off) => reachesField b off 3
  | none => false

/-- Whether the debug lock withholds a register write: all but the error and mailbox blocks'. -/
def registerLocked (s : State) (a : Nat) : Bool :=
  !s.sec.debugScope.toNat.testBit 1 && match (physAddr s a).bind regBlockAt with
    | some (.err, _) => false
    | some (.mbox, _) => false
    | _ => true

/-- How many writes a register's block has ignored. -/
def ignoredCount (s : State) (a : Nat) : Word32 := match (physAddr s a).bind regBlockAt with
  | some (b, _) => regGet s (b.base + 0xFFC)
  | none => 0

/-- A write of a word: registers only, whole words only. The answer holds the state, the code and whether the write was ignored. -/
def windowWrite (s : State) (a mask : Nat) (v : Word32) : State × Nat × Bool :=
  if a < 0xF00000000000 then (s, if memoryLocked s a then 9 else if (addrRange a).isNone then 2 else 6, false)
  else if registerLocked s a then (s, 9, false)
  else if registerGap s a = 2 then (s, 2, false)
  else if mask % 16 ≠ 15 then (s, 7, false)
  else if !windowWritable s a then (s, 6, false)
  else if registerGap s a ≠ 0 then (s, 5, false)
  else
    let t := regWrite s a 3 v
    (t, 0, decide (ignoredCount s a ≠ ignoredCount t a))

/-- 0x6000:04 and the auto-increment after an access. -/
def windowDone (s : State) (code : Nat) (corrected ignored : Bool) : State :=
  let s := dputNum s 0x6000 0x04 2 (code + 256 * boolNat corrected + 512 * boolNat ignored)
  if (dnum s 0x6000 0x03).testBit 8 then dputNum s 0x6000 0x01 8 ((dnum s 0x6000 0x01 + 4) % 2 ^ 48) else s

/-- A read through 0x6000:02. -/
def windowReadAccess (s : State) (w : WindowFind) : State × List Byte :=
  let x := windowRead s (dnum s 0x6000 0x01) w
  (windowDone x.state x.code x.corrected false, leBytes 4 x.word.toNat)

/-- A write through 0x6000:02. -/
def windowWriteAccess (s : State) (v : List Byte) : State :=
  let (s, code, ign) := windowWrite s (dnum s 0x6000 0x01) (dnum s 0x6000 0x03) (BitVec.ofNat 32 (leNat v))
  windowDone s code false ign

/-- The output currents of a zone's clusters: no rule gives them, so they are free values (log entry 36). -/
def zoneCurrents (s : State) : State × List Byte := let (b, s) := freeBytes s 32
  (s, b)

/-- A read of a subindex: a fresh nonce, an access through the window, which meets what `w` says, or the value in force. -/
def objRead (s : State) (idx sub : Nat) (w : WindowFind) : State × List Byte :=
  if idx = 0x5800 ∧ sub = 0x06 then drawNonce s
  else if idx = 0x6000 ∧ sub = 0x02 then windowReadAccess s w
  else if 0x2010 ≤ idx ∧ idx < 0x2028 ∧ sub = 0x0D then zoneCurrents s
  else (s, objValue s idx sub)

end Sys2Proof.Machine
end

