-- ==== Sys2Proof/Machine/OdpBase.lean ====
section
/-! DEFINITION. Beneath the host protocol: EVENTs, the error log, host ports and failover, queue pairs, and the close of a session (R403 to R405, R415, R419, R420, R427, R430, R449 to R456, R546, R551). -/
namespace Sys2Proof.Machine
open Sys2Proof

/-! ## Sessions -/

def sessionOf (s : State) (n : Nat) : Option Session := (s.sessions.find? fun x => decide (x.1 = n)).map (·.2)

/-- A session's record replaced; the list stays ascending by number. -/
def setSession (s : State) (n : Nat) (x : Session) : State :=
  { s with sessions := s.sessions.filter (fun y => decide (y.1 < n)) ++ (n, x) :: s.sessions.filter (fun y => decide (n < y.1)) }

def modSession (s : State) (n : Nat) (f : Session → Session) : State := match sessionOf s n with
  | some x => setSession s n (f x)
  | none => s

/-! ## EVENTs (R427, R456) -/

/-- The payload of an EVENT. -/
def eventBytes (s : State) (cls code : Nat) (data : List Byte) : List Byte :=
  leBytes 8 (now s) ++ leBytes 2 cls ++ leBytes 2 code ++ zeros 4 ++ data.take 64

/-- An EVENT sent to a session, in the session's own EVENT sequence; it is held until the host answers. -/
def eventPut (s : State) (n cls code : Nat) (data : List Byte) : State := match sessionOf s n with
  | none => s
  | some x =>
    let seq := x.eventSeq + 1
    let p := eventBytes s cls code data
    emit (setSession s n { x with eventSeq := seq, sent := x.sent + 1, events := x.events ++ [⟨seq, p, now s, 0⟩] }) (.odpEvent n seq p)

/-- An EVENT to every session that selects its class. -/
def eventClass (s : State) (cls code : Nat) (data : List Byte) : State :=
  (s.sessions.filter fun x => x.2.mask.toNat.testBit cls).foldl (fun s x => eventPut s x.1 cls code data) s

/-- The data of a watch's EVENT. -/
def watchData (w : Watch) (v : List Byte) : List Byte := leBytes 2 w.idx.toNat ++ leBytes 1 w.sub.toNat ++ [0] ++ v.take 61

/-- A watch whose value differs from that of its last EVENT, at most once per 1 ms. -/
def watchDue (s : State) (w : Watch) (v : List Byte) : Bool :=
  decide (v ≠ w.value) && match w.sentAt with
    | some t => decide (t + 16000000 ≤ now s)
    | none => true

/-- EVENT_SEND (R427, R456): an EVENT of a class that the session selects; for class 7 the code is the position of a watch whose value has changed. -/
def execEventSend (session : Fin 17) (cls : BitVec 16) (code : BitVec 16) (data : List Byte) (s : State) : Answer :=
  match sessionOf s session.val with
  | none => answer s
  | some x =>
    if !(decide (cls.toNat < 8) && x.mask.toNat.testBit cls.toNat) then answer s
    else if cls.toNat ≠ 7 then answer (eventPut s session.val cls.toNat code.toNat data)
    else match x.watches[code.toNat]? with
      | none => answer s
      | some w =>
        let v := objValue s w.idx.toNat w.sub.toNat
        guarded (watchDue s w v) s
          (modSession (eventPut s session.val 7 code.toNat (watchData w v)) session.val fun x =>
            { x with watches := x.watches.set code.toNat { w with value := v, sentAt := some (now s) } })

/-- EVENT_RESEND (R427): an EVENT unanswered for 10 ms is sent again, up to 8 times; then it is dropped and counted. -/
def execEventResend (session : Fin 17) (seq : BitVec 32) (s : State) : Answer :=
  match sessionOf s session.val with
  | none => answer s
  | some x => match x.events.find? fun e => decide (e.seq = seq) with
    | none => answer s
    | some e =>
      guarded (decide (e.sentAt + 160000000 ≤ now s)) s
        (if e.tries < 8 then
           emit (setSession s session.val { x with events := x.events.map fun e => if e.seq = seq then { e with sentAt := now s, tries := e.tries + 1 } else e })
             (.odpEvent session.val seq e.payload)
         else dcount (setSession s session.val { x with events := x.events.filter (fun e => decide (e.seq ≠ seq)), lost := x.lost + 1 }) 0x1210 0x11 8 1)

/-! ## The error log (R546, R547, R551) -/

/-- Whether a record folds into the newest entry. -/
def logFolds (l : ErrLog) (r : ErrRecord) : Bool :=
  let e := mget logNone l.entries ((l.next + 4095) % 4096)
  decide (0 < l.held ∧ e.record.kind = r.kind ∧ e.record.unit = r.unit ∧ e.record.region = r.region ∧ r.time ≤ e.record.time + 16000000)

/-- The log after a record. -/
def logPut (l : ErrLog) (r : ErrRecord) : ErrLog :=
  let cls := recordClasses r.kind.toNat r.body
  let counts := (List.range 8).map fun i => (l.counts.getD i 0 + boolNat (cls.testBit i)) % 2 ^ 64
  let l := { l with records := l.records + 1, counts := counts }
  if logFolds l r then
    let at_ := (l.next + 4095) % 4096
    let e := mget logNone l.entries at_
    { l with entries := mset logNone l.entries at_ { e with repeats := min 255 (e.repeats + 1) } }
  else
    { l with entries := mset logNone l.entries l.next { record := r, seq := l.made, classes := BitVec.ofNat 8 cls, repeats := 0 },
             held := min 4096 (l.held + 1), next := (l.next + 1) % 4096, made := l.made + 1 }

/-- ERROR_LOG_MOVE (R546): the oldest record of the error block goes to the log, and the EVENTs of class 0 are sent; their code is the record's kind (log entry 40). -/
def execErrorLogMove (s : State) : Answer :=
  match s.errBuf with
  | [] => answer s
  | r :: rest =>
    let s : State := { s with errBuf := rest, errLog := logPut s.errLog r }
    let e := { record := r, seq := s.errLog.made - 1, classes := BitVec.ofNat 8 (recordClasses r.kind.toNat r.body), repeats := 0 }
    answer (eventClass s 0 r.kind.toNat (logBytes e))

/-- A write of 1 to 0x5000:06. -/
def errLogCleared (s : State) : State := { s with errLog := { s.errLog with entries := [], held := 0, next := 0 } }

/-- A write of 1 to 0x1200:05. -/
def vLogCleared (s : State) : State := { s with vlog := { s.vlog with entries := [], held := 0, next := 0 } }

/-! ## Host ports (R403 to R405, R451) -/

def portNo : HostPort → Nat
  | .hp0 => 0
  | .hp1 => 1
  | .mp => 2

/-- Whether frames pass through a port. -/
def portUp (s : State) (p : Nat) : Bool := (portOf s p).up && portOn s p

/-- The port a response leaves by: that of its request, or the surviving host port (R407). -/
def outPort (s : State) (p : HostPort) : Option HostPort :=
  if portUp s (portNo p) then some p
  else match p with
    | .hp0 => if portUp s 1 then some .hp1 else none
    | .hp1 => if portUp s 0 then some .hp0 else none
    | .mp => none

/-- The pair address goes with the front's ports (R507). -/
def announcePair (s : State) (p : Nat) : State :=
  if s.twin.front ∧ (dnum s 0x4800 0x06 ≠ 0 ∨ dget s 0x4800 0x07 ≠ zeros 16) then
    emit s (.announceAddr p (dget s 0x4800 0x06) (dget s 0x4800 0x07)) else s

/-- The addresses of port `of_` announced on port `p`. -/
def announcePort (s : State) (p of_ : Nat) : State := emit s (.announceAddr p (dget s (0x1100 + of_) 0x04) (dget s (0x1100 + of_) 0x05))

/-- The surviving port takes over the failed port's addresses and announces them. -/
def takeOver (s : State) (q p : Nat) : State :=
  let s := setPort s q { portOf s q with carries := true }
  let s := setPort s p { portOf s p with movedAway := true }
  announcePort (dcount s (0x1100 + q) 0x15 4 1) q p

/-- A host port goes DOWN; what it carried for the other port is carried no more. -/
def portFail (s : State) (p : Nat) : State :=
  let q := 1 - p
  let s := setPort s p { portOf s p with up := false, carries := false, training := false, upSince := none, faultSince := some (now s) }
  let s := setPort s q { portOf s q with movedAway := false }
  if portUp s q then takeOver s q p else s

/-- PORT_DOWN (R403): a host port in fault for 1 ms. -/
def execPortDown (port : Fin 2) (s : State) : Answer := guarded ((portOf s port.val).up) s (portFail s port.val)

/-- PORT_RESTORE (R405): a failed port that has been up for 1 s takes its addresses back. -/
def execPortRestore (port : Fin 2) (s : State) : Answer :=
  let p := port.val
  let x := portOf s p
  let long := match x.upSince with
    | some t => decide (t + 16000000000 ≤ now s)
    | none => false
  guarded (x.up && x.movedAway && long) s
    (let s := setPort s p { x with movedAway := false, faultSince := none }
     let s := setPort s (1 - p) { portOf s (1 - p) with carries := false }
     announcePort s p p)

/-- HOST_PORT_UP (R403, R405): a port's training completes or its fault clears. A port that comes up while the other has failed and nothing carries its addresses takes them over. -/
def execHostPortUp (port : Fin 3) (s : State) : Answer :=
  let p := port.val
  let x := portOf s p
  guarded (portOn s p && !x.up && (x.training || x.faultSince.isSome)) s
    (let s := setPort s p { x with up := true, training := false, upSince := some (now s), faultSince := if x.movedAway then x.faultSince else none }
     let q := 1 - p
     if p = 2 then s
     else
       let s := if x.movedAway then s else announcePair (announcePort s p p) p
       if !portUp s q && (portOf s q).faultSince.isSome && !(portOf s q).movedAway then takeOver s p q else s)

/-- Whether a write of 0 to a port's enable leaves an enabled port UP (R451). -/
def portMayStop (s : State) (p : Nat) : Bool := (List.range 3).any fun q => decide (q ≠ p) && portUp s q

/-- A write of 0x1100 + p:02 applied: 0 takes the port DOWN, 1 starts its training. -/
def portEnableApply (s : State) (p v : Nat) : State :=
  let was := portOn s p
  let s := dputNum s (0x1100 + p) 0x02 1 v
  if v = 0 then (if p = 2 then setPort s 2 { portOf s 2 with up := false, training := false } else portFail s p)
  else if was then s else setPort s p { portOf s p with training := true }

/-- A write of a port's address while the other port carries it: announced at once (R451). -/
def addressWritten (s : State) (p : Nat) : State :=
  if p < 2 ∧ (portOf s p).movedAway then announcePort s (1 - p) p else s

/-- PFC_PAUSE_FRAME (R401): pause is honoured on all 8 priorities. -/
def execPfcPauseFrame (port : Fin 2) (priorities : BitVec 8) (s : State) : Answer :=
  guarded (portUp s port.val) s
    (dcount (setPort s port.val { portOf s port.val with paused := priorities }) (0x1100 + port.val) 0x13 8 1)

/-! ## Queue pairs (R419, R420) -/

/-- CONNECTION_REQUEST (R419): bound to the session whose number and token the private data carries; 64 to a session, 1,024 in all. -/
def execConnectionRequest (qp : BitVec 24) (session : BitVec 16) (token : BitVec 32) (s : State) : Answer :=
  let ok := match sessionOf s session.toNat with
    | some x => decide (x.token = token ∧ (sessionQps s session.toNat).length < 64 ∧ s.qps.length < 1024 ∧ qpOf s qp.toNat = QueuePair.none)
    | none => false
  answer (if ok then setQp s qp.toNat { session := session.toNat, error := false, retries := 0 } else emit s (.roceReject qp.toNat))

/-- The rings of a queue pair. -/
def qpRings (s : State) (qp : Nat) : List Nat :=
  (s.rings.filter fun r => decide (r.2.desc.qp.toNat = qp ∧ r.1 / 16 + 1 = (qpOf s qp).session)).map (·.1)

/-- Entries that a ring still holds, discarded and logged one by one. -/
def discardDue (s : State) (ring : Nat) : State :=
  let r := ringOf s ring
  r.due.foldl (fun s _ => vlogRoce s (ring / 16 + 1) r.desc.qp.toNat) (setRing s ring { r with due := [], bad := true })

/-- A queue pair enters the error state (R420): its rings go inactive, what they hold is discarded, and image loads and orders on it fail. -/
def qpError (s : State) (qp : Nat) : State :=
  let n := (qpOf s qp).session
  let data := decide (dataQp s n = some qp)
  let rings := qpRings s qp
  let s := failImages (setQp s qp { qpOf s qp with error := true }) qp
  let s := rings.foldl discardDue s
  let reads := (s.orders.filter fun o => data && decide (o.session = n ∧ o.state = .pending) && !o.landed).map (·.tag)
  let results := (s.orders.filter fun o => o.isOpen && rings.contains (recRing o.record)).map (·.tag)
  let close (status : Nat) (s : State) (t : BitVec 32) : State := match findOrder s t with
    | some o => closeOrder s o status o.latestStep 0 false
    | none => s
  results.foldl (close 0x31) (reads.foldl (close 0x30) s)

/-- RDMA_RETRY_TIMEOUT (R420): a retry, or, when seven are used up, the error state. -/
def execRdmaRetryTimeout (qp : BitVec 24) (s : State) : Answer :=
  let q := qpOf s qp.toNat
  guarded (decide (q ≠ QueuePair.none) && !q.error) s
    (if q.retries < 7 then setQp s qp.toNat { q with retries := q.retries + 1 } else qpError s qp.toNat)

/-- RDMA_ERROR_NAK (R420): the operation ends at once and its queue pair enters the error state. -/
def execRdmaErrorNak (qp : BitVec 24) (s : State) : Answer :=
  let q := qpOf s qp.toNat
  guarded (decide (q ≠ QueuePair.none) && !q.error) s (qpError s qp.toNat)

/-! ## The close of a session (R415, R443, R488, R512) -/

/-- A SESSION message about a pair session: number, open, role, token, low edge, rings and their entry counts. -/
def sessionMessage (s : State) (n : Nat) (opened : Bool) : State := match sessionOf s n with
  | none => s
  | some x =>
    if x.pair && s.twin.front && !twinSolo s then
      emit s (.twin 0x31 s.journal.epoch (leBytes 1 n ++ leBytes 1 (boolNat opened) ++ leBytes 1 x.role ++ leBytes 4 x.token.toNat ++ leBytes 4 x.low.toNat ++
        x.rings.zipIdx.flatMap fun (d, i) => leBytes 8 d.addr.toNat ++ leBytes 4 d.key.toNat ++ leBytes 4 d.entries ++ leBytes 8 d.consumer.toNat ++
          leBytes 3 d.qp.toNat ++ zeros 5 ++ leBytes 8 (ringOf s (16 * (n - 1) + i)).written))
    else s

/-- RESULT_WRITE (R424): the data of the oldest held entry, then the entry with its generation bit, while n − consumer < E; the partner learns a pair session's counts (R512). -/
def execResultWrite (ring : Nat) (s : State) : Answer :=
  let r := ringOf s ring
  match r.due with
  | [] => answer s
  | (entry, data) :: rest =>
    let e := r.desc.entries
    guarded (decide (r.written - r.consumer < e) && !r.bad && qpOk s r.desc.qp.toNat) s
      (let qp := r.desc.qp.toNat
       let s := data.foldl (fun s d => emit s (.rdmaWrite qp (BitVec.ofNat 64 d.1) (BitVec.ofNat 32 d.2.1) d.2.2)) s
       let gen := if r.written / e % 2 = 0 then 0x80 else 0
       let s := emit s (.rdmaWrite qp (r.desc.addr + BitVec.ofNat 64 (32 * (r.written % e))) r.desc.key (splice entry 31 [gen]))
       sessionMessage (setRing s ring { r with due := rest, written := r.written + 1 }) (ring / 16 + 1) true)

/-- The open orders that name a ring of the session. -/
def sessionOrders (s : State) (n : Nat) : List Order := s.orders.filter fun o => o.isOpen && decide (recRing o.record / 16 + 1 = n ∧ o.session < 100) && !o.shadowOnly

/-- A session closes: its open orders are cancelled as if by CANCEL and journaled so, its requests and snapshots go, its queue pairs are disconnected and its rings are gone. A request already journaled still takes effect, unanswered. -/
def closeSession (s : State) (n : Nat) : State := match sessionOf s n with
  | none => s
  | some x =>
    let s := sessionMessage s n false
    let s := (sessionOrders s n).foldl (fun s o => cancelApply (cancelJournal s o.tag 1) o.tag) s
    let s := if x.role = 1 then masterReset s 3 else s
    let mine (r : Nat) : Bool := decide (r / 16 + 1 = n)
    { s with sessions := s.sessions.filter (fun y => decide (y.1 ≠ n)),
             rings := s.rings.filter (fun r => !mine r.1),
             qps := s.qps.filter (fun q => decide (q.2.session ≠ n)),
             deferred := s.deferred.map fun d => if d.session = n then { d with session := 0 } else d }

/-- KEEPALIVE_EXPIRY (R415): no frame from the host within the keepalive. -/
def execKeepaliveExpiry (session : Fin 17) (s : State) : Answer := match sessionOf s session.val with
  | none => answer s
  | some x => guarded (decide (x.lastFrame + x.keepalive * 16000000 ≤ now s)) s (closeSession s session.val)

/-- BLOCK_WRITE_TIMEOUT (R414): a transfer without its next segment for 1 s is discarded. -/
def execBlockWriteTimeout (session : Fin 17) (s : State) : Answer := match sessionOf s session.val with
  | none => answer s
  | some x =>
    answer (setSession s session.val { x with transfers := x.transfers.filter fun t => decide (now s < t.last + 16000000000) })

/-- SNAPSHOT_EXPIRY (R443): a snapshot unused for 1 s is dropped. -/
def execSnapshotExpiry (session : Fin 17) (s : State) : Answer := match sessionOf s session.val with
  | none => answer s
  | some x =>
    let old := match x.snapshot with
      | some t => decide (t.used + 16000000000 ≤ now s)
      | none => false
    guarded old s (setSession s session.val { x with snapshot := none })

end Sys2Proof.Machine
end

