-- ==== Sys2Proof/Machine/Fabric.lean ====
section
/-! DEFINITION. Fabric and twin links, the relay, apertures, reduction trees and control packets (R492 to R505, R596). -/
namespace Sys2Proof.Machine
open Sys2Proof

/-! ## Links (R493, R494) -/

/-- Whether a link has its spare lane: a module has it only where it offers a fifth host lane (R565). -/
def spareLane (s : State) (i : Nat) : Bool := decide ((linkOf s i).media ≠ 3 ∨ dnum s (0x7022 + i) 0x04 = 5)

/-- The result of a training: which lanes are in use is open where only their number is given (log entry 42). -/
def trainedLanes (s : State) (i good : Nat) : Nat × State :=
  if 5 ≤ good ∨ (good = 4 ∧ !spareLane s i) then (0x0F, s)
  else if good = 4 then
    let (w, s) := freeWord s
    (0x1F - 2 ^ (w.toNat % 5), s)
  else if 2 ≤ good then
    let (w, s) := freeWord s
    let a := w.toNat % 5
    (2 ^ a + 2 ^ ((a + 1 + w.toNat / 8 % 4) % 5), s)
  else (0, s)

def linkRecord (s : State) (kind i lanes : Nat) : State := record s kind 0xFF 0xFFFF i (leBytes 4 i ++ leBytes 4 lanes ++ leBytes 4 0)

/-- A link takes a state and lanes; DOWN and DEGRADED are recorded (R493). -/
def linkTo (s : State) (i st lanes : Nat) : State :=
  let s := setLink s i { linkOf s i with st := st, lanes := BitVec.ofNat 5 lanes }
  if st = 0 then linkRecord s 0x0601 i 0 else if st = 3 then linkRecord s 0x0602 i lanes else s

/-- Whether the board declares a link, with a module that is present and suitable where its media is one (R563, R565). -/
def linkDeclared (s : State) (i : Nat) : Bool :=
  decide ((linkOf s i).media = 1 ∨ (linkOf s i).media = 2 ∨ ((linkOf s i).media = 3 ∧ dnum s (0x7022 + i) 0x01 = 2))

/-- A link may train: enabled, declared, and for a twin link its cable is present (R494). -/
def linkMayTrain (s : State) (i : Nat) : Bool :=
  decide (dnum s (0x4400 + i) 0x02 = 1) && linkDeclared s i && (decide (i < 16) || (linkOf s i).twinPresent)

def linkTrain (s : State) (i : Nat) : State :=
  if linkMayTrain s i then setLink s i { linkOf s i with st := 1, lanes := 0 } else s

/-- A link in service goes for retraining: it is a maintenance activity, counted in :0E, and the link is DOWN meanwhile (R494). -/
def linkRetrain (s : State) (i : Nat) : State := queueMaint s 7 i 0 0 false 0

/-- The retraining begins. -/
def linkRetrainBegin (s : State) (i : Nat) : State :=
  dcount (setLink s i { linkOf s i with st := 1, lanes := 0 }) (0x4400 + i) 0x0E 4 1

/-- A HELLO as this member sends it (R506). -/
def helloBytes (s : State) : List Byte :=
  leBytes 1 serial24.length ++ serial24 ++ slice (dget s 0x1000 0x07) 0 72 ++ leBytes 1 (dnum s 0x3600 0x02) ++ dget s 0x3600 0x03 ++
    leBytes 1 (dnum s 0x4800 0x01) ++ leBytes 1 (boolNat s.twin.front)

def sendHello (s : State) : State := emit s (.twin 0x01 s.journal.epoch (helloBytes s))

/-- A training ends with so many good lanes (R493). The peer's identifier and port come with the link: free values (log entry 42). A HELLO follows on a twin link, which is no longer excluded (R506). -/
def linkTrained (s : State) (i goodLanes : Nat) : State :=
  let (lanes, s) := trainedLanes s i goodLanes
  let st := if 4 ≤ goodLanes then 2 else if 2 ≤ goodLanes then 3 else 0
  let s := linkTo s i st lanes
  let s := setLink s i { linkOf s i with resends := 0 }
  let s : State := { s with maint := s.maint.filter fun m => decide (m.activity ≠ 7 ∨ m.scope ≠ i ∨ m.running = false) }
  if st = 0 then s
  else
    let (w, s) := freeWord s
    let s := dputNum (dputNum s (0x4400 + i) 0x05 2 (w.toNat % 1024)) (0x4400 + i) 0x06 1 (w.toNat / 1024 % 18)
    let s := drainPort s i
    if i < 16 then s else sendHello { s with twin := { s.twin with excluded := s.twin.excluded.filter fun l => decide (l ≠ i - 16) } }

/-- LINK_TRAINING_DONE (R493). -/
def execLinkTrainingDone (link : LinkId) (goodLanes : Nat) (s : State) : Answer :=
  guarded (decide ((linkOf s link.val).st = 1)) s (linkTrained s link.val goodLanes)

/-- LINK_RETRAIN (R494): a lane loses lock, or too many codewords are uncorrectable. -/
def execLinkRetrain (link : LinkId) (s : State) : Answer := guarded (linkUsable s link.val) s (linkRetrain s link.val)

/-- A write of 0x4400 + i:02 applied. -/
def linkEnableApply (s : State) (i v : Nat) : State :=
  let s := dputNum s (0x4400 + i) 0x02 1 v
  if v = 0 then setLink s i { linkOf s i with st := 4, lanes := 0 }
  else if (linkOf s i).st = 4 ∨ (linkOf s i).st = 0 then linkTrain s i else s

/-! ## The link layer (R496) -/

/-- Whether `a` is at or before `b` among link sequences. -/
def linkSeqLe (a b : Nat) : Bool := decide ((b + 2 ^ 32 - a) % 2 ^ 32 < 2 ^ 31)

/-- What the far end acknowledges leaves the replay buffer; a new oldest packet starts its resend count anew. -/
def linkAcked (l : Link) (ack : Nat) : Link :=
  let left := l.replay.filter fun p => !linkSeqLe p.1.linkSeq ack
  { l with replay := left, resends := if left.length = l.replay.length then l.resends else 0 }

/-- FABRIC_CRC_ERROR (R496): the packet is discarded; the sequence expected stays, so that every later packet is discarded too. -/
def execFabricCrcError (_link : LinkId) (s : State) : Answer := answer s

/-- FABRIC_RESEND_TIMEOUT (R496): the oldest unacknowledged packet has waited 2 µs, and the sender goes back to it; a packet resent 8 times triggers a retrain. -/
def execFabricResendTimeout (link : LinkId) (s : State) : Answer :=
  let i := link.val
  let l := linkOf s i
  match l.replay with
  | [] => answer s
  | (p, t) :: _ =>
    guarded (linkUsable s i && decide (t + 32000 ≤ now s)) s
      (let s := setLink s i { l with replay := l.replay.map (fun x => (x.1, now s)), resends := l.resends + 1 }
       let s := emit (dcount s (0x4400 + i) 0x0A 8 1) (.fabricResend i p.linkSeq)
       if l.resends + 1 = 8 then linkRetrain s i else s)

/-- FRAME_AUTH_FAIL (R596): discarded like a CRC error; 8 in a row take the link DOWN with a KEY_MISMATCH record. -/
def execFrameAuthFail (link : LinkId) (s : State) : Answer :=
  let i := link.val
  let n := mget 0 s.sec.authFails i + 1
  guarded (linkUsable s i && keyed s (2 + i)) s
    (let s : State := { s with sec := { s.sec with authFails := mset 0 s.sec.authFails i n } }
     if n < 8 then s else record (linkTo s i 0 0) 0x0907 0xFF 0xFFFF i (leBytes 4 i))

/-! ## The relay (R498, R499) -/

/-- An ACK or READ_RESP to the source of a packet. -/
def fabAnswer (s : State) (p : FabPacket) (status : Nat) (payload : List Byte) (poison : BitVec 64) : State :=
  (relaySend s (fabReply s p status payload poison)).1

/-- A packet routed on; without a usable port it is dropped, and the source of a request is answered with REMOTE_ERROR. -/
def relayOn (s : State) (p : FabPacket) : State :=
  let (s, ok) := relaySend s p
  if ok ∨ (p.kind ≠ 0 ∧ p.kind ≠ 1 ∧ p.kind ≠ 4) then s else fabAnswer s p 0x0B [] 0

/-- RELAY_FORWARD (R495 to R499): a packet from a link, in its order, or from the local port 18. What it acknowledges leaves the link's replay buffer, and the link sends on. -/
def execRelayForward (port : Fin 19) (p : FabPacket) (s : State) : Answer :=
  let i := port.val
  if i = 18 then answer (relayOn s p)
  else
    let l := linkOf s i
    guarded (linkUsable s i && decide (p.linkSeq = (l.expectSeq + 1) % 2 ^ 32)) s
      (let s := drainPort (setLink s i (linkAcked { l with expectSeq := p.linkSeq } p.linkAck)) i
       let s : State := { s with sec := { s.sec with authFails := mset 0 s.sec.authFails i 0 } }
       relayOn (dcount s (0x4400 + i) 0x0C 8 1) p)

/-- FABRIC_LINK_REROUTE (R499): the unacknowledged packets of a link that is DOWN, and those that wait behind them, go to their alternate ports. -/
def execFabricLinkReroute (link : LinkId) (s : State) : Answer :=
  let i := link.val
  let l := linkOf s i
  guarded (!linkUsable s i && !(l.replay.isEmpty && l.queue.isEmpty)) s (moveLink (fun _ => true) (setLink s i { l with resends := 0 }) i)

/-! ## Apertures (R501) -/

def apEntry (s : State) (p : FabPacket) : List Byte := slice (dget s 0x4400 0x22) (32 * p.aperture.val) 32
def apBase (e : List Byte) : Nat := leAt e 0 8
def apLen (e : List Byte) : Nat := leAt e 8 8
def apKind (e : List Byte) : Nat := leAt e 16 1
def apRights (e : List Byte) : Nat := leAt e 17 1
def apRegion (e : List Byte) : Nat := leAt e 18 1
def apSources (e : List Byte) : Nat := leAt e 19 1
def apTree (e : List Byte) : Nat := leAt e 20 1

/-- Whether the twin partner is known by its fabric identifier. -/
def fromPartner (s : State) (src : BitVec 10) : Bool :=
  decide (s.twin.partnerFabric.toNat = src.toNat ∧ s.twin.st ≠ .solo ∧ s.twin.lastBeat ≠ 0)

/-- Whether a region admits fabric accesses. -/
def regionAdmits (s : State) (r : Nat) : Bool := match (regionOf s r).state with
  | .ready => true
  | .serving => true
  | .draining => true
  | _ => false

/-- Whether an aperture admits an access of `n` bytes from a source with a right (0 read, 1 write). -/
def apAdmits (s : State) (e : List Byte) (src : BitVec 10) (offset n right : Nat) : Bool :=
  decide (apKind e ≠ 0 ∧ apKind e ≤ 2 ∧ offset + n ≤ apLen e) && (apRights e).testBit right &&
    (decide (apSources e = 0) || (decide (apSources e = 1) && fromPartner s src)) &&
    (decide (apRegion e = 0xFF) || (decide (apRegion e < 64) && regionAdmits s (apRegion e)))

/-- A refused access: counted, and answered with REMOTE_ERROR. -/
def apRefused (s : State) (p : FabPacket) : State := fabAnswer (dcount s 0x4400 0x28 8 1) p 0x0B [] 0

/-- The master identity of the link over which a source is reached (R467; log entry 43); none for the device itself. -/
def fabMaster (s : State) (src : BitVec 10) : Nat := match relayPort s src.toNat with
  | some i => if i < 18 then 0x082 + i else 0x3FF
  | none => 0x3FF

/-- A fabric access as a source of R160, R200 and R269: no region's window scope admits it, and field memory is judged by the aperture's class. `again` says that an earlier row of its packet was refused (R163). -/
def fabSrc (s : State) (e : List Byte) (src : BitVec 10) (a : Nat) (again : Bool) : Src :=
  ⟨none, fabMaster s src, match targetOf s a with
    | .tile _ _ => 0xFF
    | _ => apRegion e, 7, again⟩

/-- One row of a payload written: scratchpad and field memory take whole rows (R142, R199), HBM whole sectors. -/
def fabWriteRow (s : State) (src : Src) (a : Nat) (part : List Byte) (tags : BitVec 8) (events : List RowEvent) (found : HbmFind) : State × Nat :=
  match targetOf s a with
  | .hbm => if a % 512 = 0 then hbmRowWrite s a src part tags found else (s, 0x0B)
  | _ => if part.length = 512 then rowWriteAt s a src events part tags found else (s, 0x0B)

/-- A payload written from an address on, row by row: the first status that is not OK. -/
def fabWriteRows (s : State) (e : List Byte) (src : BitVec 10) (a : Nat) (payload : List Byte) (poison : Nat) (events : List RowEvent)
    (found : List HbmFind) (again : Bool) : Nat → State × Nat
  | 0 => (s, 0)
  | n + 1 =>
    let (s, st) := fabWriteRow s (fabSrc s e src a again) a (payload.take 512) (BitVec.ofNat 8 poison) events (found.headD .clean)
    let (s, st') := fabWriteRows s e src (a + 512) (payload.drop 512) (poison / 256) events found.tail (again || decide (st = 0x0A)) n
    (s, if st = 0 then st' else st)

/-- The tile that a span of an aperture lies in. -/
def spanTile (s : State) (a : Nat) : Option Nat := match targetOf s a with
  | .tile x _ => some x
  | _ => none

/-- RSEM at the target: the tile that received the rows is signalled; in any other memory no signal is made and the PUT ends with REMOTE_ERROR (R500). -/
def fabSignal (s : State) (src : BitVec 10) (a sem status : Nat) : State × Nat :=
  if sem = 0x3F ∨ status ≠ 0 then (s, status)
  else match spanTile s a with
    | some x =>
      if sem < 48 && syncEnabled s x then
        let m := BitVec.ofNat 10 (fabMaster s src)
        (semSignal s x sem 1 { time := now s, source := 0xFFF, master := m, path := 8, ord := false, units := 1 }, 0)
      else (s, 0x0B)
    | none => (s, 0x0B)

/-- A payload written through a memory aperture, with its signal: the status. -/
def apWrite (s : State) (e : List Byte) (src : BitVec 10) (offset : Nat) (payload : List Byte) (poison sem : Nat) (events : List RowEvent)
    (found : List HbmFind) : State × Nat :=
  let a := apBase e + offset
  let rows := ceilDiv payload.length 512
  let (s, st) := fabWriteRows s e src a payload poison events found false rows
  fabSignal s src (a + 512 * (rows - 1)) sem st

/-- Whether an access through an aperture waits for a stack that retrains (R262). -/
def apHolds (s : State) (e : List Byte) (offset n : Nat) : Bool :=
  decide (apKind e = 1) && (List.range (ceilDiv n 512)).any fun i => stackHolds s (apBase e + offset + 512 * i)

/-! ## Reduction trees (R503) -/

def treeEntry (s : State) (t : Nat) : List Byte := slice (dget s 0x4400 0x23) (32 * t) 32
def treeParent (e : List Byte) : Nat := leAt e 0 1
def treeCount (e : List Byte) : Nat := leAt e 1 1
def treeChildren (e : List Byte) : List Nat := (List.range (treeCount e)).map fun i => leAt e (2 + i) 1

/-- Whether an entry is a tree that R503 defines: no reserved count, port, aperture or semaphore (R16). A contribution to any other is refused (DESIGN CHOICE, log entry 152). -/
def treeValid (e : List Byte) : Bool :=
  decide (treeCount e ≤ 8) && (treeChildren e).all (fun p => decide (p < 18)) &&
    (if treeParent e = 0x1F then decide (leAt e 10 1 < 16 ∧ (leAt e 11 1 < 48 ∨ leAt e 11 1 = 0x3F)) else decide (treeParent e < 18))

/-- Two payloads added element by element. -/
def addRows (a b : List Byte) : List Byte :=
  (List.range (a.length / 4)).flatMap fun i => leBytes 4 (addFP32 (leAt a (4 * i) 4) (leAt b (4 * i) 4))

/-- The contributions in order: the local one first, then the children in entry order. -/
def treeSum (e : List Byte) (r : Reduction) : List Byte × BitVec 64 :=
  let parts := (18 :: treeChildren e).filterMap fun p => r.contributions.find? fun c => decide (c.1 = p)
  match parts with
  | [] => ([], 0)
  | c :: cs => (cs.foldl (fun a x => addRows a x.2.1) c.2.1, cs.foldl (fun a x => a ||| x.2.2) c.2.2)

/-- Whether every contribution of a row has come. -/
def treeComplete (e : List Byte) (r : Reduction) : Bool := (18 :: treeChildren e).all fun p => r.contributions.any fun c => decide (c.1 = p)

/-- The sum goes to the parent as REDUCE, or at the root into its aperture with its semaphore, meeting `events` and `found` there. The root's own write is judged by R501 as any other (DEDUCED, log entry 156). -/
def treeDeliver (s : State) (t : Nat) (e : List Byte) (r : Reduction) (events : List RowEvent) (found : List HbmFind) : State :=
  let (sum, poison) := treeSum e r
  if treeParent e = 0x1F then
    let ap : List Byte := slice (dget s 0x4400 0x22) (32 * leAt e 10 1) 32
    let own := BitVec.ofNat 10 (fabricId s)
    if apAdmits s ap own r.offset sum.length 1 then (apWrite s ap own r.offset sum poison.toNat (leAt e 11 1) events found).1
    else dcount s 0x4400 0x28 8 1
  else
    let p : FabPacket :=
      { dst := BitVec.ofNat 10 (dnum s (0x4400 + treeParent e) 0x05), src := BitVec.ofNat 10 (fabricId s), kind := 4, channel := 1,
        aperture := ⟨t % 16, Nat.mod_lt _ (by decide)⟩, sem := 0x3F, generation := r.gen, offset := r.offset, transaction := 0,
        poison := poison, status := 0, payload := sum, linkSeq := 0, linkAck := 0 }
    if linkUsable s (treeParent e) then linkSend s (treeParent e) p else dcount s 0x4400 0x27 8 1

/-- A contribution from a port (18 is the local one) to a row and generation of a tree. -/
def treeAdd (s : State) (t port offset : Nat) (gen : BitVec 16) (payload : List Byte) (poison : BitVec 64) (events : List RowEvent)
    (found : List HbmFind) : State :=
  let e := treeEntry s t
  let here (r : Reduction) : Bool := decide (r.tree = t ∧ r.offset = offset ∧ r.gen = gen)
  let r : Reduction := (s.reductions.find? here).getD { tree := t, offset := offset, gen := gen, contributions := [], since := now s }
  if r.contributions.any fun c => decide (c.1 = port) then s
  else
    let r := { r with contributions := r.contributions ++ [(port, payload, poison)] }
    let others := s.reductions.filter fun x => !here x
    if treeComplete e r then treeDeliver { s with reductions := others } t e r events found else { s with reductions := others ++ [r] }

/-- The generation of the next local contribution at a row: they are counted (log entry 44). -/
def localGen (s : State) (t offset : Nat) : State × BitVec 16 :=
  let k := t * 2 ^ 32 + offset
  let n := mget 0 s.redGens k
  ({ s with redGens := mset 0 s.redGens k (n + 1) }, BitVec.ofNat 16 n)

/-- FABRIC_WRITE (R500, R501, R503): a WRITE at its aperture lands, contributes to a tree, or is refused; it waits for an HBM stack that retrains (R262). -/
def execFabricWrite (a : FabArrival) (s : State) : Answer :=
  let p := a.packet
  let e := apEntry s p
  let n := p.payload.length
  let ok := apAdmits s e p.src p.offset n 1
  guarded (decide (p.kind = 0 ∧ p.dst.toNat = fabricId s ∧ n ≠ 0 ∧ n % 64 = 0 ∧ n ≤ 4096) && !(ok && apHolds s e p.offset n)) s
    (if !ok then apRefused s p
     else if apKind e = 2 then
       if profileExtended s && decide (p.src.toNat = fabricId s ∧ apTree e < 16) && treeValid (treeEntry s (apTree e)) then
         let (s, g) := localGen s (apTree e) p.offset
         fabAnswer (treeAdd s (apTree e) 18 p.offset g p.payload p.poison a.events a.found) p 0 [] 0
       else apRefused s p
     else
       let (s, st) := apWrite s e p.src p.offset p.payload p.poison.toNat p.sem.toNat a.events a.found
       fabAnswer s p st [] 0)

/-- READ_REQ (R501): one row is read through the aperture; it waits for an HBM stack that retrains (R262). -/
def execReadReq (a : FabArrival) (s : State) : Answer :=
  let p := a.packet
  let e := apEntry s p
  let ok := apAdmits s e p.src p.offset 512 0 && decide (apKind e = 1)
  guarded (decide (p.kind = 1 ∧ p.dst.toNat = fabricId s) && !(ok && apHolds s e p.offset 512)) s
    (if !ok then apRefused s p
     else
       let addr := apBase e + p.offset
       let (s, r) := rowReadAt s addr (fabSrc s e p.src addr false) a.events (a.found.headD .clean)
       if r.status = 0 then fabAnswer s p 0 r.data (r.tags.zeroExtend 64) else fabAnswer s p r.status [] 0)

/-- The site that a transaction field names (log entry 21). -/
def transactionSite (s : State) (t : BitVec 64) : Option Site :=
  let name := t.toNat / 2 ^ 16 % 2 ^ 16
  let x := if 0x1000 ≤ name then some (name - 0x1000) else siteOfLt s name
  match x with
  | some x => if h : x < 3072 then some ⟨x, h⟩ else none
  | none => none

/-- An ACK or READ_RESP at the move that awaits it; the row that lands meets `events`. -/
def fabAnswered (s : State) (p : FabPacket) (events : List RowEvent) : State :=
  match transactionSite s p.transaction with
  | none => s
  | some site =>
    let seq := BitVec.ofNat 16 p.transaction.toNat
    let i := p.transaction.toNat / 2 ^ 32
    match findMove s site.val seq, moveEntry s site.val seq with
    | some m, some e =>
      if m.pending.contains i && decide (addrRange (moveAddr s site.val e.desc) = some 4) then
        let m := { m with pending := m.pending.filter fun j => decide (j ≠ i) }
        let (s, m) := moveAnswered s site.val e m (moveAddr s site.val e.desc) i events p.status p.payload (BitVec.ofNat 8 p.poison.toNat)
        moveSettle s site e m false
      else s
    | _, _ => s

/-- READ_RESP (R500): rows of a GET land. -/
def execReadResp (a : FabArrival) (s : State) : Answer :=
  guarded (decide (a.packet.kind = 2 ∧ a.packet.dst.toNat = fabricId s)) s (fabAnswered s a.packet a.events)

/-- FABRIC_ACK (R500): rows of a PUT are acknowledged. -/
def execFabricAck (p : FabPacket) (s : State) : Answer :=
  guarded (decide (p.kind = 3 ∧ p.dst.toNat = fabricId s)) s (fabAnswered s p [])

/-- REDUCE (R502, R503): a child's contribution; outside the extended profile, to no valid tree, or from a port that is no child, it is refused. -/
def execReduce (tree : Fin 16) (port : Fin 19) (a : FabArrival) (s : State) : Answer :=
  let p := a.packet
  guarded (decide (p.kind = 4)) s
    (if profileExtended s && treeValid (treeEntry s tree.val) && (treeChildren (treeEntry s tree.val)).contains port.val then
       treeAdd s tree.val port.val p.offset p.generation p.payload p.poison a.events a.found
     else apRefused s p)

/-- REDUCTION_TIMEOUT (R503): a row still incomplete after 0x4400:25 is discarded. -/
def execReductionTimeout (tree : Fin 16) (offset : Nat) (generation : BitVec 16) (s : State) : Answer :=
  let here (r : Reduction) : Bool := decide (r.tree = tree.val ∧ r.offset = offset ∧ r.gen = generation)
  match s.reductions.find? here with
  | none => answer s
  | some r => guarded (decide (r.since + dnum s 0x4400 0x25 ≤ now s)) s
    (record (dcount { s with reductions := s.reductions.filter fun x => !here x } 0x4400 0x29 8 1) 0x0603 0xFF 0xFFFF tree.val
      (leBytes 4 0 ++ leBytes 4 0 ++ leBytes 4 tree.val))

/-! ## Control packets (R504, R505) -/

/-- The code of a SCHEDULE. -/
def scheduleCode (s : State) (sender : BitVec 10) (kind instant argument : Nat) : Nat :=
  if timeRefused s then 1
  else if kind = 0 ∨ 3 < kind then 4
  else if instant < now s + 6400 then 2
  else if kind = 1 ∧ (64 ≤ argument ∨ !bitAt (dget s 0x4400 0x26) argument) then 3
  else if kind = 2 ∧ argument ≠ dnum s 0x2100 0x02 then 3
  else if kind = 3 ∧ !fromPartner s sender then 3
  else 0

/-- SCHEDULE (R505): checked, answered, and kept for its instant; kind 1 writes BG_DEADLINE at once. -/
def execSchedule (sender : BitVec 10) (id : BitVec 32) (kind : BitVec 8) (instant : BitVec 64) (argument : BitVec 64) (s : State) : Answer :=
  let code := scheduleCode s sender kind.toNat instant.toNat argument.toNat
  let s' := if code ≠ 0 then s
    else if kind = 1 then bgDeadlinePut s argument.toNat instant.toNat
    else { s with schedules := s.schedules ++ [⟨id, kind.toNat, instant.toNat, argument⟩] }
  answer (emit s' (.fabricControl sender.toNat 0x03 (leBytes 4 id.toNat ++ leBytes 1 code)))

/-- SCHEDULED_INSTANT (R505): the group is enabled, or the epoch period applied where 0x3600:0C admits it. -/
def execScheduledInstant (id : BitVec 32) (s : State) : Answer :=
  match s.schedules.find? fun x => decide (x.id = id) with
  | none => answer s
  | some x =>
    guarded (decide (x.instant ≤ now s)) s
      (let s : State := { s with schedules := s.schedules.erase x }
       if x.kind = 2 then (if groupCheck s [1] = 0 then groupApply s [1] else s)
       else if 160000 ≤ x.argument.toNat then dputNum s 0x3600 0x0C 8 x.argument.toNat else s)

/-- SCHEDULE_ANSWER (R504): the requester learns the code; the spec gives the device no state that it changes. -/
def execScheduleAnswer (_id : BitVec 32) (_code : BitVec 8) (s : State) : Answer := answer s

/-- PROBE (R504): answered with the nonce and the serial. -/
def execProbe (sender : BitVec 10) (nonce : BitVec 64) (s : State) : Answer :=
  answer (emit s (.fabricControl sender.toNat 0x05 (leBytes 8 nonce.toNat ++ serial24)))

/-- PROBE_ANSWER (R518): an answer to the PROBE that a member in SUSPECT has sent. -/
def execProbeAnswer (nonce : BitVec 64) (serial : List Byte) (s : State) : Answer :=
  guarded (decide (s.twin.st = .suspect ∧ s.twin.probeNonce = some nonce ∧ slice serial 0 24 = slice s.twin.partnerSerial 0 24)) s
    { s with twin := { s.twin with answered := true } }

end Sys2Proof.Machine
end

