-- ==== Sys2Proof/Machine/Security.lean ====
section
/-! DEFINITION. Security: the firmware image, owners, the debug lock, attestation, and link keys (R579 to R600). -/
namespace Sys2Proof.Machine
open Sys2Proof

/-! ## The firmware image (R581 to R584) -/

def fwVersion (b : List Byte) : Nat := leAt b 6 2
def fwBodyLen (b : List Byte) : Nat := leAt b 16 8
def fwKey (b : List Byte) : List Byte := slice b 32 2592
def fwSig (b : List Byte) : List Byte := slice b 2624 4627
/-- The digest D. -/
def fwDigest (b : List Byte) : List Byte := sha3_512 (slice b 0 32 ++ b.drop 8192)

/-- The first failing check of R582, 0 when all pass. -/
def fwReason (s : State) (b : List Byte) : Nat :=
  if b.length ≠ 8192 + fwBodyLen b then 1
  else if leAt b 0 4 ≠ 0x46574C4F ∨ leAt b 4 2 ≠ 1 ∨ 64 < fwVersion b ∨ slice b 24 8 ≠ zeros 8 ∨ slice b 7251 941 ≠ zeros 941 then 2
  else if sha3_512 (fwKey b) ≠ Config.vendorKeyHash then 3
  else if !Config.mlDsaVerify (fwKey b) (fwDigest b) (fwSig b) then 4
  else if fwVersion b < rollbackCount s then 5
  else 0

/-- A rejected image: the reason, a FW_REJECTED record, and the ROM goes on. -/
def fwRejected (s : State) (reason : Nat) : State :=
  record { s with sec := { s.sec with imageState := 4, reason := reason } } 0x0901 0xFF 0xFFFF 0 (leBytes 4 reason)

/-- Fuses burnt up to the accepted version (R584). -/
def burnRollback (s : State) (v : Nat) : State :=
  let c := rollbackCount s
  if c < v then record { s with otp := { s.otp with rollback := v } } 0x0902 0xFF 0xFFFF 0 (leBytes 4 c ++ leBytes 4 v) else s

/-- The image accepted: its build and digest show in 0x1000:07, and the firmware may start. -/
def fwAccepted (s : State) (b : List Byte) : State :=
  let s := burnRollback s (fwVersion b)
  let s := dput s 0x1000 0x07 (slice b 8 8 ++ fwDigest b)
  settleProfile { s with sec := { s.sec with imageState := 3, reason := 0, version := fwVersion b } }

/-! ## Owners (R585 to R587) -/

def ownerRecord (s : State) (slot : Nat) (st : Nat) : State := record s 0x0903 0xFF 0xFFFF 0 (leBytes 4 slot ++ leBytes 4 st)

def setOwner (s : State) (slot st : Nat) (hash : List Byte) : State :=
  ownerRecord { s with otp := { s.otp with
    ownerState := mset (Config.fusedOwnerState slot) s.otp.ownerState slot st,
    ownerHash := mset (Config.fusedHash slot) s.otp.ownerHash slot hash } } slot st

/-- The authorised part of a check: the block passes or 0xA601. -/
def authorised (s : State) (purpose : Nat) (data block : List Byte) (ip : BitVec 128) (then_ : State → Nat) : State × Nat :=
  let (s, ok) := authorise s purpose data block ip
  (s, if ok then then_ s else 0xA601)

/-- 0x5800:08: form, authorisation, then an empty target slot. -/
def ownerInstallCheck (s : State) (v : List Byte) (ip : BitVec 128) : State × Nat :=
  let slot := leAt v 0 1
  if slice v 1 7 ≠ zeros 7 then (s, 0xA301)
  else if 3 < slot then (s, 0xA303)
  else authorised s 1 ([BitVec.ofNat 8 slot] ++ sha3_512 (slice v 8 2592)) (slice v 2600 7259) ip
    fun s => if slotState s slot = 0 then 0 else 0xA401

def ownerInstallApply (s : State) (v : List Byte) : State := setOwner s (leAt v 0 1) 1 (sha3_512 (slice v 8 2592))

/-- 0x5800:09: a valid slot that is not the last one. -/
def ownerRevokeCheck (s : State) (v : List Byte) (ip : BitVec 128) : State × Nat :=
  let slot := leAt v 0 1
  if slice v 1 7 ≠ zeros 7 then (s, 0xA301)
  else if 3 < slot then (s, 0xA303)
  else authorised s 2 [BitVec.ofNat 8 slot] (slice v 8 7259) ip fun s =>
    if slotState s slot = 1 ∧ (List.range 4).any (fun i => decide (i ≠ slot ∧ slotState s i = 1)) then 0 else 0xA401

def ownerRevokeApply (s : State) (v : List Byte) : State := setOwner s (leAt v 0 1) 2 (slotHash s (leAt v 0 1))

/-! ## The debug lock (R597, R598) -/

def setScope (s : State) (scope : BitVec 8) : State :=
  if scope = s.sec.debugScope then s
  else record { s with sec := { s.sec with debugScope := scope } } 0x0908 0xFF 0xFFFF 0 (leBytes 4 s.sec.debugScope.toNat ++ leBytes 4 scope.toNat)

/-- 0x5800:0A. -/
def debugUnlockCheck (s : State) (v : List Byte) (ip : BitVec 128) : State × Nat :=
  if slice v 1 7 ≠ zeros 7 ∨ 8 ≤ leAt v 0 1 then (s, 0xA301)
  else authorised s 4 (slice v 0 1) (slice v 8 7259) ip fun _ => 0

def debugUnlockApply (s : State) (v : List Byte) : State := setScope s (s.sec.debugScope ||| v.getD 0 0)

/-- 0x5800:0B. -/
def relockApply (s : State) (v : List Byte) : State := setScope s (s.sec.debugScope &&& ~~~ v.getD 0 0)

/-! ## Attestation (R592, R593) -/

/-- The configuration measurement. -/
def measurement (s : State) : List Byte :=
  sha3_512 (objValue s 0x5800 0x02 ++ objValue s 0x5800 0x03 ++ objValue s 0x1100 0x14 ++ objValue s 0x1101 0x14 ++
    ((List.range 18).flatMap fun i => objValue s (0x4400 + i) 0x0D) ++ objValue s 0x1100 0x09 ++ objValue s 0x3600 0x01 ++ objValue s 0x5800 0x07)

/-- The loaded hoods in ascending id, as the report lists them. -/
def reportHoods (s : State) : List Byte :=
  (s.hoods.filter fun h => decide (h.2.state = 2)).flatMap fun (id, h) =>
    leBytes 2 id ++ [h.signer, h.sigResult] ++ zeros 4 ++ slice (manifestDigest s id) 0 32

/-- The report without its signature, at the device time of the nonce. -/
def reportBody (s : State) (nonce : List Byte) : List Byte :=
  leBytes 4 0x54535441 ++ leBytes 2 1 ++ leBytes 2 (s.hoods.filter fun h => decide (h.2.state = 2)).length ++ leBytes 8 (now s) ++ nonce ++
    serial24 ++ slice (dget s 0x1000 0x07) 8 64 ++ leBytes 1 (rollbackCount s) ++ leBytes 1 (boolNat (owned s)) ++ [s.sec.debugScope] ++
    leBytes 1 (sigMode s) ++ leBytes 1 (dnum s 0x3600 0x02) ++ leBytes 1 s.twin.mode ++ zeros 2 ++ measurement s ++ dget s 0x3600 0x03 ++ reportHoods s

/-- 0x5820:01: a report starts; an unfinished one is abandoned. -/
def attestApply (s : State) (v : List Byte) : State :=
  { s with sec := { s.sec with reportTime := some (now s, reportBody s v), report := none } }

/-- ATTESTATION_REPORT_READY (R592): the identity key signs; without the key no report is finished (R580). -/
def execAttestationReportReady (s : State) : Answer := match s.sec.reportTime with
  | none => answer s
  | some (_, body) => guarded s.sec.identityOk s
    { s with sec := { s.sec with reportTime := none, report := some (body ++ slice (Config.mlDsaSign (sha3_512 body)) 0 4627), reports := s.sec.reports + 1 } }

/-! ## Keys (R594 to R596) -/

/-- The serial without padding. -/
def serialBytes : List Byte := Config.fusedSerial.take 24

/-- 0x5840:03: the KEK is replaced and the IV count restarts. -/
def ciphertextApply (s : State) (v : List Byte) : State :=
  { s with sec := { s.sec with kek := some (shake256 (Config.mlKemOpen v ++ serialBytes)), lastIv := none } }

/-- The record that a wrapped key opens to. -/
def unwrapKey (s : State) (v : List Byte) : Option (List Byte) := match s.sec.kek with
  | none => none
  | some k => Config.aesGcmOpen k (slice v 0 12) (serialBytes ++ slice v 0 12) (slice v 12 96)

/-- Whether the fields of a key record are as R595 lists them. -/
def keyFieldsOk (b : List Byte) : Bool :=
  let kind := leAt b 0 1
  slice b 36 4 == zeros 4 &&
    if kind = 1 then decide (leAt b 1 1 < 2 ∧ leAt b 2 1 < 3 ∧ leAt b 3 1 < 2)
    else decide (kind = 2 ∧ leAt b 1 1 < 18 ∧ leAt b 2 1 < 2 ∧ leAt b 3 1 = 0) && slice b 8 28 == zeros 28

def keyFailed (s : State) (why : Nat) : State := record s 0x0906 0xFF 0xFFFF 0 (leBytes 4 why)

/-- 0x5840:04: a KEK, a fresh IV, the tag, then the fields. -/
def wrappedKeyCheck (s : State) (v : List Byte) : State × Nat :=
  if s.sec.kek.isNone then (s, 0xA401)
  else if (match s.sec.lastIv with
      | some i => decide (beNat (slice v 0 12) ≤ i)
      | none => false) then (keyFailed s 1, 0xA601)
  else match unwrapKey s v with
    | none => (keyFailed s 2, 0xA601)
    | some b => (s, if keyFieldsOk b then 0 else 0xA301)

/-- The target of a key record: 0 and 1 the host ports, 2 + i link i. -/
def keyTarget (b : List Byte) : Nat := if leAt b 0 1 = 1 then leAt b 1 1 else 2 + leAt b 1 1

/-- A key of a target and slot takes effect: it replaces the slot's key, and on a link the key in use before still decrypts for 1 ms; an all-zero key removes the slot's. -/
def keyActive (s : State) (k : KeyRec) : State :=
  let others := s.sec.keys.filter fun x => !decide (x.target = k.target ∧ x.slot = k.slot)
  let had := others.any fun x => decide (x.target = k.target) && x.active
  let gone := decide (slice k.material 40 32 = zeros 32)
  let prev := if 2 ≤ k.target ∧ had ∧ !gone then mset 0 s.sec.previous (k.target - 2) (now s + 1) else s.sec.previous
  { s with sec := { s.sec with keys := if gone then others else others ++ [{ k with active := true }], previous := prev } }

/-- A wrapped key installed: at once, or pending its instant; a link that is DOWN trains again (R596). -/
def wrappedKeyApply (s : State) (v : List Byte) : State := match unwrapKey s v with
  | none => s
  | some b =>
    let k : KeyRec := { target := keyTarget b, slot := leAt b 2 1, keyId := BitVec.ofNat 32 (leAt b 4 4), activeAt := leAt b 72 8, active := false, material := b }
    let s : State := { s with sec := { s.sec with lastIv := some (beNat (slice v 0 12)) } }
    let s := if k.activeAt ≤ now s then keyActive s k
      else { s with sec := { s.sec with keys := s.sec.keys.filter (fun x => x.active || !decide (x.target = k.target ∧ x.slot = k.slot)) ++ [k] } }
    if 2 ≤ k.target ∧ (linkOf s (k.target - 2)).st = 0 ∧ 8 ≤ mget 0 s.sec.authFails (k.target - 2) then
      linkTrain { s with sec := { s.sec with authFails := mset 0 s.sec.authFails (k.target - 2) 0 } } (k.target - 2)
    else s

/-- The local counter that a key's target acts on: its link controller's, or for a host port the Crown's (R350). -/
def keyTime (s : State) (target : Nat) : Nat := if target < 2 then crownTime s else unitTime s (12024 + (target - 2))

/-- KEY_ACTIVATION (R350, R595): the instant of a pending key has come. -/
def execKeyActivation (target : Fin 20) (slot : Fin 3) (s : State) : Answer :=
  match s.sec.keys.find? fun k => decide (k.target = target.val ∧ k.slot = slot.val) && !k.active with
  | none => answer s
  | some k => guarded (decide (k.activeAt ≤ keyTime s target)) s (keyActive { s with sec := { s.sec with keys := s.sec.keys.erase k } } k)

/-- PREVIOUS_KEY_EXPIRY (R596): 1 ms after a switch the previous key index no longer decrypts. -/
def execPreviousKeyExpiry (link : LinkId) (s : State) : Answer :=
  let at_ := mget 0 s.sec.previous link.val
  guarded (decide (at_ ≠ 0 ∧ at_ - 1 + 16000000 ≤ now s)) s
    { s with sec := { s.sec with previous := mset 0 s.sec.previous link.val 0 } }

end Sys2Proof.Machine
end

