-- ==== Sys2Proof/Machine/Requests.lean ====
section
/-! DEFINITION. Requests that objects carry to the Pounce and to the twin pair (R511, R524, R537, R544, R552). -/
namespace Sys2Proof.Machine
open Sys2Proof

/-! ## Pounce requests (R537, R552) -/

/-- Whether a test's target exists in the form the test takes. -/
def pounceTarget (s : State) (test target : Nat) : Bool :=
  if test < 4 then (targetSite s target).isSome && (target.testBit 15 || decide (target < 2700))
  else if test = 5 then (targetLink target).isSome
  else (targetCluster target).isSome

/-- The Maint entry of a request, as it would be queued. -/
def pounceEntry (s : State) (v : List Byte) (requester : Nat) : Maint :=
  { id := s.maintNext, activity := 2, scope := leAt v 4 2, test := leAt v 0 1, urgency := leAt v 1 1, twinCover := decide (leAt v 2 1 = 1),
    requester := BitVec.ofNat 10 requester, time := now s, running := false, started := 0, waits := false }

/-- The check of 0x5100:01: ranges, target, the phases of a phase test, and the queue. A refused phase test is entered as REFUSED. -/
def pounceCheck (s : State) (v : List Byte) (requester : Nat) : State × Nat :=
  let test := leAt v 0 1
  let target := leAt v 4 2
  if 6 < test ∨ 3 < leAt v 1 1 then (s, 0xA303)
  else if !pounceTarget s test target then (s, 0xA301)
  else if test = 6 ∧ workingPhases s (target % 4096) < 8 then
    (pounceOutcome { s with maintNext := s.maintNext + 1 } (pounceEntry s v requester) 3 0, 0xA401)
  else if 256 ≤ s.maint.length then (s, 0xA501)
  else (s, 0)

/-- A Pounce request accepted: queued, or merged into one equal to it; 0x5100:02 takes its id. -/
def pounceApply (s : State) (v : List Byte) (requester : Nat) : State :=
  let m := pounceEntry s v requester
  match s.maint.find? fun x => decide (x.activity = 2 ∧ x.scope = m.scope ∧ x.test = m.test) && !x.running with
  | some x => dputNum s 0x5100 0x02 4 x.id
  | none => dputNum { s with maint := maintInsert m s.maint, maintNext := s.maintNext + 1 } 0x5100 0x02 4 m.id

/-! ## The twin's mode and homes (R511, R524) -/

/-- A write of 0x4800:01: refused unless PAIRED, and MIRROR in the extended profile unless the match keys agree. -/
def modeCheck (s : State) (v : Nat) : Nat :=
  if 3 < v then 0xA303
  else if v ≠ 0 ∧ s.twin.st ≠ .paired then 0xA401
  else if v = 3 && profileExtended s && decide (s.twin.partnerKey ≠ dget s 0x3600 0x03) then 0xA401
  else 0

/-- SYNCING ends when every region in use is protected (R518). -/
def settleSyncing (s : State) : State :=
  if s.twin.st = .syncing && (List.range 64).all fun r => (regionOf s r).protected_ || !regionUsed s r then
    { s with twin := { s.twin with st := .paired, before := .paired } }
  else s

/-- Records not retired, sent on the twin stream when a mode other than SOLO takes effect. -/
def streamJournal (s : State) : State :=
  let s := jTrim s
  let s := s.journal.entries.foldl (fun s e => emit s (.twin 0x10 s.journal.epoch (jBytes e.record))) s
  { s with journal := { s.journal with partnerAcked := jTail s } }

/-- A mode takes effect: a stronger one enters SYNCING with nothing protected yet. -/
def modeTakes (s : State) (m : Nat) : State :=
  let old := s.twin.mode
  let s : State := { s with twin := { s.twin with mode := m, modeAt := none } }
  if old < m then
    let s : State := { s with twin := { s.twin with st := .syncing, before := .syncing } }
    let s := (List.range 64).foldl (fun s r => modRegion s r fun g => { g with protected_ := false, cover := false }) s
    settleSyncing (streamJournal s)
  else if old = 3 ∧ m < 3 then deliverWithheld s fun _ => true
  else s

/-- When both members have accepted one mode, a stronger one is due at the first journal epoch at least 1 ms later; a weaker one takes effect at once. -/
def settleMode (s : State) : State :=
  let m := dnum s 0x4800 0x01
  if m < s.twin.mode then modeTakes s m
  else if m = s.twin.mode then { s with twin := { s.twin with modeAt := none } }
  else if s.twin.partnerMode = m ∧ s.twin.modeAt.isNone then { s with twin := { s.twin with modeAt := some (m, now s + 16000000) } }
  else s

/-- A mode request accepted: the partner learns it in a HELLO. -/
def modeApply (s : State) (v : Nat) : State :=
  let s := dputNum s 0x4800 0x01 1 v
  settleMode (sendHello { s with twin := { s.twin with modeAt := none } })

/-- A write of 0x4800:08: every region whose bit changes is FREE. The partner's regions show in no message; the shadow's own are those of the same number. -/
def homesCheck (s : State) (v : List Byte) : Nat :=
  let old := dget s 0x4800 0x08
  if (List.range 64).all fun r => bitAt old r == bitAt v r || decide ((regionOf s r).state = .free) then 0 else 0xA401

end Sys2Proof.Machine
end

