-- ==== Sys2Proof/Machine/ObjWrite.lean ====
section
/-! DEFINITION. Reads and writes of objects: the checks of R436 in order, and what an accepted write does (R433 to R441, R449 to R460). -/
namespace Sys2Proof.Machine
open Sys2Proof

/-- Who makes a request: session, role (0 OPERATOR, 1 MANAGEMENT, 2 OBSERVER), source and port. -/
structure Caller where
  session : Nat
  role : Nat
  ip : BitVec 128
  port : HostPort
deriving DecidableEq, Repr

/-- The master identity of a port (R467). -/
def portMaster : HostPort → Nat
  | .hp0 => 0x080
  | .hp1 => 0x081
  | .mp => 0x0A0

/-! ## Index, subindex and role (R432, R413, R447, R450) -/

/-- 0xA201 for an index not in the master map, 0xA202 for a subindex its entry does not list. -/
def indexCheck (idx sub : Nat) : Nat :=
  if (objRow idx sub).isSome then 0 else if (objRow idx 0).isSome then 0xA202 else 0xA201

def roleCheck (c : Caller) (idx sub : Nat) (write : Bool) : Nat :=
  if (decide (0x5800 ≤ idx ∧ idx < 0x5900) || decide (idx = 0x6000)) && decide (c.role ≠ 1) then 0xA601
  else if write && decide (c.role = 2) then 0xA601
  else if write && decide (idx = 0x1100 ∧ sub = 0x09 ∧ c.role ≠ 1) then 0xA601
  else 0

/-- The first non-zero status. -/
def firstOf : List Nat → Nat
  | [] => 0
  | x :: xs => if x ≠ 0 then x else firstOf xs

/-- Before the firmware is accepted the ROM serves few objects (R556). -/
def romServes (s : State) (idx : Nat) : Bool :=
  s.boot.firmware || decide (idx = 0x1000) || decide (0x1100 ≤ idx ∧ idx < 0x1103) || decide (0x5800 ≤ idx ∧ idx < 0x5900) || decide (idx = 0x6000)

/-! ## Reads -/

/-- The state condition of a read: a report or a key that is not there, and a debug view that no whole cluster backs (R461, R580, R592). -/
def readState (s : State) (idx sub : Nat) : Nat :=
  if !romServes s idx then 0xA401
  else if idx = 0x5820 ∧ sub = 0x02 ∧ (s.sec.report.isNone ∨ !s.sec.identityOk) then 0xA401
  else if idx = 0x5840 ∧ (sub = 0x01 ∨ sub = 0x02) ∧ (!s.boot.firmware ∨ !s.sec.identityOk) then 0xA401
  else if 0x9000 ≤ idx ∧ idx < 0x9A8C ∧ (siteOfLt s (idx - 0x9000)).isNone then 0xA401
  else 0

/-- The checks of a read up to its length (R436). -/
def readCheck (s : State) (c : Caller) (idx sub : Nat) : Nat :=
  firstOf [indexCheck idx sub, roleCheck c idx sub false,
    match objRow idx sub with
    | some r => if r.access = .wo then 0xA204 else 0
    | none => 0,
    readState s idx sub]

/-- The value and status of one read: a value above 8,192 bytes is read by BLOCK_READ (R434). -/
def readOne (s : State) (c : Caller) (idx sub : Nat) (w : WindowFind) : State × Nat × List Byte :=
  let st := readCheck s c idx sub
  let long := match objRow idx sub with
    | some r => match r.type with
      | .domain n _ => decide (8192 < n)
      | _ => false
    | none => false
  if st ≠ 0 ∧ st ≠ 0xA401 then (s, st, [])
  else if long && decide (8192 < (objValue s idx sub).length) then (s, 0xA301, [])
  else if st ≠ 0 then (s, st, [])
  else let (s, v) := objRead s idx sub w
    (s, 0, v)

/-! ## Types (R433) -/

/-- Whether bytes are valid UTF-8: no overlong form, no surrogate, nothing above U+10FFFF. -/
def utf8Ok : Nat → List Byte → Bool
  | 0, bs => bs.isEmpty
  | _ + 1, [] => true
  | k + 1, a :: r =>
    let x := a.toNat
    let cont (b : Byte) : Bool := decide (0x80 ≤ b.toNat ∧ b.toNat < 0xC0)
    if x < 0x80 then utf8Ok k r
    else if x < 0xC2 then false
    else if x < 0xE0 then match r with
      | b :: r => cont b && utf8Ok k r
      | _ => false
    else if x < 0xF0 then match r with
      | b :: c :: r => cont b && cont c && !(decide (x = 0xE0 ∧ b.toNat < 0xA0)) && !(decide (x = 0xED ∧ 0xA0 ≤ b.toNat)) && utf8Ok k r
      | _ => false
    else if x < 0xF5 then match r with
      | b :: c :: d :: r => cont b && cont c && cont d && !(decide (x = 0xF0 ∧ b.toNat < 0x90)) && !(decide (x = 0xF4 ∧ 0x90 ≤ b.toNat)) && utf8Ok k r
      | _ => false
    else false

def typeCheck (t : ObjType) (v : List Byte) : Nat :=
  let ok := match t with
    | .uint n => decide (v.length = n)
    | .sint n => decide (v.length = n)
    | .bool => decide (v.length = 1 ∧ leNat v ≤ 1)
    | .f32 => decide (v.length = 4) && finiteFP32 (leNat v)
    | .time => decide (v.length = 8)
    | .str => decide (v.length ≤ 64) && utf8Ok 64 v
    | .domain n upTo => if upTo then decide (v.length ≤ n) else decide (v.length = n)
  if ok then 0 else 0xA301

/-! ## RWD: when the owning block is enabled (R435) -/

def regionDisabled (s : State) (r : Nat) : Bool := match (regionOf s r).state with
  | .free => true
  | .configured => true
  | .holed => true
  | _ => false

/-- The serving subsystem is disabled while every region is FREE or HOLED (R336). -/
def servingOff (s : State) : Bool := (List.range 64).all fun r => decide ((regionOf s r).state = .free ∨ (regionOf s r).state = .holed)

/-- Whether the block that owns an RWD subindex is enabled, so that a write of `v` is locked out. -/
def locked (s : State) (idx sub : Nat) (v : List Byte) : Bool :=
  if 0x1100 ≤ idx ∧ idx < 0x1103 then portOn s (idx - 0x1100)
  else if idx = 0x1140 ∨ idx = 0x2200 then s.time.enabled
  else if idx = 0x2000 then s.boot.powerEnabled
  else if 0x2010 ≤ idx ∧ idx < 0x2028 then objValue s idx 0x01 != [0]
  else if idx = 0x2100 then decide (dnum s 0x2100 0x01 = 1)
  else if 0x3100 ≤ idx ∧ idx < 0x3140 then !regionDisabled s (idx - 0x3100)
  else if idx = 0x3300 then s.boot.firstSubmit
  else if idx = 0x3600 ∧ sub = 0x05 then
    (List.range 64).any fun r => decide (slice v (24 * r) 24 ≠ slice (dget s 0x3600 0x05) (24 * r) 24) && !regionDisabled s r
  else if idx = 0x3600 then !servingOff s
  else if idx = 0x4000 then s.boot.hbmTrained
  else if idx = 0x4400 then s.boot.relayEnabled
  else if idx = 0x4800 then decide (s.twin.mode ≠ 0)
  else false

def accessCheck (s : State) (idx sub : Nat) (v : List Byte) : Nat := match objRow idx sub with
  | some r => match r.access with
    | .const => 0xA203
    | .ro => 0xA203
    | .rwd => if locked s idx sub v then 0xA205 else 0
    | _ => 0
  | none => 0

/-! ## Ranges -/

def between (v lo hi : Nat) : Nat := if v < lo then 0xA302 else if hi < v then 0xA303 else 0

/-- The ranges of a region's serving parameters, given the period in force beside the written value (R277, R457). -/
def regionRange (s : State) (base : Nat) (defaults : Bool) (sub n : Nat) : Nat :=
  let at_ (regSub defSub : Nat) : Nat := dnum s base (if defaults then defSub else regSub)
  if sub = 0x04 then between n 0 1
  else if sub = 0x08 then (if n < 160000 then 0xA302 else 0)
  else if sub = 0x0A then (if at_ 0x08 0x02 ≤ n then 0xA303 else 0)
  else if sub = 0x0B then between n 1 65536
  else if sub = 0x0C then (if n < at_ 0x0D 0x06 then 0xA302 else 0)
  else if sub = 0x0D then between n 1 4096
  else if sub = 0x0F then between n 0 1
  else 0

/-- The region subindex that a subindex of 0x3000 feeds (R457). -/
def defaultFeeds (sub : Nat) : Nat := ([0x00, 0x04, 0x08, 0x0A, 0x0B, 0x0C, 0x0D, 0x0E, 0x0F] : List Nat).getD sub 0

/-- The surplus assignment's own check (0x3600:05). -/
def surplusCheck (s : State) (v : List Byte) : Nat :=
  if (List.range 64).all fun r => (List.range 192).all fun c => !bitAt v (192 * r + c) || (profileExtended s && clusterSurplus s c) then 0 else 0xA301

/-- The management sources (R450): prefix lengths to 128. -/
def sourcesCheck (v : List Byte) : Nat :=
  if (List.range 8).any fun i => decide (128 < leAt v (20 * i + 16) 1) then 0xA303 else 0

/-- A value as the device takes it: reserved bits are ignored and read as zero (R15). -/
def takenValue (idx sub : Nat) (v : List Byte) : List Byte :=
  let rows (w : Nat) (f : List Byte → List Byte) : List Byte := (List.range (v.length / w)).flatMap fun i => f (slice v (w * i) w)
  if 0x1100 ≤ idx ∧ idx < 0x1103 then
    if sub = 0x07 then slice v 0 3 ++ [0]
    else if sub = 0x09 then rows 20 fun e => slice e 0 17 ++ zeros 3
    else v
  else if idx = 0x1140 ∧ sub = 0x03 then v.map (· &&& 3)
  else if idx = 0x2200 ∧ sub = 0x0B then slice v 0 1 ++ zeros 7 ++ slice v 8 8
  else if 0x3100 ≤ idx ∧ idx < 0x3140 ∧ sub = 0x03 then slice v 0 22 ++ (slice v 22 1).map (· &&& 0x0F)
  else if idx = 0x3200 ∧ sub = 0x01 then slice v 0 4 ++ zeros 4 ++ slice v 8 20 ++ zeros 36
  else if idx = 0x3300 ∧ sub = 0x01 then slice v 0 4 ++ zeros 4 ++ slice v 8 20 ++ zeros 4
  else if idx = 0x3600 ∧ sub = 0x0D then slice v 0 17 ++ zeros 7
  else if idx = 0x4400 ∧ sub = 0x21 then rows 2 fun e => leBytes 2 (leNat e &&& 0x83FF)
  else if idx = 0x4400 ∧ sub = 0x22 then rows 32 fun e => slice e 0 21 ++ zeros 11
  else if idx = 0x4400 ∧ sub = 0x23 then rows 32 fun e => slice e 0 12 ++ zeros 20
  else if idx = 0x5100 ∧ sub = 0x01 then
    slice v 0 2 ++ (slice v 2 1).map (· &&& 1) ++ zeros 1 ++ leBytes 2 (if (leAt v 4 2).testBit 15 then leAt v 4 2 &&& 0x8FFF else leAt v 4 2) ++ zeros 10
  else if idx = 0x5800 ∧ sub = 0x0B then v.map (· &&& 7)
  else v

/-- Ranges and content of the remaining writable objects. -/
def rangeCheck (s : State) (idx sub : Nat) (v : List Byte) : Nat :=
  let n := leNat v
  if 0x1100 ≤ idx ∧ idx < 0x1103 then
    if sub = 0x06 then between n 0 4094
    else if sub = 0x07 then (if (List.range 3).any (fun i => decide (7 < leAt v i 1)) then 0xA303 else 0)
    else if sub = 0x09 then sourcesCheck v
    else if sub = 0x0B then between n 10 95
    else if sub = 0x0C then (if n < 5 then 0xA302 else if 90 < n ∨ dnum s idx 0x0B ≤ n then 0xA303 else 0)
    else 0
  else if idx = 0x1140 then
    if sub = 0x01 then between n 0 127
    else if sub = 0x02 then between n 0 2
    else if sub = 0x03 then (if n = 0 then 0xA302 else 0)
    else if sub = 0x04 then between n 2 10
    else if sub = 0x05 then (if leInt v < -7 then 0xA302 else if 4 < leInt v then 0xA303 else 0)
    else 0
  else if idx = 0x2000 then
    if sub = 0x01 then firstOf [between n 1000 gradeMax10, if dnum s 0x2000 0x02 < n then 0xA303 else 0]
    else if sub = 0x02 then firstOf [between n 1000 gradeMax1, if n < dnum s 0x2000 0x01 then 0xA303 else 0]
    else if sub = 0x03 then (if ceilDiv n 16384 * 16384 < 1638400 then 0xA302 else 0)
    else if sub = 0x04 then (if leInt v < 85 then 0xA302 else if 103 < leInt v then 0xA303 else 0)
    else if sub = 0x10 then between n 0 30
    else 0
  else if 0x2010 ≤ idx ∧ idx < 0x2028 then
    if sub = 0x02 then between n 0 (zoneRec s (idx - 0x2010)).ratedAmps else 0
  else if idx = 0x2100 then
    if sub = 0x06 then (if n % 16384 ≠ 0 ∨ n < 16384000 then 0xA302 else 0) else 0
  else if idx = 0x2200 then
    if sub = 0x04 ∨ sub = 0x05 then between n 0 2
    else if sub = 0x0A then between n 16000000 960000000000
    else if sub = 0x0B then between (leAt v 0 1) 0 6
    else 0
  else if idx = 0x3000 then regionRange s 0x3000 true (defaultFeeds sub) n
  else if 0x3100 ≤ idx ∧ idx < 0x3140 then
    if sub = 0x02 then between n 1 6
    else regionRange s idx false sub n
  else if idx = 0x3200 ∧ sub = 0x01 then hoodLoadCheck v
  else if idx = 0x3300 then
    if sub = 0x01 then adapterLoadCheck v
    else if sub = 0x02 then between n 0 4095
    else if sub = 0x05 then between n 8 96
    else 0
  else if idx = 0x3600 then
    if sub = 0x01 then between n 0 1
    else if sub = 0x05 then surplusCheck s v
    else if sub = 0x06 then (if n = 255 then 0 else between n 0 63)
    else if sub = 0x0A then between n 256 65536
    else if sub = 0x0C then (if n < 160000 then 0xA302 else 0)
    else if sub = 0x0D then (if leAt v 12 4 % 4096 ≠ 0 then 0xA301 else between (leAt v 16 1) 0 1)
    else if sub = 0x0E then (if s.journal.hostAcked ∧ n < dnum s 0x3600 0x0E then 0xA302 else 0)
    else 0
  else if idx = 0x4000 then
    if sub = 0x11 then between n 0 128
    else if sub = 0x12 then between n 0 1
    else if sub = 0x14 then (if n = 0 then 0 else between n 3600 604800)
    else 0
  else if idx = 0x4400 then
    if sub = 0x20 then between n 0 1023 else if sub = 0x25 then between n 16000 16000000 else 0
  else if idx = 0x4800 then
    if sub = 0x01 then between n 0 3
    else if sub = 0x09 then between n 16000000000 57600000000000
    else if sub = 0x0A then between n 16000000 1120000000
    else if sub = 0x0B then between n 16384 1600000
    else if sub = 0x0C then between n 2 16
    else if sub = 0x0D then between n 1600000 160000000
    else 0
  else if idx = 0x5000 then
    if sub = 0x08 then between n 0 1 else if sub = 0x09 then between n 0 7 else 0
  else if idx = 0x5200 then
    if sub = 0x04 then (if leAt v 8 8 < leAt v 16 8 then 0xA303 else 0) else 0
  else if idx = 0x5800 then
    if sub = 0x07 then between n 0 2 else 0
  else if idx = 0x6000 then
    if sub = 0x01 then (if n % 4 ≠ 0 ∨ 2 ^ 48 ≤ n then 0xA301 else 0)
    else if sub = 0x03 then (if n / 16 % 16 ≠ 0 ∨ 512 ≤ n then 0xA301 else 0)
    else 0
  else 0

/-! ## The object's own state condition, and resources -/

/-- The state and resource checks of a write. -/
def stateCheck (s : State) (c : Caller) (idx sub : Nat) (v : List Byte) (aid : List JRecord) : State × Nat :=
  let n := leNat v
  if !romServes s idx then (s, 0xA401)
  else if 0x1100 ≤ idx ∧ idx < 0x1103 ∧ sub = 0x02 then (s, if n = 0 && !portMayStop s (idx - 0x1100) then 0xA401 else 0)
  else if 0x2010 ≤ idx ∧ idx < 0x2028 ∧ sub = 0x08 then (s, powerCheck s (idx - 0x2010) v)
  else if idx = 0x2100 ∧ sub = 0x01 then (s, groupCheck s v)
  else if idx = 0x2200 ∧ sub = 0x0B then (s, pointCheck s v)
  else if 0x3100 ≤ idx ∧ idx < 0x3140 ∧ sub = 0x02 then
    (s, if n = 1 && !s.boot.orderEngines then 0xA401 else commandCheck s (idx - 0x3100) n)
  else if idx = 0x3200 ∧ sub = 0x02 then (s, hoodUnloadCheck s n)
  else if idx = 0x3300 ∧ sub = 0x02 then (s, adapterUnloadCheck s n)
  else if idx = 0x3600 ∧ sub = 0x0F then (s, replayCheck s v aid)
  else if idx = 0x4800 ∧ sub = 0x01 then (s, modeCheck s n)
  else if idx = 0x4800 ∧ sub = 0x08 then (s, homesCheck s v)
  else if idx = 0x5100 ∧ sub = 0x01 then pounceCheck s v (portMaster c.port)
  else if idx = 0x5800 ∧ sub = 0x08 then ownerInstallCheck s v c.ip
  else if idx = 0x5800 ∧ sub = 0x09 then ownerRevokeCheck s v c.ip
  else if idx = 0x5800 ∧ sub = 0x0A then debugUnlockCheck s v c.ip
  else if idx = 0x5810 then
    if s.boot.firmware then (s, 0xA401)
    else
      let why := fwReason s v
      if why = 0 then (s, 0) else (fwRejected s why, 0xA601)
  else if idx = 0x5840 ∧ sub = 0x04 then wrappedKeyCheck s v
  else (s, 0)

/-- Whether a subindex is journaled (R439, R440). -/
def journaledObj (idx sub : Nat) : Bool := match objRow idx sub with
  | some r => r.journaled
  | none => false

/-- The checks of a write in the order of R436; some of them leave a trace of their own (a credential used, a refused test). -/
def writeCheck (s : State) (c : Caller) (idx sub : Nat) (v : List Byte) (aid : List JRecord) : State × Nat :=
  let st := firstOf [indexCheck idx sub, roleCheck c idx sub true, accessCheck s idx sub v,
    match objRow idx sub with
    | some r => typeCheck r.type v
    | none => 0,
    rangeCheck s idx sub (takenValue idx sub v)]
  if st ≠ 0 then (s, st)
  else
    let (s, st) := stateCheck s c idx sub (takenValue idx sub v) aid
    if st ≠ 0 then (s, st)
    else (s, if journaledObj idx sub && !jRoom s (16 + v.length) false then 0xA501 else 0)

/-! ## Effects (R438) -/

/-- The bindings of R491: channel, sender, receiver, and whether it carries doorbells. -/
def bindTable : List (Nat × Nat × Nat × Bool) :=
  [(0, 0x003, 0x001, false), (1, 0x001, 0x003, false)] ++
    ((List.range 12).flatMap fun n => [(2 + 2 * n, 0x001, 0x010 + n, false), (3 + 2 * n, 0x010 + n, 0x001, false)]) ++
    [(26, 0x092, 0x001, false), (27, 0x001, 0x092, false), (28, 0x093, 0x001, false), (29, 0x001, 0x093, false)] ++
    ((List.range 16).map fun i => (48 + i, 0x094, 0x010, true))

/-- The firmware writes the bindings and locks them (R483, R491). -/
def fwBindings (s : State) : State :=
  let s := bindTable.foldl (fun s (m, snd, rcv, bell) =>
    regPut s (mboxReg (0x1000 + 8 * m)) (BitVec.ofNat 32 (snd + rcv * 2 ^ 10 + 2 ^ 20 + boolNat bell * 2 ^ 21))) s
  regSetBit s (mboxReg 0x1800) 0 true

/-- The firmware starts (R556, R575): the bindings of the mailboxes are written and locked, the ROM's step 1 is complete, and with the AUTO option step 2 begins. -/
def firmwareStart (s : State) : State :=
  let s := fwBindings s
  let auto := decide (dnum s 0x7000 0x06 = 1)
  { s with boot := { s.boot with firmware := true, lastStep := 1, auto := if auto then some 0 else none, autoReduced := none,
                                 running := if auto then some (2, 0, 0) else none, lockWait := some (now s) } }

/-- A journal of another size, set before the first CONFIGURE: its range is taken again (R328, R573). -/
def jResize (s : State) : State :=
  if s.journal.range.2 = 0 then s
  else
    let s : State := { s with hbmAlloc := s.hbmAlloc.erase s.journal.range }
    match ringFree s with
    | some r => { hbmTake s r with journal := { s.journal with range := r, lost := false } }
    | none => { s with journal := { s.journal with range := (0, 0), lost := true } }

/-- An accepted value takes effect. -/
def valueApply (s : State) (c : Caller) (idx sub : Nat) (v : List Byte) (aid : List JRecord) : State :=
  let n := leNat v
  if 0x1100 ≤ idx ∧ idx < 0x1103 ∧ sub = 0x02 then portEnableApply s (idx - 0x1100) n
  else if 0x1100 ≤ idx ∧ idx < 0x1103 ∧ (sub = 0x04 ∨ sub = 0x05) then addressWritten (dput s idx sub v) (idx - 0x1100)
  else if idx = 0x1200 then (if n = 1 then vLogCleared s else s)
  else if idx = 0x2000 ∧ sub = 0x03 then dputNum s idx sub 8 (ceilDiv n 16384 * 16384)
  else if 0x2010 ≤ idx ∧ idx < 0x2028 ∧ sub = 0x08 then powerApply s (idx - 0x2010) v
  else if idx = 0x2100 ∧ sub = 0x01 then groupApply s v
  else if idx = 0x2200 ∧ sub = 0x05 then selectReference (dput s idx sub v) n
  else if idx = 0x2200 ∧ sub = 0x0B then pointApply s v
  else if idx = 0x2200 ∧ sub = 0x15 then ppsSecondsApply s v
  else if 0x3100 ≤ idx ∧ idx < 0x3140 ∧ sub = 0x02 then commandApply s (idx - 0x3100) n
  else if idx = 0x3200 then (if sub = 0x01 then hoodLoadApply s c.session v else hoodUnloadApply s n)
  else if idx = 0x3300 ∧ sub = 0x01 then adapterLoadApply s c.session v
  else if idx = 0x3300 ∧ sub = 0x02 then adapterUnloadApply s n
  else if idx = 0x3600 then
    if sub = 0x01 then settleProfile (dput s idx sub v)
    else if sub = 0x05 then allShares (dput s idx sub v)
    else if sub = 0x0A then jResize (dput s idx sub v)
    else if sub = 0x0D then jTrim (dput s idx sub v)
    else if sub = 0x0E then
      let s := dput s idx sub v
      jTrim { s with journal := { s.journal with hostAcked := true } }
    else if sub = 0x0F then replayApply s v aid
    else dput s idx sub v
  else if 0x4400 ≤ idx ∧ idx < 0x4412 ∧ sub = 0x02 then linkEnableApply s (idx - 0x4400) n
  else if idx = 0x4400 ∧ sub = 0x23 then
    settleKeys (dput (dput s idx sub v) 0x4400 0x24 (if v = zeros 512 then zeros 32 else shake256 v))
  else if idx = 0x4800 ∧ sub = 0x01 then modeApply s n
  else if idx = 0x4800 ∧ (sub = 0x06 ∨ sub = 0x07) then
    let s := dput s idx sub v
    (List.range 2).foldl (fun s p => if portUp s p then announcePair s p else s) s
  else if idx = 0x5000 ∧ sub = 0x06 then (if n = 1 then errLogCleared s else s)
  else if idx = 0x5100 then pounceApply s v (portMaster c.port)
  else if idx = 0x5800 ∧ sub = 0x08 then ownerInstallApply s v
  else if idx = 0x5800 ∧ sub = 0x09 then ownerRevokeApply s v
  else if idx = 0x5800 ∧ sub = 0x0A then debugUnlockApply s v
  else if idx = 0x5800 ∧ sub = 0x0B then relockApply s v
  else if idx = 0x5810 then firmwareStart (fwAccepted s v)
  else if idx = 0x5820 then attestApply s v
  else if idx = 0x5840 ∧ sub = 0x03 then ciphertextApply s v
  else if idx = 0x5840 ∧ sub = 0x04 then wrappedKeyApply s v
  else if idx = 0x6000 ∧ sub = 0x02 then windowWriteAccess s v
  else dput s idx sub v

/-- An accepted write takes effect, its reserved bits ignored (R15, R438). -/
def writeApply (s : State) (c : Caller) (idx sub : Nat) (v : List Byte) (aid : List JRecord) : State :=
  valueApply s c idx sub (takenValue idx sub v) aid

/-- The WRITE record of an accepted journaled write (R326). -/
def writeRecord (s : State) (idx sub : Nat) (v : List Byte) : State :=
  let region := decide (0x3100 ≤ idx ∧ idx < 0x3140)
  jAppend s 6 (if region then idx - 0x3100 else 0xFF) none
    (leBytes 2 idx ++ leBytes 1 sub ++ zeros 5 ++ leBytes 8 (if region then (regionOf s (idx - 0x3100)).stepNo + 1 else 0) ++ v)

end Sys2Proof.Machine
end

