-- ==== Sys2Proof/Machine/Odp.lean ====
section
/-! DEFINITION. The Ossil Dictionary Protocol: frames, windows and responses, and every request (R406 to R430, R436 to R446, R508, R519, R588). -/
namespace Sys2Proof.Machine
open Sys2Proof

/-! ## Responses (R407, R409, R411) -/

/-- A request's opcode (R410). -/
def opOf : OdpRequest → BitVec 8
  | .sessionClose => 0x02
  | .ping _ => 0x03
  | .read _ _ _ => 0x10
  | .write _ _ _ _ => 0x11
  | .readGroup _ _ => 0x12
  | .writeGroup _ _ => 0x13
  | .blockRead _ _ _ _ _ => 0x14
  | .blockWrite _ _ => 0x15
  | .subscribe _ _ => 0x20
  | .submit _ => 0x30
  | .cancel _ => 0x31
  | .complete _ _ _ _ => 0x32

/-- A frame sent by a port. -/
def sendFrame (s : State) (p : HostPort) (o : Output) : State := dcount (emit s o) (0x1100 + portNo p) 0x0F 8 1

/-- A response: OK with its payload, or a status without one. -/
def response (op : BitVec 8) (status : Nat) (payload : List Byte) : Response := ⟨op, BitVec.ofNat 16 status, if status = 0 then payload else []⟩

/-- A request is answered: the response is cached while it is in the window and leaves by the request's port or the survivor. A forwarded request is answered to the front (session 100 + n; kind 2 of log entry 45). -/
def finish (s : State) (n : Nat) (seq : BitVec 32) (r : Response) : State :=
  if 100 ≤ n then
    emit s (.twin 0x30 s.journal.epoch ([2] ++ leBytes 1 (n - 100) ++ leBytes 4 seq.toNat ++ [r.opcode] ++ leBytes 2 r.status.toNat ++ r.payload))
  else match sessionOf s n with
    | none => s
    | some x => match x.started.find? fun e => decide (e.1 = seq) with
      | none => s
      | some (_, p) =>
        let s := setSession s n { x with started := x.started.filter (fun e => decide (e.1 ≠ seq)),
                                         cache := if seqAfter x.low seq then x.cache ++ [(seq, r)] else x.cache,
                                         answered := if seqAfter x.answered seq then seq else x.answered }
        match outPort s p with
        | some q => sendFrame s q (.odp q n seq x.received r)
        | none => s

/-- The caller of what a session asked before. -/
def callerOf (s : State) (n : Nat) : Caller := match sessionOf s n with
  | some x => { session := n, role := x.role, ip := x.ip, port := x.port }
  | none => { session := n, role := 0, ip := 0, port := .hp0 }

/-! ## What waits for the partner (R20, R439) -/

/-- A deferred request takes effect and is answered. A write of index 0, which no object has, stands for a cancellation of the tag it carries. -/
def runDeferred (s : State) (d : Deferred) : State :=
  let c := callerOf s d.session
  let s := d.writes.foldl (fun s w =>
    if w.idx = 0 then cancelApply s (BitVec.ofNat 32 (leNat w.value)) else writeApply s c w.idx.toNat w.sub.toNat w.value d.read_) s
  let s := match d.ringEntry with
    | some (r, e) => ringPush s r e []
    | none => if d.session = 0 then s else finish s d.session d.seq d.response
  match d.fetch with
  | some t => fetchContext s t
  | none => s

/-- At once in SOLO, else when the partner holds every record written so far. -/
def deferOrRun (s : State) (d : Deferred) : State :=
  if twinSolo s then runDeferred s d else { s with deferred := s.deferred ++ [{ d with upTo := s.journal.next }] }

/-! ## Requests for the partner's regions (R508) -/

/-- A request's payload as R410 lays it out. -/
def requestBytes : OdpRequest → List Byte
  | .sessionClose => []
  | .ping d => leBytes 8 d.toNat
  | .read i b _ => leBytes 2 i.toNat ++ [b]
  | .write i b v _ => leBytes 2 i.toNat ++ [b, 0] ++ v
  | .readGroup is _ => is.flatMap fun x => leBytes 2 x.1.toNat ++ [x.2, 0]
  | .writeGroup ws _ => ws.flatMap fun w => leBytes 2 w.idx.toNat ++ [w.sub, 0] ++ leBytes 4 w.value.length ++ w.value
  | .blockRead i b o n _ => leBytes 2 i.toNat ++ [b, 0] ++ leBytes 4 o ++ leBytes 4 n
  | .blockWrite g _ => leBytes 2 g.idx.toNat ++ [g.sub, BitVec.ofNat 8 (boolNat g.first + 2 * boolNat g.last)] ++ leBytes 4 g.offset ++ leBytes 4 g.total ++ zeros 52 ++ g.data
  | .subscribe m ws => leBytes 4 m.toNat ++ leBytes 2 ws.length ++ ws.flatMap fun x => leBytes 2 x.1.toNat ++ [x.2, 0]
  | .submit b => b
  | .cancel t => leBytes 4 t.toNat
  | .complete t r o n => leBytes 4 t.toNat ++ [BitVec.ofNat 8 (boolNat r), 0, 0, 0] ++ leBytes 4 o ++ leBytes 4 n

/-- Whether an object belongs to a region that the partner homes. -/
def partnerObject (s : State) (idx : Nat) : Bool := decide (0x3100 ≤ idx ∧ idx < 0x3140) && !homed s (idx - 0x3100)

/-- Whether the home member answers a request of a pair session. The pieces of a block transfer stay with the front (log entry 45). -/
def forPartner (s : State) (n : Nat) (req : OdpRequest) : Bool :=
  (match sessionOf s n with
   | some x => x.pair && s.twin.front && !twinSolo s
   | none => false) &&
  match req with
  | .read i _ _ => partnerObject s i.toNat
  | .write i _ _ _ => partnerObject s i.toNat
  | .readGroup is _ => is.any fun x => partnerObject s x.1.toNat
  | .writeGroup ws _ => ws.any fun w => partnerObject s w.idx.toNat
  | .submit b => if recKind b = 6 then (findOrder s (recTarget b)).isNone else decide (recRegion b < 64) && !homed s (recRegion b) && ringActive s n (recRing b)
  | .cancel t => (findOrder s t).isNone
  | .complete t _ _ _ => (heldSlotOf s t).isNone
  | _ => false

/-- A request sent to the home member: session, role, sequence, opcode, payload. -/
def forwardRequest (s : State) (c : Caller) (seq : BitVec 32) (req : OdpRequest) : State :=
  emit s (.twin 0x30 s.journal.epoch ([1] ++ leBytes 1 c.session ++ leBytes 1 c.role ++ leBytes 4 seq.toNat ++ [opOf req] ++ requestBytes req))

/-! ## Reads -/

/-- The entries of a READ_GROUP read one after another; `finds` is what their window accesses meet. -/
def groupReads (c : Caller) : List ObjRef → List WindowFind → State → State × List Byte
  | [], _, s => (s, [])
  | x :: xs, finds, s =>
    let window := decide (x.1.toNat = 0x6000 ∧ x.2.toNat = 0x02)
    let (s, _, v) := readOne s c x.1.toNat x.2.toNat (if window then finds.headD .clean else .clean)
    let (s, vs) := groupReads c xs (if window then finds.tail else finds) s
    (s, leBytes 4 v.length ++ v ++ vs)

/-- A READ_GROUP: every entry is checked first, then all values are those of one device time (R444). -/
def readGroup (s : State) (c : Caller) (items : List ObjRef) (finds : List WindowFind) : State × Nat × List Byte :=
  if items = [] ∨ 32 < items.length then (s, 0xA301, [])
  else
    let st := firstOf (items.map fun x => (readOne s c x.1.toNat x.2.toNat .clean).2.1)
    if st ≠ 0 then (s, st, [])
    else
      let (s', vs) := groupReads c items finds s
      if 8256 < 8 + vs.length then (s, 0xA301, []) else (s', 0, leBytes 8 (now s) ++ vs)

/-- A BLOCK_READ (R443): offset 0 latches a snapshot, later pieces come from it until it has gone unused for 1 s. A piece ends with the value (log entry 41). -/
def blockPiece (s : State) (c : Caller) (idx sub : Nat) (offset len : Nat) (w : WindowFind) : State × Nat × List Byte :=
  let st := readCheck s c idx sub
  if st ≠ 0 ∧ st ≠ 0xA401 then (s, st, [])
  else if len = 0 ∨ 8192 < len then (s, 0xA301, [])
  else if st ≠ 0 then (s, st, [])
  else match sessionOf s c.session with
    | none => (s, 0xA401, [])
    | some x =>
      if offset = 0 then
        let (s, v) := objRead s idx sub w
        let snap : Snapshot := { idx := BitVec.ofNat 16 idx, sub := BitVec.ofNat 8 sub, data := v, used := now s }
        (modSession s c.session fun x => { x with snapshot := some snap }, 0, v.take len)
      else match x.snapshot with
        | some p =>
          if p.idx.toNat = idx ∧ p.sub.toNat = sub ∧ now s < p.used + 16000000000 then
            (setSession s c.session { x with snapshot := some { p with used := now s } }, 0, (p.data.drop offset).take len)
          else (s, 0xA401, [])
        | none => (s, 0xA401, [])

/-- A SUBSCRIBE (R427, R456). -/
def subscribe (s : State) (c : Caller) (mask : BitVec 32) (ws : List ObjRef) : State × Nat :=
  if 16 < ws.length then (s, 0xA303)
  else
    let st := firstOf (ws.map fun w => readCheck s c w.1.toNat w.2.toNat)
    if st ≠ 0 then (s, st)
    else (modSession s c.session fun x =>
      { x with mask := mask &&& 0xFF, watches := ws.map fun w => { idx := w.1, sub := w.2, value := objValue s w.1.toNat w.2.toNat, sentAt := none } }, 0)

/-- A COMPLETE on a held slot (R425). -/
def completeHeld (s : State) (tag : BitVec 32) (rel : Bool) (offset len : Nat) : State × Nat × List Byte :=
  if 8192 < len then (s, 0xA303, [])
  else match heldSlotOf s tag with
    | none => (s, 0xA402, [])
    | some i =>
      let h := heldOf s i
      if h.state = 1 then (s, 0xA401, [])
      else if 65472 < offset + len then (s, 0xA303, [])
      else (if rel then setHeld s i { h with state := 3 } else s, 0, slice h.data offset len)

/-! ## Writes (R438, R439, R445, R446) -/

/-- The checks of a WRITE or a group's entry, which carries at most 8,192 bytes (R434). -/
def writeChecked (s : State) (c : Caller) (idx sub : Nat) (v : List Byte) (aid : List JRecord) : State × Nat :=
  if 8192 < v.length then (s, firstOf [indexCheck idx sub, roleCheck c idx sub true, accessCheck s idx sub v, 0xA301])
  else writeCheck s c idx sub v aid

/-- A checked write: journaled and acknowledged where its row says so, then applied and answered. -/
def writeGo (s : State) (c : Caller) (seq : BitVec 32) (op : BitVec 8) (idx sub : Nat) (v : List Byte) (aid : List JRecord) : State :=
  let r := response op 0 []
  let w : ObjWrite := ⟨BitVec.ofNat 16 idx, BitVec.ofNat 8 sub, v⟩
  if journaledObj idx sub then
    deferOrRun (writeRecord s idx sub v) { session := c.session, seq := seq, upTo := 0, response := r, writes := [w], read_ := aid, ringEntry := none, fetch := none }
  else finish (writeApply s c idx sub v aid) c.session seq r

def performWrite (s : State) (c : Caller) (seq : BitVec 32) (idx sub : Nat) (v : List Byte) (aid : List JRecord) : State :=
  let (s, st) := writeChecked s c idx sub v aid
  if st ≠ 0 then finish s c.session seq (response 0x11 st []) else writeGo s c seq 0x11 idx sub v aid

/-- The first failing entry of a group with its status: each is checked in the state that the earlier ones would leave. -/
def groupFails (c : Caller) (aid : List JRecord) : List ObjWrite → List Nat → Nat → State → Option (Nat × Nat)
  | [], _, _, _ => none
  | w :: ws, seen, i, s =>
    let idx := w.idx.toNat
    let sub := w.sub.toNat
    if seen.contains (objKey idx sub) then some (i, 0xA301)
    else
      let (s, st) := writeChecked s c idx sub w.value aid
      if st ≠ 0 then some (i, st)
      else groupFails c aid ws (objKey idx sub :: seen) (i + 1) (writeApply (if journaledObj idx sub then writeRecord s idx sub w.value else s) c idx sub w.value aid)

/-- The traces that the checks of entries leave whether or not the group passes: nonces used and failures recorded. -/
def groupTraces (c : Caller) (aid : List JRecord) (ws : List ObjWrite) (s : State) : State :=
  ws.foldl (fun s w => (writeChecked s c w.idx.toNat w.sub.toNat w.value aid).1) s

def performWriteGroup (s : State) (c : Caller) (seq : BitVec 32) (ws : List ObjWrite) (aid : List JRecord) : State :=
  let fail (s : State) (i st : Nat) : State := finish s c.session seq ⟨0x13, BitVec.ofNat 16 st, leBytes 2 i⟩
  if ws = [] ∨ 32 < ws.length then fail s (min 32 ws.length) 0xA301
  else match groupFails c aid ws [] 0 s with
    | some (i, st) => fail (groupTraces c aid (ws.take (i + 1)) s) i st
    | none =>
      let s := groupTraces c aid ws s
      let js := ws.filter fun w => journaledObj w.idx.toNat w.sub.toNat
      let s := js.foldl (fun s w => writeRecord s w.idx.toNat w.sub.toNat w.value) s
      let d : Deferred := { session := c.session, seq := seq, upTo := 0, response := response 0x13 0 [], writes := ws, read_ := aid, ringEntry := none, fetch := none }
      if js = [] then runDeferred s d else deferOrRun s d

/-- The largest value that an object takes. -/
def objLimit (idx sub : Nat) : Nat := match objRow idx sub with
  | some r => match r.type with
    | .uint n => n
    | .sint n => n
    | .bool => 1
    | .f32 => 4
    | .time => 8
    | .str => 64
    | .domain n _ => n
  | none => 0

/-- Whether a segment's own numbers fit: its length, its end, and the object's size (R414). -/
def segmentFits (g : Segment) : Bool :=
  let n := g.data.length
  decide (1 ≤ n ∧ n ≤ 8192 ∧ g.offset + n ≤ g.total ∧ g.total ≤ objLimit g.idx.toNat g.sub.toNat) && g.zeroTail &&
    (if g.last then decide (g.offset + n = g.total) else decide (n = 8192 ∧ g.offset + n < g.total)) && (!g.first || decide (g.offset = 0))

/-- A BLOCK_WRITE segment (R414): the value is applied whole when the LAST segment arrives; a transfer without a segment for 1 s is over. -/
def performBlockWrite (s : State) (c : Caller) (seq : BitVec 32) (g : Segment) (aid : List JRecord) : State :=
  let idx := g.idx.toNat
  let sub := g.sub.toNat
  let st := firstOf [indexCheck idx sub, roleCheck c idx sub true, accessCheck s idx sub g.data]
  let same (t : Transfer) : Bool := decide (t.idx = g.idx ∧ t.sub = g.sub)
  let live (t : Transfer) : Bool := same t && decide (now s < t.last + 16000000000)
  let drop (s : State) : State := modSession s c.session fun x => { x with transfers := x.transfers.filter fun t => !same t }
  let old := match sessionOf s c.session with
    | some x => x.transfers.find? live
    | none => none
  let follows := g.first || match old with
    | some t => decide (t.data.length = g.offset ∧ t.total = g.total)
    | none => false
  if st ≠ 0 then finish s c.session seq (response 0x15 st [])
  else if !(segmentFits g && follows) then finish (drop s) c.session seq (response 0x15 0xA301 [])
  else
    let data := if g.first then g.data else (match old with
      | some t => t.data
      | none => []) ++ g.data
    let s := drop s
    if g.last then
      let (s, st) := writeCheck s c idx sub data aid
      if st ≠ 0 then finish s c.session seq (response 0x15 st []) else writeGo s c seq 0x15 idx sub data aid
    else
      let t : Transfer := { idx := g.idx, sub := g.sub, total := g.total, data := data, last := now s }
      finish (modSession s c.session fun x => { x with transfers := x.transfers ++ [t] }) c.session seq (response 0x15 0 [])

/-! ## Orders (R20, R296, R300, R416 to R421, R519) -/

/-- The open order that a resent SUBMIT repeats byte for byte, after a failover (R519). -/
def resentOrder (s : State) (b : List Byte) : Option Order :=
  if dnum s 0x4800 0x0E = 0 then none
  else match findOrder s (BitVec.ofNat 32 (leAt b 0 4)) with
    | some o => if o.record = withRegion b o.region then some o else none
    | none => none

/-- A SUBMIT checked: a status with nothing done, or the order journaled and entered. The number is the held-result slot. -/
def submitEnter (s : State) (n : Nat) (b : List Byte) : State × Nat × Nat × Option (BitVec 32) :=
  let tag := BitVec.ofNat 32 (leAt b 0 4)
  let slot (s : State) : Nat := match findOrder s tag with
    | some o => o.heldSlot.getD 0xFFFFFFFF
    | none => 0xFFFFFFFF
  if b.length ≠ 128 then (s, 0xA301, 0, none)
  else if (resentOrder s b).isSome then (s, 0, slot s, none)
  else
    let st := submitCheck s n b
    if st ≠ 0 then
      (if recKind b = 6 || ringActive s n (recRing b) then dcount s 0x3400 0x04 8 1 else s, st, 0, none)
    else
      let s := dcount s 0x3400 0x02 8 1
      let s : State := { s with boot := { s.boot with firstSubmit := true } }
      if recKind b = 6 then (cancelJournal s (recTarget b) 0, 0, 0xFFFFFFFF, none)
      else
        let r := (chooseRegion s b).getD 0
        let s := jAppend s 1 r (some tag) (withRegion b r)
        let s := enterOrder s n b r false
        (s, 0, slot s, some tag)

/-- The cancellation that a record of kind CANCEL leaves to do. -/
def cancelWrites (b : List Byte) : List ObjWrite := if recKind b = 6 then [⟨0, 0, slice b 44 4⟩] else []

def performSubmit (s : State) (c : Caller) (seq : BitVec 32) (b : List Byte) : State :=
  let (s, st, slot, tag) := submitEnter s c.session b
  if st ≠ 0 then finish s c.session seq (response 0x30 st [])
  else deferOrRun s { session := c.session, seq := seq, upTo := 0, response := response 0x30 0 (leBytes 4 slot), writes := cancelWrites b, read_ := [], ringEntry := none, fetch := tag }

def performCancel (s : State) (c : Caller) (seq : BitVec 32) (t : BitVec 32) : State :=
  if !jRoom s 5 false then finish s c.session seq (response 0x31 0xA501 [])
  else deferOrRun (cancelJournal s t 1)
    { session := c.session, seq := seq, upTo := 0, response := response 0x31 0 [], writes := [⟨0, 0, leBytes 4 t.toNat⟩], read_ := [], ringEntry := none, fetch := none }

/-- The ring that an entry's outcome goes to: its own when active, else the session's first active one. -/
def outcomeRing (s : State) (n : Nat) (b : List Byte) : Option Nat :=
  if ringActive s n (recRing b) then some (recRing b)
  else ((List.range 16).map fun i => 16 * (n - 1) + i).find? (ringActive s n)

/-- A submission-ring entry or an inbound SEND (R418, R421): a SUBMIT whose outcome is a ring entry. -/
def ringSubmit (s : State) (n : Nat) (b : List Byte) (ringIdx : Nat) : State := match sessionOf s n with
  | none => s
  | some x =>
    let tag := BitVec.ofNat 32 (leAt b 0 4)
    let (s, st, _, fetch) := if x.role = 2 then (s, 0xA601, 0, none) else submitEnter s n b
    let region := match findOrder s tag with
      | some o => if st = 0 then o.region else recRegion b
      | none => recRegion b
    let ring := outcomeRing s n b
    let entry (type : Nat) : List Byte := entryBytes tag type 0 st 0 ringIdx 0 region
    if st ≠ 0 then (match ring with
      | some r => ringPush s r (entry 2) []
      | none => s)
    else
      let d : Deferred :=
        { session := n, seq := 0, upTo := 0, response := response 0x30 0 [], writes := cancelWrites b, read_ := [],
          ringEntry := some (ring.getD 0x1000, entry 1), fetch := fetch }
      deferOrRun s d

/-! ## One request started (R410, R413) -/

/-- Whether an OBSERVER may make a request. -/
def observerMay : OdpRequest → Bool
  | .sessionClose => true
  | .ping _ => true
  | .read _ _ _ => true
  | .readGroup _ _ => true
  | .blockRead _ _ _ _ _ => true
  | .subscribe _ _ => true
  | .write _ _ _ _ => true
  | .blockWrite _ _ => true
  | .writeGroup _ _ => true
  | _ => false

/-- A started request is performed and answered, or left to be answered later. Writes judge the role after index and subindex (R436). -/
def perform (s : State) (c : Caller) (seq : BitVec 32) (req : OdpRequest) : State :=
  let op := opOf req
  let n := c.session
  if c.role = 2 && !observerMay req then finish s n seq (response op 0xA601 [])
  else if forPartner s n req then forwardRequest s c seq req
  else match req with
    | .sessionClose => closeSession (finish s n seq (response op 0 [])) n
    | .ping d => finish s n seq (response op 0 (leBytes 8 d.toNat ++ leBytes 8 (now s)))
    | .read i b w =>
      let (s, st, v) := readOne s c i.toNat b.toNat w
      finish s n seq (response op st v)
    | .write i b v aid => performWrite s c seq i.toNat b.toNat v aid
    | .readGroup is finds =>
      let (s, st, v) := readGroup s c is finds
      finish s n seq (response op st v)
    | .writeGroup ws aid => performWriteGroup s c seq ws aid
    | .blockRead i b o l w =>
      let (s, st, v) := blockPiece s c i.toNat b.toNat o l w
      finish s n seq (response op st v)
    | .blockWrite g aid => performBlockWrite s c seq g aid
    | .subscribe m ws =>
      let (s, st) := subscribe s c m ws
      finish s n seq (response op st [])
    | .submit b => performSubmit s c seq b
    | .cancel t => performCancel s c seq t
    | .complete t r o l =>
      let (s, st, v) := completeHeld s t r o l
      finish s n seq (response op st v)

/-! ## Order of starting (R409, R415, R438) -/

/-- The subindices that a request touches. -/
def touches : OdpRequest → List Nat
  | .read i b _ => [objKey i.toNat b.toNat]
  | .write i b _ _ => [objKey i.toNat b.toNat]
  | .readGroup is _ => is.map fun x => objKey x.1.toNat x.2.toNat
  | .writeGroup ws _ => ws.map fun w => objKey w.idx.toNat w.sub.toNat
  | .blockRead i b _ _ _ => [objKey i.toNat b.toNat]
  | .blockWrite g _ => [objKey g.idx.toNat g.sub.toNat]
  | .subscribe _ ws => ws.map fun x => objKey x.1.toNat x.2.toNat
  | _ => []

/-- Whether a request may start: a SESSION_CLOSE after every answer, others once no earlier write of the session to a subindex they touch is waiting. -/
def mayStart (s : State) (n : Nat) (x : Session) (req : OdpRequest) : Bool :=
  let waiting := (s.deferred.filter fun d => decide (d.session = n)).flatMap fun d => d.writes.map fun w => objKey w.idx.toNat w.sub.toNat
  (match req with
   | .sessionClose => x.started.isEmpty
   | _ => true) && !(touches req).any waiting.contains

/-- The held requests of a session start in sequence order, as far as they have arrived and may. -/
def pump (n : Nat) : Nat → State → State
  | 0, s => s
  | k + 1, s => match sessionOf s n with
    | none => s
    | some x => match x.held with
      | [] => s
      | (seq, f, req) :: rest =>
        if seqAfter x.received seq || !mayStart s n x req then s
        else
          let s := setSession s n { x with held := rest, started := x.started ++ [(seq, f.port)] }
          pump n k (perform s { session := n, role := x.role, ip := f.ip, port := f.port } seq req)

def pumpAll (s : State) (n : Nat) : State := pump n 257 s

/-- Deferred requests are settled in their order, as far as the partner has acknowledged. -/
def settleFrom : Nat → State → State
  | 0, s => s
  | k + 1, s => match s.deferred with
    | [] => s
    | d :: rest =>
      if twinSolo s || decide (d.upTo ≤ s.journal.partnerAcked) then
        settleFrom k (pumpAll (runDeferred { s with deferred := rest } d) d.session)
      else s

def settleDeferred (s : State) : State := settleFrom (s.deferred.length + 1) s

/-! ## Frames (R406 to R408, R412, R428, R429) -/

/-- A violation of a frame, as the log keeps it. -/
def frameEntry (s : State) (f : Frame) (status : Nat) (op : BitVec 8) (detail : Nat) : VEntry :=
  { time := now s, mac := f.mac, port := portNo f.port, repeats := 0, ip := f.ip, udp := f.udp, session := f.session, status := BitVec.ofNat 16 status,
    opcode := op, detail := BitVec.ofNat 64 detail }

/-- An ABORT carries the frame's session and sequence. -/
def abortFrame (s : State) (f : Frame) (status : Nat) (op : BitVec 8) (detail : Nat) : State :=
  sendFrame (vlogAdd s (frameEntry s f status op detail)) f.port (.odpAbort f.port f.session.toNat f.seq.toNat (BitVec.ofNat 16 status))

/-- Frames without an open session: at most 1,000 in a second on each port, the rest dropped and logged once per second with their count. -/
def loosePass (s : State) (f : Frame) (op : BitVec 8) : State × Bool :=
  let p := portNo f.port
  let x := portOf s p
  let sec := now s / 16000000000
  let x := if x.looseAt = sec then x else { x with looseAt := sec, loose := 0 }
  if x.loose < 1000 then (setPort s p { x with loose := x.loose + 1 }, true)
  else
    let x := { x with looseDropped := x.looseDropped + 1 }
    if x.looseLog = some sec then (setPort s p x, false)
    else (vlogAdd (setPort s p { x with looseLog := some sec, looseDropped := 0 }) (frameEntry s f 0xA502 op x.looseDropped), false)

/-- A token taken from a session's bucket of 2,000,000 frames per second; without one the first frame of each 1 ms is answered 0xA502. -/
def bucketPass (s : State) (n : Nat) (x : Session) (f : Frame) (op : BitVec 8) : State × Bool :=
  let gained := (now s - x.bucketAt) / 8000
  let full := decide (4096 ≤ x.bucket + gained)
  let x := { x with bucket := min 4096 (x.bucket + gained), bucketAt := if full then now s else x.bucketAt + gained * 8000 }
  if 0 < x.bucket then (setSession s n { x with bucket := x.bucket - 1 }, true)
  else
    let ms := now s / 16000000
    let sec := now s / 16000000000
    let answer := decide (x.lastLimited ≠ some ms)
    let x := { x with lastLimited := some ms, limitedCount := x.limitedCount + 1 }
    let log := decide (x.lastLimitLog ≠ some sec)
    let count := x.limitedCount
    let s := setSession s n (if log then { x with lastLimitLog := some sec, limitedCount := 0 } else x)
    let s := if log then vlogAdd s (frameEntry s f 0xA502 op count) else s
    (if answer then sendFrame s f.port (.odp f.port n f.seq x.received (response op 0xA502 [])) else s, false)

/-- Whether a session admits a frame's source (R412). -/
def sourceOk (x : Session) (f : Frame) : Bool :=
  decide (f.ip = x.ip ∧ f.udp = x.udp) || decide (x.altIp ≠ 0 ∧ f.ip = x.altIp ∧ f.udp = x.altUdp)

/-- The UDP port on which SESSION_OPEN requests arrive (R452). -/
def openPort (s : State) : BitVec 16 := BitVec.ofNat 16 (dnum s 0x1100 0x08)

/-- Whether the device accepts frames on a UDP port: that of 0x1100:08, and one on which an open session opened (R452; DEDUCED, log entry 162). -/
def udpOpen (s : State) (d : BitVec 16) : Bool := decide (d = openPort s) || s.sessions.any fun x => decide (x.2.odpPort = d)

/-- Whether a frame reaches the protocol: a port that is up, an accepted UDP port, and the pair address at the front alone (R403, R452, R507). -/
def frameReaches (s : State) (f : Frame) : Bool := portUp s (portNo f.port) && udpOpen s f.dport && (!f.toPair || s.twin.front)

/-- What every frame passes first: its ports and address, the limits, an open session and its source. -/
def frameIn (s : State) (f : Frame) (op : BitVec 8) (detail : Nat) : State × Option Session :=
  if !frameReaches s f then (s, none)
  else
    let s := dcount s (0x1100 + portNo f.port) 0x0E 8 1
    let n := f.session.toNat
    match sessionOf s n with
    | none =>
      let (s, ok) := loosePass s f op
      (if ok then abortFrame s f 0xA401 op detail else s, none)
    | some x =>
      let (s, ok) := bucketPass s n x f op
      if !ok then (s, none)
      else match sessionOf s n with
        | none => (s, none)
        | some x =>
          let x := if x.ip = 0 ∧ x.udp = 0 then { x with ip := f.ip, udp := f.udp, port := f.port } else x
          if !sourceOk x f then (abortFrame s f 0xA601 op detail, none)
          else
            let x := { x with lastFrame := now s }
            (setSession s n x, some x)

/-- Bytes of a request's payload. -/
def requestLength (req : OdpRequest) : Nat := (requestBytes req).length

/-- The object that a request names first, as the log shows it. -/
def requestDetail (req : OdpRequest) : Nat := (touches req).headD 0

/-- A request put among those held, ascending from the low edge. -/
def holdRequest (low seq : BitVec 32) (f : Frame) (req : OdpRequest) (h : List (BitVec 32 × Frame × OdpRequest)) : List (BitVec 32 × Frame × OdpRequest) :=
  let d (q : BitVec 32) : Nat := (q - low).toNat
  h.filter (fun e => decide (d e.1 < d seq)) ++ (seq, f, req) :: h.filter (fun e => decide (d seq < d e.1))

/-- The highest sequence up to which every request has come. -/
def contiguous (h : List (BitVec 32 × Frame × OdpRequest)) : Nat → BitVec 32 → BitVec 32
  | 0, r => r
  | k + 1, r => if h.any fun e => decide (e.1 = r + 1) then contiguous h k (r + 1) else r

/-- A request frame that its session admits: acknowledge, window, duplicates, and the order of starting. -/
def odpPass (f : Frame) (req : OdpRequest) (s : State) (x : Session) : State :=
  let op := opOf req
  let detail := requestDetail req
  let n := f.session.toNat
  if 8256 < requestLength req then abortFrame s f 0xA101 op detail
  else if seqAfter x.answered f.ack then abortFrame s f 0xA101 op detail
  else
    let low := if seqAfter x.low f.ack then f.ack else x.low
    let d := (f.seq - low).toNat
    if d = 0 ∨ 256 < d then abortFrame s f 0xA103 op detail
    else
      let x0 := x.low
      let x := { x with low := low, cache := x.cache.filter fun e => seqAfter low e.1 }
      match x.cache.find? fun e => decide (e.1 = f.seq) with
      | some e => sendFrame (dcount (setSession s n x) 0x1100 0x0A 8 1) f.port (.odp f.port n f.seq x.received e.2)
      | none =>
        if (x.started.any fun e => decide (e.1 = f.seq)) || (x.held.any fun e => decide (e.1 = f.seq)) then setSession s n x
        else
          let held := holdRequest low f.seq f req x.held
          let x := { x with held := held, received := contiguous held 256 x.received }
          pumpAll (if low = x0 then setSession s n x else sessionMessage (setSession s n x) n true) n

/-- A request frame as it comes. -/
def odpArrive (f : Frame) (req : OdpRequest) (s : State) : State := match frameIn s f (opOf req) (requestDetail req) with
  | (s, none) => s
  | (s, some x) => odpPass f req s x

end Sys2Proof.Machine
end

