-- ==== Sys2Proof/Machine/OdpRows.lean ====
section
/-! DEFINITION. The commands of the host protocol: sessions, requests, violations, doorbells, and the writes of objects that have a row of their own (R410 to R430, and the rows that name an object). -/
namespace Sys2Proof.Machine
open Sys2Proof

/-! ## SESSION_OPEN (R412, R422, R450, R588) -/

/-- Whether a ring descriptor is valid (R422). -/
def descOk (d : RingDesc) : Bool :=
  decide (d.addr.toNat % 4096 = 0 ∧ 64 ≤ d.entries ∧ d.entries ≤ 65536 ∧ 2 ^ Nat.log2 d.entries = d.entries ∧ d.consumer.toNat % 8 = 0) && d.zeroTail

/-- Whether an address matches a management source: the entry's prefix length is not 0 and its leading bits agree (R450). -/
def sourceMatches (entry : List Byte) (ip : BitVec 128) : Bool :=
  let n := leAt entry 16 1
  let p := (slice entry 0 16).foldl (fun a b => a * 256 + b.toNat) 0
  decide (n ≠ 0 ∧ n ≤ 128 ∧ p / 2 ^ (128 - n) = ip.toNat / 2 ^ (128 - n))

/-- Whether MANAGEMENT is admitted from a frame's source. -/
def managementFrom (s : State) (f : Frame) : Bool :=
  decide (f.port = .mp) || (List.range 8).any fun i => sourceMatches (slice (dget s 0x1100 0x09) (20 * i) 20) f.ip

/-- The credential of an OPERATOR or MANAGEMENT session of an owned device: a block of purpose 3 whose nonce names an OBSERVER session from the same address, which closes at the check (R588). -/
def credentialOk (s : State) (f : Frame) (role : Nat) (b : List Byte) : State × Bool :=
  if role = 2 ∨ !owned s then (s, true)
  else
    let k := leAt (blkNonce b) 0 2
    let named := match sessionOf s k with
      | some x => decide (x.role = 2 ∧ x.ip = f.ip ∧ x.token.toNat = leAt (blkNonce b) 2 4) && decide ((blkNonce b).drop 6 = zeros 26)
      | none => false
    let ok := decide (b.length = 7259) && named && blkVerifies s 3 [BitVec.ofNat 8 role] b
    let s := if named then closeSession s k else s
    if ok then (s, true) else (credentialFailed s 3 (blkSlot b) f.ip, false)

/-- The lowest free session number. -/
def freeSession (s : State) : Option Nat := ((List.range 16).map (· + 1)).find? fun n => (sessionOf s n).isNone

/-- The checks of a SESSION_OPEN. -/
def openCheck (s : State) (f : Frame) (q : OpenReq) : State × Nat :=
  let role := q.role.toNat
  if 2 < role then (s, 0xA303)
  else
    let (s, ok) := credentialOk s f role q.credential
    if !ok then (s, 0xA601)
    else if role = 1 && (!managementFrom s f || s.sessions.any fun x => decide (x.2.role = 1)) then (s, 0xA601)
    else if 16 < q.rings.length then (s, 0xA303)
    else if !q.rings.all descOk then (s, 0xA301)
    else if q.keepalive < 100 then (s, 0xA302)
    else if 60000 < q.keepalive then (s, 0xA303)
    else if (freeSession s).isNone then (s, 0xA501)
    else (s, 0)

/-- A session opened under number n: its token and the addresses and keys of its areas are the device's own (log entry 3). -/
def openSession (s : State) (f : Frame) (q : OpenReq) (n : Nat) : State × List Byte :=
  let (token, s) := freeWord s
  let (heldA, s) := freeWord s
  let (subA, s) := freeWord s
  let (bellA, s) := freeWord s
  let (k, s) := freeBytes s 12
  let x : Session :=
    { role := q.role.toNat, token := token.setWidth 32, port := f.port, ip := f.ip, udp := f.udp, altIp := q.altIp, altUdp := q.altUdp,
      odpPort := f.dport, pair := f.toPair, low := 0, received := 0, answered := 0, held := [], started := [], cache := [],
      keepalive := q.keepalive, lastFrame := now s, rings := q.rings, consumer := 0, producer := 0, transfers := [], snapshot := none, mask := 0,
      watches := [], events := [], eventSeq := 0, sent := 0, lost := 0, bucket := 4096, bucketAt := now s, lastLimited := none, lastLimitLog := none,
      limitedCount := 0 }
  let s := setSession s n x
  let s := q.rings.zipIdx.foldl (fun s (d, i) => setRing s (16 * (n - 1) + i) { Ring.none with desc := d }) s
  (sessionMessage s n true,
   leBytes 2 n ++ zeros 2 ++ leBytes 4 x.token.toNat ++ leBytes 8 heldA.toNat ++ slice k 0 4 ++ zeros 4 ++ leBytes 8 subA.toNat ++ slice k 4 4 ++ zeros 4 ++
     leBytes 8 bellA.toNat ++ slice k 8 4)

/-- The limit that a frame is counted in: its session's bucket, or its port's count of frames without a session (R428, R429). -/
def limitPass (s : State) (f : Frame) (op : BitVec 8) : State × Bool := match sessionOf s f.session.toNat with
  | some x => bucketPass s f.session.toNat x f op
  | none => loosePass s f op

/-- SESSION_OPEN (R412, R452). -/
def execSessionOpen (f : Frame) (req : OpenReq) (s : State) : Answer :=
  if !frameReaches s f || decide (f.dport ≠ openPort s) then answer s
  else
    let s := dcount s (0x1100 + portNo f.port) 0x0E 8 1
    let (s, ok) := limitPass s f 0x01
    if !ok then answer s
    else if f.session ≠ 0 then answer (abortFrame s f 0xA401 0x01 0)
    else
      let reply (s : State) (st : Nat) (v : List Byte) : State := sendFrame s f.port (.odp f.port 0 f.seq 0 (response 0x01 st v))
      let (s, st) := openCheck s f req
      if st ≠ 0 then answer (reply s st [])
      else match freeSession s with
        | none => answer (reply s 0xA501 [])
        | some n =>
          let (s, v) := openSession s f req n
          answer (reply s 0 v)

/-! ## Requests (R410) -/

/-- SESSION_CLOSE (R415). -/
def execSessionClose (f : Frame) (s : State) : Answer := answer (odpArrive f .sessionClose s)

/-- ABORT from the host (R415): the session closes, and its unanswered requests are discarded. -/
def execAbort (f : Frame) (s : State) : Answer := match frameIn s f 0x7F 0 with
  | (s, none) => answer s
  | (s, some _) => answer (closeSession s f.session.toNat)

/-- PING (R410). -/
def execPing (f : Frame) (data : BitVec 64) (s : State) : Answer := answer (odpArrive f (.ping data) s)

/-- READ (R436). -/
def execRead (a : ReadFrame) (idx : BitVec 16) (sub : BitVec 8) (s : State) : Answer := answer (odpArrive a.frame (.read idx sub a.find) s)

/-- WRITE (R438). -/
def execWrite (a : WriteFrame) (idx : BitVec 16) (sub : BitVec 8) (value : List Byte) (s : State) : Answer :=
  answer (odpArrive a.frame (.write idx sub value a.buffer) s)

/-- READ_GROUP (R444). -/
def execReadGroup (a : ReadFrame) (items : List ObjRef) (s : State) : Answer := answer (odpArrive a.frame (.readGroup items a.finds) s)

/-- WRITE_GROUP (R445). -/
def execWriteGroup (a : WriteFrame) (items : List ObjWrite) (s : State) : Answer := answer (odpArrive a.frame (.writeGroup items a.buffer) s)

/-- BLOCK_READ (R443). -/
def execBlockRead (a : ReadFrame) (idx : BitVec 16) (sub : BitVec 8) (offset len : Nat) (s : State) : Answer :=
  answer (odpArrive a.frame (.blockRead idx sub offset len a.find) s)

/-- BLOCK_WRITE (R414). -/
def execBlockWrite (a : WriteFrame) (seg : Segment) (s : State) : Answer := answer (odpArrive a.frame (.blockWrite seg a.buffer) s)

/-- SUBSCRIBE (R427). -/
def execSubscribe (f : Frame) (mask : BitVec 32) (watches : List ObjRef) (s : State) : Answer := answer (odpArrive f (.subscribe mask watches) s)

/-- EVENT_RESPONSE (R427): the EVENT of the frame's sequence is held no longer. -/
def execEventResponse (f : Frame) (s : State) : Answer := match frameIn s f 0x21 0 with
  | (s, none) => answer s
  | (s, some _) => answer (modSession s f.session.toNat fun x => { x with events := x.events.filter fun e => decide (e.seq ≠ f.seq) })

/-- SUBMIT (R296). -/
def execSubmit (f : Frame) (order : List Byte) (s : State) : Answer := answer (odpArrive f (.submit order) s)

/-- CANCEL (R300). -/
def execCancel (f : Frame) (target : BitVec 32) (s : State) : Answer := answer (odpArrive f (.cancel target) s)

/-- COMPLETE (R425). -/
def execComplete (f : Frame) (tag : BitVec 32) (rel : Bool) (offset len : Nat) (s : State) : Answer := answer (odpArrive f (.complete tag rel offset len) s)

/-! ## Frames that violate the protocol (R428) -/

/-- Opcodes that a host may send in a request frame: EVENT is the device's. -/
def knownOpcode (n : Nat) : Bool := ([0x01, 0x02, 0x03, 0x10, 0x11, 0x12, 0x13, 0x14, 0x15, 0x20, 0x30, 0x31, 0x32, 0x7F] : List Nat).contains n

/-- ODP_FRAME_REJECT (R428): a datagram whose bytes violate the frame format. One that does not is no violation and is left to its own row. A bad check word or magic is counted in no limit (DESIGN CHOICE, log entry 157). -/
def execOdpFrameReject (port : HostPort) (mac : BitVec 48) (ip : BitVec 128) (udp : UdpPorts) (raw : List Byte) (s : State) : Answer :=
  let op := raw.getD 3 0
  let f : Frame := { port := port, toPair := false, mac := mac, ip := ip, udp := udp.src, dport := udp.dst, session := BitVec.ofNat 16 (leAt raw 6 2),
                     seq := BitVec.ofNat 32 (leAt raw 8 4), ack := BitVec.ofNat 32 (leAt raw 12 4) }
  let n := raw.length - 4
  let answered := (leAt raw 4 2).testBit 0
  if !frameReaches s f then answer s
  else if raw.length < 4 ∨ crc32c (raw.take n) ≠ leAt raw n 4 then
    answer (vlogAdd (dcount s (0x1100 + portNo port) 0x0E 8 1) (frameEntry s { f with session := 0 } 0xA101 0 0))
  else if raw.length < 2 + 4 ∨ leAt raw 0 2 ≠ 0x4F44 then
    answer (vlogAdd (dcount s (0x1100 + portNo port) 0x0E 8 1) (frameEntry s { f with session := 0 } 0xA101 0 0))
  else
    let status := if raw.length < 28 ∨ raw.getD 2 0 ≠ 1 ∨ leAt raw 16 4 + 28 ≠ raw.length ∨ 8256 < leAt raw 16 4 ∨ (answered && decide (op ≠ 0x21)) then 0xA101
      else if !knownOpcode op.toNat && !answered then 0xA104 else 0
    if status = 0 then answer s
    else
      let s := dcount s (0x1100 + portNo port) 0x0E 8 1
      let f : Frame := if raw.length < 28 then { f with session := 0, seq := 0 } else f
      let (s, ok) := limitPass s f op
      answer (if ok then abortFrame s f status op 0 else s)

/-! ## Doorbells and inbound SENDs (R417, R418, R421, R491) -/

/-- The entries of a doorbell, in ring order from the consumer count. -/
def ringEntries (n from_ : Nat) : List (List Byte) → Nat → State → State
  | [], _, s => s
  | b :: bs, i, s => ringEntries n from_ bs (i + 1) (ringSubmit s n b ((from_ + i) % 4096))

/-- DOORBELL (R418): the word goes through channel MB47 + s to the order engine, which takes it. `entries` is what the submission ring holds from the consumer count on. -/
def execDoorbell (session : Fin 17) (word : BitVec 64) (entries : List (List Byte)) (s : State) : Answer :=
  let n := session.val
  let m := 47 + n
  if n = 0 ∨ !mbIsSender s m 0x094 then answer s
  else
    let s := mbCommit s m word.toNat
    let w := reg64 s (mbReg m 0)
    let s := if mbIsReceiver s m 0x010 then mbEmpty s m else s
    match sessionOf s n with
    | none => answer (vlogRoce s n w)
    | some x =>
      let p := BitVec.ofNat 32 (fld w 16 32)
      let ahead := (p - x.consumer).toNat
      if fld w 0 16 ≠ n - 1 then answer (vlogRoce s n w)
      else if ahead = 0 then answer s
      else if !seqAfter x.consumer p ∨ 4096 < ahead then answer (vlogRoce s n w)
      else if entries.length ≠ ahead ∨ entries.any (fun b => decide (b.length ≠ 128)) then answer s
      else answer (ringEntries n x.consumer.toNat entries 0 (setSession s n { x with consumer := p, producer := p }))

/-- INBOUND_SEND (R421): one work order, or a local length error. -/
def execInboundSend (qp : BitVec 24) (data : List Byte) (s : State) : Answer :=
  let q := qpOf s qp.toNat
  if q = QueuePair.none ∨ q.error then answer s
  else if data.length = 128 then answer (ringSubmit s q.session data 0)
  else answer (emit (vlogRoce s q.session qp.toNat) (.roceNak qp.toNat 1))

/-! ## Objects with a row of their own -/

/-- A WRITE frame of one object. -/
def writeFrame (f : Frame) (idx sub : Nat) (v : List Byte) (s : State) : Answer :=
  answer (odpArrive f (.write (BitVec.ofNat 16 idx) (BitVec.ofNat 8 sub) v []) s)

/-- HOOD_LOAD_REQUEST (R273): a write of 0x3200:01. -/
def execHoodLoadRequest (f : Frame) (value : List Byte) (s : State) : Answer := writeFrame f 0x3200 0x01 value s
/-- HOOD_UNLOAD (R274): a write of 0x3200:02. -/
def execHoodUnload (f : Frame) (value : List Byte) (s : State) : Answer := writeFrame f 0x3200 0x02 value s
/-- ADAPTER_LOAD_REQUEST (R286): a write of 0x3300:01. -/
def execAdapterLoadRequest (f : Frame) (value : List Byte) (s : State) : Answer := writeFrame f 0x3300 0x01 value s
/-- ADAPTER_UNLOAD (R288): a write of 0x3300:02. -/
def execAdapterUnload (f : Frame) (value : List Byte) (s : State) : Answer := writeFrame f 0x3300 0x02 value s
/-- CONFIGURE (R275): a write of 1 to 0x3100 + r:02. -/
def execConfigure (f : Frame) (region : RegionId) (s : State) : Answer := writeFrame f (0x3100 + region.val) 0x02 [1] s
/-- STAGE (R276): a write of 2. -/
def execStage (f : Frame) (region : RegionId) (s : State) : Answer := writeFrame f (0x3100 + region.val) 0x02 [2] s
/-- SERVE (R276): a write of 3. -/
def execServe (f : Frame) (region : RegionId) (s : State) : Answer := writeFrame f (0x3100 + region.val) 0x02 [3] s
/-- DRAIN (R276): a write of 4. -/
def execDrain (f : Frame) (region : RegionId) (s : State) : Answer := writeFrame f (0x3100 + region.val) 0x02 [4] s
/-- KILL (R276): a write of 5. -/
def execKill (f : Frame) (region : RegionId) (s : State) : Answer := writeFrame f (0x3100 + region.val) 0x02 [5] s
/-- RELEASE (R170): a write of 6. -/
def execRelease (f : Frame) (region : RegionId) (s : State) : Answer := writeFrame f (0x3100 + region.val) 0x02 [6] s
/-- PROFILE_REQUEST (R309): a write of 0x3600:01. -/
def execProfileRequest (f : Frame) (value : List Byte) (s : State) : Answer := writeFrame f 0x3600 0x01 value s
/-- SURPLUS_ASSIGNMENT (R313): a write of 0x3600:05. -/
def execSurplusAssignment (f : Frame) (value : List Byte) (s : State) : Answer := writeFrame f 0x3600 0x05 value s
/-- GENERATOR_INPUT (R318): a write of 0x3600:12. -/
def execGeneratorInput (f : Frame) (value : List Byte) (s : State) : Answer := writeFrame f 0x3600 0x12 value s
/-- HOST_ACKNOWLEDGED (R331): a write of 0x3600:0E. -/
def execHostAcknowledged (f : Frame) (value : List Byte) (s : State) : Answer := writeFrame f 0x3600 0x0E value s
/-- REPLAY_REQUEST (R332): a write of 0x3600:0F, with the host buffer's records when the source is one. -/
def execReplayRequest (f : Frame) (value : List Byte) (buffer : List JRecord) (s : State) : Answer :=
  answer (odpArrive f (.write 0x3600 0x0F value buffer) s)
/-- PPS_SECONDS (R342): a write of 0x2200:15. -/
def execPpsSeconds (f : Frame) (value : List Byte) (s : State) : Answer := writeFrame f 0x2200 0x15 value s
/-- POINT_REQUEST (R359): a write of 0x2200:0B. -/
def execPointRequest (f : Frame) (value : List Byte) (s : State) : Answer := writeFrame f 0x2200 0x0B value s
/-- POWER_REQUEST (R377): a write of 0x2010 + z:08. -/
def execPowerRequest (f : Frame) (zone : Zone) (value : List Byte) (s : State) : Answer := writeFrame f (0x2010 + zone.val) 0x08 value s
/-- GROUP_ENABLE (R394): a write of 0x2100:01. -/
def execGroupEnable (f : Frame) (value : List Byte) (s : State) : Answer := writeFrame f 0x2100 0x01 value s
/-- PORT_ENABLE (R451): a write of 0x1100 + p:02. -/
def execPortEnable (f : Frame) (port : Fin 3) (value : List Byte) (s : State) : Answer := writeFrame f (0x1100 + port.val) 0x02 value s
/-- PROTOCOL_LOG_CLEAR (R454): a write of 0x1200:05. -/
def execProtocolLogClear (f : Frame) (value : List Byte) (s : State) : Answer := writeFrame f 0x1200 0x05 value s
/-- WINDOW_ACCESS_READ (R460): a read of 0x6000:02. -/
def execWindowAccessRead (a : ReadFrame) (s : State) : Answer := answer (odpArrive a.frame (.read 0x6000 0x02 a.find) s)
/-- WINDOW_ACCESS_WRITE (R460): a write of 0x6000:02. -/
def execWindowAccessWrite (f : Frame) (value : List Byte) (s : State) : Answer := writeFrame f 0x6000 0x02 value s
/-- ERROR_LOG_CLEAR (R551): a write of 0x5000:06. -/
def execErrorLogClear (f : Frame) (value : List Byte) (s : State) : Answer := writeFrame f 0x5000 0x06 value s
/-- FIRMWARE_IMAGE (R582): a BLOCK_WRITE segment of 0x5810. -/
def execFirmwareImage (f : Frame) (seg : Segment) (s : State) : Answer := answer (odpArrive f (.blockWrite { seg with idx := 0x5810, sub := 0 } []) s)
/-- OWNER_INSTALL (R587): a write of 0x5800:08. -/
def execOwnerInstall (f : Frame) (value : List Byte) (s : State) : Answer := writeFrame f 0x5800 0x08 value s
/-- OWNER_REVOKE (R587): a write of 0x5800:09. -/
def execOwnerRevoke (f : Frame) (value : List Byte) (s : State) : Answer := writeFrame f 0x5800 0x09 value s
/-- NONCE_READ (R586): a read of 0x5800:06. -/
def execNonceRead (f : Frame) (s : State) : Answer := answer (odpArrive f (.read 0x5800 0x06 .clean) s)
/-- DEBUG_UNLOCK (R598): a write of 0x5800:0A. -/
def execDebugUnlock (f : Frame) (value : List Byte) (s : State) : Answer := writeFrame f 0x5800 0x0A value s
/-- RELOCK (R598): a write of 0x5800:0B. -/
def execRelock (f : Frame) (value : List Byte) (s : State) : Answer := writeFrame f 0x5800 0x0B value s
/-- ATTESTATION_NONCE (R592): a write of 0x5820:01. -/
def execAttestationNonce (f : Frame) (value : List Byte) (s : State) : Answer := writeFrame f 0x5820 0x01 value s
/-- CIPHERTEXT (R595): a write of 0x5840:03. -/
def execCiphertext (f : Frame) (value : List Byte) (s : State) : Answer := writeFrame f 0x5840 0x03 value s
/-- WRAPPED_KEY (R595): a write of 0x5840:04. -/
def execWrappedKey (f : Frame) (value : List Byte) (s : State) : Answer := writeFrame f 0x5840 0x04 value s
/-- TWIN_MODE_REQUEST (R511): a write of 0x4800:01. -/
def execTwinModeRequest (f : Frame) (value : List Byte) (s : State) : Answer := writeFrame f 0x4800 0x01 value s
/-- HOMES_WRITE (R524): a write of 0x4800:08. -/
def execHomesWrite (f : Frame) (value : List Byte) (s : State) : Answer := writeFrame f 0x4800 0x08 value s
/-- POUNCE_REQUEST (R537): a write of 0x5100:01. -/
def execPounceRequest (f : Frame) (value : List Byte) (s : State) : Answer := writeFrame f 0x5100 0x01 value s

end Sys2Proof.Machine
end

