-- ==== Sys2Proof/Machine/Twin.lean ====
section
/-! DEFINITION. The twin pair: how it forms and is lost, its stream, the shadow's copies, digests, and adoption (R506 to R522, R535, R536). -/
namespace Sys2Proof.Machine
open Sys2Proof

/-! ## The envelope (R512, R518, R522) -/

/-- A violation on the twin links: REJECT, and 0x4800:14 advances. -/
def twinReject (s : State) (code arg : Nat) : State :=
  dcount (emit s (.twin 0x7F s.journal.epoch (leBytes 1 code ++ leBytes 8 arg))) 0x4800 0x14 4 1

/-- Whether a message comes by a twin link that is up and not excluded. -/
def twinArrives (s : State) (h : TwinHdr) : Bool := linkUsable s (16 + h.link.val) && !s.twin.excluded.contains h.link.val

/-- Only PAIRED, SYNCING and SUSPECT exchange the stream (R518). -/
def streaming (s : State) : Bool := match s.twin.st with
  | .syncing => true
  | .paired => true
  | .suspect => true
  | _ => false

/-- What every message but HELLO passes first: a state that takes messages and an epoch not more than one below this member's; the stream's messages also need a state that exchanges it. -/
def twinIn (s : State) (h : TwinHdr) (stream : Bool) : State × Bool :=
  if !twinArrives s h then (s, false)
  else if s.twin.st = .solo ∨ s.twin.st = .mismatch ∨ s.twin.st = .isolated then (twinReject s 0x14 0, false)
  else if h.epoch + 1 < s.journal.epoch then (twinReject s 0x11 s.journal.epoch, false)
  else (s, !stream || streaming s)

/-! ## Forming a pair (R506, R507) -/

/-- Whether serial a is lower than b, byte by byte, a shorter one lower at a common prefix. -/
def serialLower : List Byte → List Byte → Bool
  | [], _ :: _ => true
  | [], [] => false
  | _ :: _, [] => false
  | a :: as, b :: bs => if a = b then serialLower as bs else decide (a.toNat < b.toNat)

/-- The serial of the peer on the other twin link, when that link is up and has said it. -/
def otherPeer (s : State) (l : Fin 2) : Option (List Byte) :=
  if linkUsable s (17 - l.val) ∧ !s.twin.excluded.contains (1 - l.val) then (s.twin.linkPeer.find? fun x => decide (x.1 = 1 - l.val)).map (·.2) else none

/-- The link is excluded from the pair, with a CABLE_MISMATCH record. -/
def cableMismatch (s : State) (l : Fin 2) (serial : List Byte) : State :=
  let s := twinReject s 0x01 0
  record { s with twin := { s.twin with excluded := s.twin.excluded ++ [l.val] } } 0x0604 0xFF 0xFFFF (16 + l.val) (serial.take 24)

/-- The pair address announced on both host ports. -/
def announcePairAll (s : State) : State := (List.range 2).foldl (fun s p => if portUp s p then announcePair s p else s) s

/-- A pair forms: from SOLO member 0 is the front, and a member that comes back is never the front (R507, R518). With a mode already in force it goes on to SYNCING. -/
def pairForms (s : State) (m : HelloMsg) : State :=
  let own := Config.fusedSerial.take 24
  let member := if serialLower own m.serial then 0 else 1
  let front := match s.twin.st with
    | .alone => true
    | .isolated => false
    | _ => decide (member = 0) && !m.front
  let s : State := { s with twin := { s.twin with
    st := .forming, before := .forming, member := some member, front := front, partnerSerial := m.serial, shadowNext := 0, shadowRecords := [],
    shadowTokens := [], shadowPages := [], digests := [], ownDigests := [], mismatched := [], refereed := [], stepStart := [], lastBeat := now s } }
  let s : State := { s with journal := { s.journal with partnerAcked := 0 } }
  let s := announcePairAll s
  if s.twin.mode = 0 then s
  else
    let s : State := { s with twin := { s.twin with st := .syncing, before := .syncing } }
    let s := (List.range 64).foldl (fun s r => modRegion s r fun g => { g with protected_ := false, cover := false }) s
    settleSyncing (streamJournal s)

/-- HELLO (R506, R522). -/
def execHello (h : TwinHdr) (m : HelloMsg) (s : State) : Answer :=
  let expected := dget s 0x4800 0x04
  if !twinArrives s h || expected.isEmpty then answer s
  else if 3 < m.modeRequest.toNat ∨ 2 < m.profile.toNat then answer (twinReject s 0x13 0)
  else if m.serial ≠ expected || (match otherPeer s h.link with
      | some p => decide (p ≠ m.serial)
      | none => false) then answer (cableMismatch s h.link m.serial)
  else
    let s : State := { s with twin := { s.twin with linkPeer := mset [] s.twin.linkPeer h.link.val m.serial } }
    if m.build ≠ slice (dget s 0x1000 0x07) 0 72 then
      answer (twinReject { s with twin := { s.twin with st := .mismatch, before := .mismatch, mode := 0, modeAt := none } } 0x02 0)
    else
      let s : State := { s with twin := { s.twin with partnerMode := m.modeRequest.toNat, partnerKey := m.matchKey } }
      let s := match s.twin.st with
        | .solo => pairForms s m
        | .alone => pairForms s m
        | .isolated => pairForms s m
        | .mismatch => pairForms s m
        | _ => s
      answer (if s.twin.st = .paired then settleMode s else s)

/-! ## HEARTBEAT (R512, R518) -/

/-- HEARTBEAT_SEND (R512): every heartbeat interval, on each twin link. -/
def execHeartbeatSend (s : State) : Answer :=
  let live := streaming s || decide (s.twin.st = .forming)
  let p := leBytes 8 (now s) ++ leBytes 1 (pairCode s.twin.st) ++ leBytes 1 (boolNat s.twin.front) ++ leBytes 8 (s.twin.shadowNext - 1) ++
    leBytes 2 (dnum s 0x4400 0x20) ++ homeRates s
  let links := [0, 1].filter fun l => linkUsable s (16 + l) && !s.twin.excluded.contains l
  guarded (live && decide (s.twin.beatSent + dnum s 0x4800 0x0B ≤ now s)) s
    (links.foldl (fun s _ => emit s (.twin 0x02 s.journal.epoch p)) { s with twin := { s.twin with beatSent := now s } })

/-- HEARTBEAT (R518): the partner's fields are refreshed, and SUSPECT ends. -/
def execHeartbeat (h : TwinHdr) (m : BeatMsg) (s : State) : Answer :=
  match twinIn s h false with
  | (s, false) => answer s
  | (s, true) =>
    let st := if s.twin.st = .suspect then s.twin.before else s.twin.st
    let t : Twin :=
      { s.twin with
        st := st, before := st, suspectSince := none, probeNonce := none, lastBeat := now s, beatAcked := m.acked,
        partnerFabric := m.fabricId, partnerRates := m.rates }
    answer { s with twin := t }

/-- HEARTBEAT_LOSS (R518): no HEARTBEAT for the loss count of intervals; the partner is probed. -/
def execHeartbeatLoss (s : State) : Answer :=
  guarded (decide ((s.twin.st = .paired ∨ s.twin.st = .syncing) ∧ s.twin.lastBeat + dnum s 0x4800 0x0B * dnum s 0x4800 0x0C ≤ now s)) s
    (let (w, s) := freeWord s
     let s : State := { s with twin := { s.twin with before := s.twin.st, st := .suspect, suspectSince := some (now s), probeNonce := some w, answered := false } }
     let s := emit s (.fabricControl s.twin.partnerFabric.toNat 0x04 (leBytes 8 w.toNat))
     if s.twin.front then s else emit s .hostPing)

/-! ## Adoption (R519, R520) -/

/-- The order that a record of the shadow's copy belongs to. -/
def recordTag (r : JRecord) : Option (BitVec 32) := if r.type.toNat ≤ 5 ∨ r.type = 7 then some (BitVec.ofNat 32 (leAt r.payload 0 4)) else none

/-- A copied record taken into an order of the region. -/
def shadowApply (shadow : Bool) (s : State) (r : JRecord) : State :=
  let p := r.payload
  let tag := BitVec.ofNat 32 (leAt p 0 4)
  let reg := r.region.toNat
  if r.type = 1 then
    if recKind p = 6 ∨ (findOrder s tag).isSome then s
    else modOrder (enterOrder s (recRing p / 16 + 1) p reg shadow) tag fun o => { o with fieldsLeft := [], landed := decide (recContext p + recCont p = 0) }
  else if r.type = 2 then
    let ts := (List.range ((p.length - 8) / 4)).map fun i => BitVec.ofNat 32 (leAt p (8 + 4 * i) 4)
    match findOrder s tag with
    | none => s
    | some o =>
      if o.context = [] then landContext s tag ts
      else
        let s := modOrder s tag fun o => { o with context := o.context ++ ts }
        match findOrder s tag with
        | some o => enterPages s o
        | none => s
  else if r.type = 3 then modOrder s tag fun o => { o with state := .running, admitNo := r.seq, admitStep := leAt p 4 8 }
  else if r.type = 4 then modOrder s tag fun o => if o.state = .running then { o with cancelPending := true } else o
  else if r.type = 5 then (if leAt p 12 1 = 0 then rpDrop s tag else s)
  else if r.type = 7 then rpDrop s tag
  else s

/-- The tokens an order holds after TOKENS messages. -/
def withTokens (ts : List TokenMsg) (tag : BitVec 32) (have_ : List (BitVec 32)) : List (BitVec 32) :=
  (ts.filter fun t => decide (t.tag = tag)).foldl (fun a t => a.take t.firstDraw ++ t.tokens) have_

/-- The whole pages of an order that the shadow already holds, from page 0 without a gap. -/
def heldPages (pages : List (Nat × List Byte)) : Nat → Nat → Nat
  | 0, n => n
  | k + 1, n => if pages.any fun p => decide (p.1 = n) then heldPages pages k (n + 1) else n

/-- An order's tokens beyond the pages it holds are to be recomputed: its tokens so far, the position reached, and the first page to rebuild. Log-probabilities of its tokens are in no message and are left open (log entry 3). -/
def rebuildFrom (s : State) (tag : BitVec 32) (toks : List (BitVec 32)) (pages : Nat) : State :=
  match findOrder s tag with
  | none => s
  | some o =>
    let n := o.context.length
    let (lp, s) := if recLogprob o.record then freeBytes s (4 * toks.length) else ([], s)
    if toks = [] then modOrder s tag fun o => { o with processed := max o.processed (min (64 * pages) (n - 1)), generated := [], resultBytes := [] }
    else
      let s := modOrder s tag fun o => { o with processed := n + toks.length - 1, generated := toks, resultBytes := lp, mirrored := pages }
      modRegion s o.region fun g => { g with recovering := g.recovering.filter (fun t => decide (t ≠ tag)) ++ [tag],
                                             recoveryPages := mset 0 g.recoveryPages tag.toNat (64 * pages) }

/-- One order of an adopted region, rebuilt from the pages and tokens that the shadow holds. -/
def adoptOrder (s : State) (r : Nat) (tag : BitVec 32) : State :=
  let pages := (s.twin.shadowPages.filter fun p => decide (p.1 = r ∧ p.2.1 = tag)).map (·.2.2)
  let toks := withTokens ((s.twin.shadowTokens.filter fun t => decide (t.1 = r)).map (·.2.2)) tag []
  let k := heldPages pages pages.length 0
  let s := (pages.filter fun p => decide (p.1 < k)).foldl (fun s p => match findOrder s tag with
    | some o => match storedAt o p.1 with
      | some a => setPage (engineWrite s (fullerReq (homeField s r) r) a p.2 false) tag p.1 (storedEntry (orderManifest s o.record) o p.1)
      | none => s
    | none => s) s
  rebuildFrom s tag toks k

/-- The shadow region configured, and staged unless it is; it serves once it is READY. -/
def adoptReady (s : State) (r : Nat) : State :=
  let s := if (regionOf s r).state = .free ∧ configureCheck s r = 0 then configureApply s r else s
  let s := if (regionOf s r).state = .configured ∧ stageCheck s r = 0 then stageApply s r else s
  modRegion s r fun g => { g with adopted := true, protected_ := false, state := if g.state = .ready then .serving else g.state }

/-- What this member's own outputs of a region stand in for is owed no longer (R519). -/
def owedElse (s : State) (r : Nat) : State :=
  let tags := (s.twin.withheld.filter fun d => decide (d.region = r)).map fun d => d.entry.take 4
  { s with twin := { s.twin with shadowDue := s.twin.shadowDue.filter fun e => !tags.contains (e.2.1.take 4) } }

/-- An output that the shadow held, delivered without comparison, with its CLOSE record when it is final; a PREFILL is retained (R297, R519). -/
def adoptDelivery (s : State) (d : Delivery) : State :=
  let st := leAt d.entry 5 1
  let s := if st = 8 then s else countFinal s st
  let s := if st = 8 ∨ st = 3 then s else jAppend s 7 d.region (some d.tag) (leBytes 4 d.tag.toNat ++ leBytes 4 st ++ leBytes 8 d.step)
  applyDelivery s d

/-- The shadow's own outputs of the step in progress, delivered without comparison (R519). -/
def adoptOutputs (s : State) (r : Nat) : State :=
  let ds := s.twin.withheld.filter fun d => decide (d.region = r)
  let s := owedElse s r
  ds.foldl adoptDelivery { s with twin := { s.twin with withheld := s.twin.withheld.filter fun d => decide (d.region ≠ r) } }

/-- A member adopts a region (R519): in MIRROR the shadow's orders stand already, with its outputs of the step in progress; else they are built from the records. -/
def adoptRegion (s : State) (r : Nat) : State :=
  let s := adoptOutputs s r
  let recs := s.twin.shadowRecords.filter fun x => decide (x.region.toNat = r)
  let live := s.orders.any fun o => decide (o.region = r) && o.shadowOnly
  if recs.isEmpty && !live then s
  else
    let s := adoptReady s r
    let s :=
      if live then { s with orders := s.orders.map fun o => if o.region = r then { o with shadowOnly := false } else o }
      else
        let s := recs.foldl (shadowApply false) s
        ((regionOrders s r).map (·.tag)).foldl (fun s t => adoptOrder s r t) s
    { s with twin := { s.twin with shadowRecords := s.twin.shadowRecords.filter (fun x => decide (x.region.toNat ≠ r)),
                                   shadowTokens := s.twin.shadowTokens.filter (fun x => decide (x.1 ≠ r)),
                                   shadowPages := s.twin.shadowPages.filter (fun x => decide (x.1 ≠ r)) } }

/-- The regions the partner homes whose orders this member holds. -/
def partnerRegions (s : State) : List Nat := (List.range 64).filter fun r => !homed s r

/-- 0x4800:0F after a loss: its time, its cause, the mode and the regions adopted (R524). -/
def noteFailover (s : State) (cause : Nat) (lost : Nat) (rs : List Nat) : State :=
  let s : State := { s with twin := { s.twin with takeover := some lost } }
  let s := dcount s 0x4800 0x0E 4 1
  dput s 0x4800 0x0F (leBytes 8 lost ++ zeros 8 ++ leBytes 1 cause ++ leBytes 1 s.twin.mode ++ bitmap 8 rs.contains ++ zeros 6)

/-- A pair session as the new front takes it from its copy (R520): number, token, edge and rings; its source is that of the first frame it sends (log entry 46). A session of this member's own under the number closes. -/
def takeSession (s : State) (m : SessionMsg) : State :=
  let n := m.number.val
  let s := closeSession s n
  let x : Session :=
    { role := m.role.toNat, token := m.token, port := .hp0, ip := 0, udp := 0, altIp := 0, altUdp := 0, odpPort := BitVec.ofNat 16 (dnum s 0x1100 0x08),
      pair := true, low := m.edge, received := m.edge, answered := m.edge, held := [], started := [], cache := [], keepalive := 60000, lastFrame := now s,
      rings := m.rings, consumer := 0, producer := 0, transfers := [], snapshot := none, mask := 0, watches := [], events := [], eventSeq := 0, sent := 0,
      lost := 0, bucket := 4096, bucketAt := now s, lastLimited := none, lastLimitLog := none, limitedCount := 0 }
  let s := setSession s n x
  m.rings.zipIdx.foldl (fun s (d, i) =>
    let k := 16 * (n - 1) + i
    let due := (s.twin.shadowDue.filter fun e => decide (e.1 = k)).map (·.2)
    setRing s k { Ring.none with desc := d, written := m.counts.getD i 0, consumer := m.counts.getD i 0, due := due }) s

/-- The survivor: ALONE, front, home of every region (R518). -/
def becomeAlone (s : State) (lost : Nat) : State :=
  let rs := (partnerRegions s).filter fun r => s.twin.shadowRecords.any (fun x => decide (x.region.toNat = r)) || s.twin.withheld.any (fun d => decide (d.region = r)) ||
    s.orders.any fun o => decide (o.region = r) && o.shadowOnly
  let was := s.twin.front
  let s := noteFailover s 1 lost rs
  let s := record s 0x0606 0xFF 0xFFFF 0 (leBytes 4 rs.length)
  let s : State := { s with twin := { s.twin with st := .alone, before := .alone, front := true, suspectSince := none, probeNonce := none } }
  let s := (List.range 64).foldl (fun s r => if homed s r then s else owedElse s r) s
  let s := if was then s else announcePairAll (s.twin.shadowSessions.foldl takeSession s)
  let s := dput s 0x4800 0x08 (List.replicate 8 (if s.twin.member = some 1 then 0xFF else 0))
  let s : State := { s with orders := s.orders.map fun o => if 100 ≤ o.session then { o with session := o.session - 100 } else o }
  let s := rs.foldl adoptRegion s
  let s : State := { s with twin := { s.twin with shadowDue := [], shadowSessions := [], takeover := if rs = [] then none else s.twin.takeover } }
  settleDeferred (deliverWithheld s fun _ => true)

/-- Cut off from the host and the partner (R518): its regions are killed without output. -/
def becomeIsolated (s : State) : State :=
  let s := record s 0x0607 0xFF 0xFFFF 0 []
  let s : State := { s with twin := { s.twin with st := .isolated, before := .isolated, suspectSince := none, probeNonce := none } }
  let s := s.orders.foldl forgetOrder (dropCompared s fun _ => true)
  let s := (List.range 64).foldl (fun s r => if regionLosable s r then killRegion s r 0 0x21 true else s) s
  settleDeferred s

/-- PROBE_WINDOW_EXPIRY (R518): the probe window ends. -/
def execProbeWindowExpiry (s : State) : Answer :=
  match s.twin.suspectSince with
  | none => answer s
  | some t =>
    guarded (decide (s.twin.st = .suspect ∧ t + dnum s 0x4800 0x0D ≤ now s)) s
      (if !s.twin.front && s.twin.answered then becomeIsolated s else becomeAlone s t)

/-! ## Time and the journal (R510, R512, R522) -/

/-- TWIN_TIME (R510): member 1 takes the offset to member 0 as its discipline, on TW0, or on TW1 when TW0 is not UP. -/
def execTwinTime (h : TwinHdr) (offset : Int) (s : State) : Answer :=
  match twinIn s h true with
  | (s, false) => answer s
  | (s, true) =>
    guarded (decide (s.twin.member = some 1) && !twinSolo s && (decide (h.link = 0) || !linkUsable s 16)) s
      (let s := dputInt s 0x4800 0x13 8 offset
       disciplined { s with time := { s.time with twinDiscipline := true } } offset)

/-- The entries that the front of the partner owes for an order that closes or streams, kept until its SESSION counts pass them (R520). -/
def oweEntry (s : State) (o : Order) (status : Nat) : State :=
  if s.twin.front then s
  else { s with twin := { s.twin with shadowDue := s.twin.shadowDue ++
    [(recRing o.record, entryBytes o.tag 0 status 0 (resultCount o) 0 0 o.region, resultWrites o 0)] } }

/-- An order as the shadow's copies show it, for its entries alone. -/
def shadowOrder (s : State) (r : Nat) (tag : BitVec 32) : Option Order :=
  match findOrder s tag with
  | some o => some o
  | none => (s.twin.shadowRecords.find? fun x => decide (x.type = 1 ∧ x.region.toNat = r ∧ recordTag x = some tag)).map fun x =>
    { tag := tag, record := x.payload, session := recRing x.payload / 16 + 1, region := r, state := .running, heldSlot := none, context := [], landed := true,
      fieldsLeft := [], processed := 0, generated := withTokens ((s.twin.shadowTokens.filter fun t => decide (t.1 = r)).map (·.2.2)) tag [], resultBytes := [],
      pages := [], slots := [], committed := 0, resumes := 0, cancelPending := false, stepsDone := 0, latestStep := 0, accepted := x.time, mirrored := 0,
      replayed := false, admitNo := 0, admitStep := 0, shadowOnly := true, prefixTokens := [], prefixPages := [] }

/-- What the shadow does with one record: a region's commands and the unloads are applied to its own objects as its mode needs them, and in MIRROR its orders follow. -/
def shadowRecord (s : State) (x : JRecord) : State :=
  let r := x.region.toNat
  let p := x.payload
  let idx := leAt p 0 2
  let sub := leAt p 2 1
  let v := p.drop 16
  if x.type = 6 then
    let cmd := leNat v
    if r < 64 ∧ idx = 0x3100 + r ∧ sub = 2 then
      if !homed s r && decide (2 ≤ s.twin.mode) && decide (cmd ≤ 2 ∨ s.twin.mode = 3) && decide (commandCheck s r cmd = 0) then commandApply s r cmd else s
    else if idx = 0x3200 ∧ sub = 2 ∧ hoodUnloadCheck s cmd = 0 then hoodUnloadApply s cmd
    else if idx = 0x3300 ∧ sub = 2 ∧ adapterUnloadCheck s cmd = 0 then adapterUnloadApply s cmd
    else s
  else if x.type = 9 ∨ homed s r then s
  else
    let s := match recordTag x with
      | some t => if x.type = 7 then (match shadowOrder s r t with
          | some o => oweEntry s o (leAt p 4 4)
          | none => s) else s
      | none => s
    let s := if x.type = 7 then
        { s with twin := { s.twin with shadowRecords := s.twin.shadowRecords.filter (fun y => decide (recordTag y ≠ recordTag x)),
                                       shadowTokens := s.twin.shadowTokens.filter (fun t => decide (some t.2.2.tag ≠ recordTag x)),
                                       shadowPages := s.twin.shadowPages.filter (fun t => decide (some t.2.1 ≠ recordTag x)) } }
      else { s with twin := { s.twin with shadowRecords := s.twin.shadowRecords ++ [x] } }
    if s.twin.mode = 3 ∧ steppable s r then shadowApply true s x else s

/-- The records of a message that follow on from `n` without a gap. -/
def noGap : Nat → List JRecord → List JRecord
  | _, [] => []
  | n, x :: xs => if x.seq = n then x :: noGap (n + 1) xs else []

def sendJack (s : State) : State := emit s (.twin 0x11 s.journal.epoch (leBytes 8 (s.twin.shadowNext - 1)))

/-- JOURNAL (R512, R522): the records that follow are held and acknowledged; a gap is reported. The first message after the pair forms begins the copy. -/
def execJournal (h : TwinHdr) (records : List JRecord) (s : State) : Answer :=
  match twinIn s h true with
  | (s, false) => answer s
  | (s, true) =>
    match records with
    | [] => answer (twinReject s 0x13 0)
    | x :: _ =>
      if records.any fun y => decide (y.type = 0 ∨ 9 < y.type.toNat) then answer (twinReject s 0x13 0)
      else
        let next := if s.twin.shadowNext = 0 then x.seq else s.twin.shadowNext
        if next < x.seq then answer (twinReject s 0x10 next)
        else
          let fresh := noGap next (records.filter fun y => decide (next ≤ y.seq))
          let beyond := records.any fun y => decide (next + fresh.length ≤ y.seq)
          let s := fresh.foldl shadowRecord s
          let s : State := { s with twin := { s.twin with shadowNext := next + fresh.length } }
          answer (if beyond then twinReject (sendJack s) 0x10 (next + fresh.length) else sendJack s)

/-- JACK (R20, R328, R439): the partner holds every record up to a sequence; what waited for it goes on. -/
def execJack (h : TwinHdr) (upTo : Nat) (s : State) : Answer :=
  match twinIn s h true with
  | (s, false) => answer s
  | (s, true) =>
    answer (settleDeferred (jTrim { s with journal := { s.journal with partnerAcked := max s.journal.partnerAcked (min (upTo + 1) s.journal.next) } }))

/-! ## TOKENS, pages and digests (R512, R513, R517, R536) -/

/-- Whether this member holds the shadow of a region: it is the partner's, and a mode that keeps it staged finds it configured. -/
def shadowHeld (s : State) (r : Nat) : Bool := !homed s r && (decide (s.twin.mode < 2) || regionUsed s r)

/-- A region or hood that the receiver does not hold. -/
def notHeld (s : State) (r : Nat) : State :=
  twinReject (if r < 64 then modRegion s r fun g => { g with protected_ := false, resync := true } else s) 0x12 r

/-- TOKENS (R512): kept with the records; an order that streams and goes on owes its entry. -/
def execTokens (h : TwinHdr) (region : RegionId) (step : Nat) (orders : List TokenMsg) (s : State) : Answer :=
  match twinIn s h true with
  | (s, false) => answer s
  | (s, true) =>
    let r := region.val
    if !shadowHeld s r then answer (notHeld s r)
    else
      let s : State := { s with twin := { s.twin with shadowTokens := s.twin.shadowTokens ++ orders.map fun t => (r, step, t) } }
      let s := modRegion s r fun g => { g with coverStep := max g.coverStep step }
      answer (orders.foldl (fun s t => match shadowOrder s r t.tag with
        | some o => if recStream o.record ∧ t.tokens ≠ [] then oweEntry s o 8 else s
        | none => s) s)

/-- KV_PAGE (R512, R536): a page replaces one already held under its number. -/
def execKvPage (h : TwinHdr) (region : RegionId) (tag : BitVec 32) (page : Nat) (data : List Byte) (s : State) : Answer :=
  match twinIn s h true with
  | (s, false) => answer s
  | (s, true) =>
    let r := region.val
    if !shadowHeld s r then answer (notHeld s r)
    else answer { s with twin := { s.twin with shadowPages :=
      (s.twin.shadowPages.filter fun p => decide ((p.1, p.2.1, p.2.2.1) ≠ (r, tag, page))) ++ [(r, tag, page, data)] } }

/-- The held deliveries of an order's step made, or dropped. -/
def releaseHeld (s : State) (r step : Nat) (tag : BitVec 32) (deliver_ : Bool) : State :=
  let mine (d : Delivery) : Bool := decide (d.region = r ∧ d.step = step ∧ d.tag = tag)
  let ds := s.twin.withheld.filter mine
  let s : State := { s with twin := { s.twin with withheld := s.twin.withheld.filter fun d => !mine d } }
  if deliver_ then ds.foldl applyDelivery s else s

/-- What was kept for the comparison of an order's steps is dropped: for the steps up to one whose comparison is done, or for all. -/
def dropStarts (s : State) (r : Nat) (tag : BitVec 32) (upTo : Option Nat) : State :=
  let mine (p : Nat × Order) : Bool := decide (p.2.region = r ∧ p.2.tag = tag) && (match upTo with
    | some n => decide (p.1 ≤ n)
    | none => true)
  { s with twin := { s.twin with stepStart := s.twin.stepStart.filter fun p => !mine p } }

/-- An order's KV pages are computed again from its first own token on, in recovery steps (R519). -/
def rebuildPages (s : State) (o : Order) : State :=
  if o.processed ≤ 64 * sharedPages o then s
  else modRegion s o.region fun g => { g with recovering := g.recovering.filter (fun t => decide (t ≠ o.tag)) ++ [o.tag],
                                              recoveryPages := mset 0 g.recoveryPages o.tag.toNat (64 * sharedPages o) }

/-- An order that ended in a step to be computed again is open again, in slots of its own; without room for them it ends with KILLED_FAULT (log entry 160). -/
def reopen (s : State) (o : Order) (step : Nat) : State :=
  match kvSlots s o.region o.record with
  | none => if o.shadowOnly then s else applyDelivery s (deliveryOf o 0x21 step (resultCount o) true)
  | some slots =>
    let a := recAdapter o.record
    let (s, left) := if a = 0xFFFF then (s, []) else (reserveAll o.tag a (regionFields s o.region) s).getD (s, [])
    let need := rangeBytes slots
    let o := { o with pages := [], slots := slots, committed := need, fieldsLeft := left, state := if left = [] then .running else .pending }
    let s := modRegion { s with orders := s.orders ++ [o] } o.region fun g => { g with kvCommitted := g.kvCommitted + need }
    rebuildPages (enterPages s o) o

/-- An order put back to where it stood before a step, to be computed again from its context and the tokens it had delivered (R517, R519): what it did since is dropped. -/
def recompute (s : State) (r step : Nat) (tag : BitVec 32) : State :=
  let old := (s.twin.stepStart.find? fun p => decide (p.1 = step ∧ p.2.region = r ∧ p.2.tag = tag)).map (·.2)
  let s := dropStarts s r tag none
  let s : State := { s with twin := { s.twin with
    withheld := s.twin.withheld.filter (fun d => decide (¬(d.region = r ∧ d.tag = tag))),
    ownDigests := s.twin.ownDigests.filter (fun d => decide (¬(d.1 = r ∧ d.2.2.1 = tag))),
    digests := s.twin.digests.filter (fun d => decide (¬(d.1 = r ∧ d.2.2.1 = tag))) } }
  match old with
  | none => s
  | some o => match findOrder s tag with
    | none => reopen s o step
    | some now_ =>
      let o := { o with pages := now_.pages, slots := now_.slots, committed := now_.committed, resumes := now_.resumes, cancelPending := now_.cancelPending }
      rebuildPages (modOrder s tag fun _ => o) o

/-- Whether an order waits for both members' checks of its hood (R517). -/
def awaitsReferee (s : State) (r : Nat) (tag : BitVec 32) : Bool := s.twin.refereed.any fun x => decide (x.region = r ∧ x.tag = tag)

/-- The hood of an order's step: the order may have ended in it. -/
def stepHood (s : State) (r step : Nat) (tag : BitVec 32) : Option Nat :=
  match findOrder s tag, s.twin.withheld.find? fun d => decide (d.region = r ∧ d.step = step ∧ d.tag = tag) with
  | some o, _ => some (recHood o.record)
  | none, some d => some (recHood d.order.record)
  | none, none => none

/-- Two digests of an order disagree (R517): counted and recorded. The first time both members check the hood of the step at once, and what disagrees while they do is the same fault; the second time the order closes, with a Pounce test for every tile of the region (DEDUCED, log entry 160). -/
def digestMismatch (s : State) (r step : Nat) (tag : BitVec 32) : State :=
  let s := record (dcount s 0x4800 0x10 8 1) 0x0608 r 0xFFFF 0 (leBytes 4 tag.toNat)
  if s.twin.mismatched.contains (r, tag) then
    if awaitsReferee s r tag then s
    else
      let s : State := { s with twin := { s.twin with mismatched := s.twin.mismatched.filter fun m => decide (m ≠ (r, tag)) } }
      let s := match findOrder s tag, s.twin.withheld.find? fun d => decide (d.tag = tag) with
        | some o, _ => closeOrder s o 0x21 step (resultCount o) false
        | none, some d => if d.order.shadowOnly then s else applyDelivery s (deliveryOf d.order 0x21 step 0 true)
        | none, none => s
      let s := releaseHeld (dropStarts s r tag none) r step tag false
      (regionSites s r).foldl (fun s x => queueMaint s 2 (physTarget x) 0 0 false 0) s
  else
    let s : State := { s with twin := { s.twin with mismatched := s.twin.mismatched ++ [(r, tag)] } }
    match stepHood s r step tag with
    | none => s
    | some id =>
      queueMaint { s with twin := { s.twin with refereed := s.twin.refereed ++ [⟨r, step, tag, id, none, none⟩] } } 4 id 0 0 false 0

/-- What both members found of their copies of a hood decides the orders that wait for it (R517): both match, so both recompute the order; the partner's alone is corrupt, so this member's result is delivered. A corrupt copy here is R516's, and the partner's result is then delivered there. -/
def settleReferees (s : State) (id : Nat) (f : Referee → Referee) : State :=
  let xs : List Referee := s.twin.refereed.map fun x => if x.hood = id then f x else x
  let done (x : Referee) : Bool := x.own.isSome && x.partner.isSome
  let s : State := { s with twin := { s.twin with refereed := xs.filter fun x => !done x } }
  (xs.filter done).foldl (fun (s : State) (x : Referee) =>
    if x.own = some true ∧ x.partner = some true then recompute s x.region x.step x.tag
    else
      let s : State := { s with twin := { s.twin with mismatched := s.twin.mismatched.filter fun m => decide (m ≠ (x.region, x.tag)) } }
      if x.own = some true ∧ homed s x.region then releaseHeld s x.region x.step x.tag true else s) s

/-- The shadow discards a member's work of a step, or rebuilds its own hit member, from the home member's TOKENS (R536). -/
def shadowRebuild (s : State) (r step : Nat) (tag : BitVec 32) : State :=
  match findOrder s tag with
  | none => s
  | some o =>
    let toks := withTokens ((s.twin.shadowTokens.filter fun t => decide (t.1 = r ∧ t.2.1 ≤ step)).map (·.2.2)) tag o.generated
    rebuildFrom s tag toks (o.processed / 64)

/-- Two digests of an order agree: the home's entries are written, and the shadow's own go, but at the front, where the home's pass through (log entry 161). -/
def digestMatch (s : State) (r step : Nat) (tag : BitVec 32) : State :=
  let s : State := { s with twin := { s.twin with mismatched := s.twin.mismatched.filter fun m => decide (m ≠ (r, tag)) } }
  let s := dropStarts s r tag (some step)
  if homed s r then releaseHeld s r step tag true
  else if s.twin.front then s else releaseHeld s r step tag false

/-- One order's own and partner's digests of a step compared. The shadow follows a void mark of the home under a twin cover too, and compares nothing (R536, R539). What an order did after a step under the referee waits with it. -/
def compareDigest (s : State) (own other : Nat × Nat × BitVec 32 × BitVec 64 × Bool) : State :=
  let (r, step, tag, d, hit) := own
  let (_, _, _, d', hit') := other
  if homed s r && hit then s
  else if homed s r && hit' then dcount (releaseHeld (dropStarts s r tag (some step)) r step tag true) 0x5000 0x0D 8 1
  else if hit || hit' then shadowRebuild (releaseHeld (dropStarts s r tag (some step)) r step tag false) r step tag
  else if !homed s r && (regionOf s r).cover then s
  else if d ≠ d' then digestMismatch s r step tag
  else if awaitsReferee s r tag then s
  else digestMatch s r step tag

/-- The digests that both members have given are compared, oldest first. -/
def settleDigests (s : State) : State :=
  let pairs := s.twin.ownDigests.filterMap fun a => (s.twin.digests.find? fun b => decide ((a.1, a.2.1, a.2.2.1) = (b.1, b.2.1, b.2.2.1))).map fun b => (a, b)
  let s : State := { s with twin := { s.twin with
    ownDigests := s.twin.ownDigests.filter (fun a => !pairs.any fun p => decide (p.1 = a)),
    digests := s.twin.digests.filter (fun b => !pairs.any fun p => decide (p.2 = b)) } }
  pairs.foldl (fun s p => compareDigest s p.1 p.2) s

/-- The shadow's cover begins after `step`: what the home withholds of later steps is delivered without comparison (R539). -/
def coverOpens (s : State) (r step : Nat) : State :=
  let mine (d : Delivery) : Bool := decide (d.region = r ∧ step < d.step)
  let ds := s.twin.withheld.filter mine
  let ran := ((s.twin.ownDigests.filter fun d => decide (d.1 = r ∧ step < d.2.1)).map (·.2.1)).eraseDups
  let s := dcount s 0x5000 0x0D 8 ran.length
  let s : State := { s with twin := { s.twin with withheld := s.twin.withheld.filter (fun d => !mine d),
                                                  ownDigests := s.twin.ownDigests.filter (fun d => decide (d.1 ≠ r ∨ d.2.1 ≤ step)),
                                                  stepStart := s.twin.stepStart.filter (fun p => decide (p.2.region ≠ r ∨ p.1 ≤ step)) } }
  modRegion (ds.foldl applyDelivery s) r fun g => { g with cover := true, coverStep := ran.foldl max g.coverStep }

/-- DIGEST without orders at the home of a region in MIRROR: a twin cover begins or ends; of steps delivered without comparison no digest is taken (R539; log entry 153). -/
def coverDigest (s : State) (r step : Nat) : State :=
  if !mirrored s r then s
  else if (regionOf s r).cover then modRegion s r fun g => { g with cover := false }
  else coverOpens s r step

/-- DIGEST (R513, R539). -/
def execDigest (h : TwinHdr) (region : RegionId) (step : Nat) (digests : List (BitVec 32 × BitVec 64 × Bool)) (s : State) : Answer :=
  match twinIn s h true with
  | (s, false) => answer s
  | (s, true) =>
    let r := region.val
    if !regionUsed s r then answer (notHeld s r)
    else if digests = [] then answer (coverDigest s r step)
    else if homed s r && ((regionOf s r).cover || decide (step ≤ (regionOf s r).coverStep)) then answer s
    else answer (settleDigests { s with twin := { s.twin with digests := s.twin.digests ++ digests.map fun d => (r, step, d) } })

/-! ## Weight digests and copies (R509, R515, R516) -/

/-- The digest of the HBM copy of a hood's weights, and whether a sector of it is poisoned. -/
def weightDigest (s : State) (id : Nat) : State × List Byte × Bool :=
  let h := hoodOf s id
  let (o, n, _) := mfSection h.image 4
  let (s, bytes, poison) := engineRead s (engineReq 0 0xFF) (h.base + o) n
  (s, shake256 bytes, poison)

/-- The HBM copy of a hood read against the manifest (R515): the digest, which is left open when a sector is poisoned, and whether the copy is corrupt (DEDUCED, log entry 159). -/
def judgeCopy (s : State) (id : Nat) : State × List Byte × Bool :=
  let (s, dig, poison) := weightDigest s id
  let (dig, s) := if poison then freeBytes s 32 else (dig, s)
  (s, dig, poison || decide (dig ≠ (mfSection (manifest s id) 4).2.2))

/-- What the rows of a tile meet. -/
def eventsAt (rows : List SiteRows) (x : Nat) : List RowEvent := (rows.filter fun a => decide (a.site.val = x)).flatMap (·.events)

/-- One pinned copy read against the digest taken when it was staged (R515). A copy with a bank that is not ON is not read (DEDUCED, log entry 159). -/
def pinDiffers (rows : List SiteRows) (r : Nat) (s : State) (p : Nat × Nat × List Byte) : State × Bool :=
  let (i, x, dig) := p
  let own := pinnedRows (manifest s (slotHood (regionOf s r) i))
  if own.any fun row => decide (bankState s x (bankOf row) ≠ .on) then (s, false)
  else
    let (s, bytes) := own.foldl (fun (s, bytes) row => let (s, b, _) := rowRead s x row reqMaintenance (eventsAt rows x); (s, bytes ++ b)) (s, [])
    (s, decide (shake256 bytes ≠ dig))

/-- The pinned copies of a hood, in every region that holds it staged; a region that is HELD or in SCRUB is not read (R169). -/
def pinsDiffer (s : State) (id : Nat) (rows : List SiteRows) : State × Bool :=
  (hoodStaged s id).foldl (fun (s, bad) r =>
    let g := regionOf s r
    if !regionUsed s r then (s, bad)
    else
      (g.pins.filter fun p => decide ((slotStateOf g p.1 = .active ∨ slotStateOf g p.1 = .standby) ∧ slotHood g p.1 = id)).foldl
        (fun (s, bad) p => let (s, b) := pinDiffers rows r s p; (s, bad || b)) (s, bad)) (s, false)

/-- A region's staged slots go, to be staged again. -/
def unstage (s : State) (r : Nat) : State :=
  modRegion s r fun g => { setSlot (setSlot g 0 .empty 0xFFFF) 1 .empty 0xFFFF with state := .configured, batch := none, recovering := [], recoveryPages := [], tileNotices := [] }

/-- A region that served from a corrupt copy (R516): one homed here is handed to the partner, or killed with cause 2; of a shadow's the partner learns that it is held no longer. -/
def corruptRegion (s : State) (r : Nat) : State :=
  if homed s r then
    (if handsOver s r && regionLosable s r then unstage (handOver (killTiles s r) r 2) r else loseRegion s r 2)
  else
    let s := (regionOrders s r).foldl forgetOrder (killTiles s r)
    notHeld (unstage (dropCompared s fun q => decide (q = r)) r) r

/-- Both copies are corrupt: the front reads the image from the host again, and sends it to the partner (R509, R516). -/
def reloadHood (s : State) (id : Nat) : State :=
  if !s.twin.front then s
  else
    let h := hoodOf s id
    match imageReadOn s h.qp h.request with
    | some (s, qp) => setLast (setHood s id { h with state := 1, qp := some qp }) 0x3200 id 1
    | none => hoodFetchFailed s id

/-- A corrupt copy (R515, R516): recorded; its regions are handed over or lost; the HBM copy then waits for the partner's, or is read again when the partner's is corrupt too, and where the pinned copy alone is corrupt the regions are staged again from HBM (DEDUCED, log entry 160). -/
def corruptCopy (s : State) (id : Nat) (hbmBad : Bool) : State :=
  let s := record s 0x0605 0xFF 0xFFFF 0 (leBytes 4 id)
  let s := settleReferees s id fun x => { x with own := some false }
  let s := ((hoodStaged s id).filter (regionUsed s)).foldl corruptRegion s
  if twinSolo s then s
  else if !hbmBad then restageWaiting s id
  else
    let s := setHood s id { hoodOf s id with state := 1 }
    if (hoodOf s id).partnerBad then reloadHood s id else s

/-- This member's digest of a hood goes to the partner. -/
def sendWeightDigest (s : State) (id : Nat) (dig : List Byte) : State :=
  if twinSolo s then s else emit s (.twin 0x21 s.journal.epoch (leBytes 2 id ++ dig ++ leBytes 8 (now s)))

/-- WEIGHT_DIGEST_CHECK (R515, R516, R517): the HBM copy against the manifest, and the pinned copies against the digests taken when they were staged. -/
def execWeightDigestCheck (hood : BitVec 16) (rows : List SiteRows) (s : State) : Answer :=
  let id := hood.toNat
  guarded (hoodLoaded s id && !rangeHolds s ((hoodOf s id).base, (hoodOf s id).len)) s
    (let (s, dig, hbmBad) := judgeCopy s id
     let s := sendWeightDigest s id dig
     let s : State := { s with maint := s.maint.filter fun m => decide (m.activity ≠ 4 ∨ m.scope ≠ id ∨ m.running = false) }
     let (s, pinBad) := pinsDiffer s id rows
     if hbmBad || pinBad then corruptCopy s id hbmBad else settleReferees s id fun x => { x with own := some true })

def notePartnerBad (s : State) (id : Nat) : State := setHood s id { hoodOf s id with partnerBad := true }

/-- The partner's copy of a hood is corrupt (R516): it is restored from this member's, unless that is corrupt too; one that waits to be restored itself is read again. -/
def partnerCorrupt (s : State) (id : Nat) : State :=
  let h := hoodOf s id
  if h.state = 1 then (if h.partnerBad then s else reloadHood (notePartnerBad s id) id)
  else
    let (s, dig, bad) := judgeCopy s id
    let s := notePartnerBad s id
    if bad then corruptCopy (sendWeightDigest s id dig) id true else copyOut s false id (hoodOf s id).image

/-- Whether this member holds a hood's copy, or waits for it to be restored. -/
def holdsCopy (s : State) (id : Nat) : Bool := hoodLoaded s id || decide ((hoodOf s id).state = 1 ∧ (hoodOf s id).image ≠ [])

/-- WEIGHT_DIGEST (R515 to R517): the manifest is the referee of the partner's digest as of this member's own. -/
def execWeightDigest (h : TwinHdr) (hood : BitVec 16) (dig : List Byte) (_devTime : Nat) (s : State) : Answer :=
  match twinIn s h true with
  | (s, false) => answer s
  | (s, true) =>
    let id := hood.toNat
    let x := hoodOf s id
    if !holdsCopy s id then answer (notHeld s 0xFF)
    else if dig = (mfSection (manifest s id) 4).2.2 then
      let s := if x.partnerBad then setHood s id { x with partnerBad := false } else s
      answer (settleReferees s id fun x => { x with partner := some true })
    else answer (settleReferees (partnerCorrupt s id) id fun x => { x with partner := some false })

/-- An image that has come whole from the partner: into its entry, or a new one in the spread pool; regions that waited for it are staged again. -/
def copyLands (s : State) (adapter : Bool) (id : Nat) (image : List Byte) : State :=
  if adapter then
    let a := adapterOf s id
    if a.state = 2 then s
    else if a.state = 1 then adapterLand s id image
    else match hbmFree s false 0 image.length with
      | some r => adapterLand (setAdapter (hbmTake s r) id { AdapterRec.none with state := 1, hood := BitVec.ofNat 16 (leAt image 32 2), base := r.1, len := r.2 }) id image
      | none => s
  else
    let h := hoodOf s id
    let s := if h.state = 2 then s
      else if h.state = 1 then hoodLand s id image
      else match hbmFree s false 0 image.length with
        | some r => hoodLand (setHood (hbmTake s r) id { HoodRec.none with state := 1, base := r.1, len := r.2 }) id image
        | none => s
    restageWaiting s id

/-- HOOD_COPY (R509): segments in ascending order; the last one completes the image. -/
def execHoodCopy (h : TwinHdr) (adapter : Bool) (id : BitVec 16) (offset : Nat) (data : List Byte) (last : Bool) (s : State) : Answer :=
  match twinIn s h true with
  | (s, false) => answer s
  | (s, true) =>
    let mine (x : Bool × BitVec 16 × List Byte) : Bool := decide (x.1 = adapter ∧ x.2.1 = id)
    let old := if offset = 0 then [] else ((s.twin.incoming.find? mine).map (·.2.2)).getD []
    let s : State := { s with twin := { s.twin with incoming := s.twin.incoming.filter fun x => !mine x } }
    if old.length ≠ offset then answer (twinReject s 0x13 0)
    else if last then answer (copyLands s adapter id.toNat (old ++ data))
    else answer { s with twin := { s.twin with incoming := s.twin.incoming ++ [(adapter, id, old ++ data)] } }

/-! ## FORWARD, SESSION and REJECT (R508, R512, R520, R522; log entry 45) -/

/-- A request's payload read back by its opcode. -/
def parseRequest (op : Nat) (b : List Byte) : Option OdpRequest :=
  let idx := BitVec.ofNat 16 (leAt b 0 2)
  let sub := BitVec.ofNat 8 (leAt b 2 1)
  if op = 0x10 then some (.read idx sub .clean)
  else if op = 0x11 then some (.write idx sub (b.drop 4) [])
  else if op = 0x12 then some (.readGroup ((List.range (b.length / 4)).map fun i => (BitVec.ofNat 16 (leAt b (4 * i) 2), BitVec.ofNat 8 (leAt b (4 * i + 2) 1))) [])
  else if op = 0x30 then some (.submit b)
  else if op = 0x31 then some (.cancel (BitVec.ofNat 32 (leAt b 0 4)))
  else if op = 0x32 then some (.complete (BitVec.ofNat 32 (leAt b 0 4)) ((leAt b 4 1).testBit 0) (leAt b 8 4) (leAt b 12 4))
  else none

/-- The entries of a forwarded WRITE_GROUP. -/
def parseGroup : Nat → List Byte → List ObjWrite
  | 0, _ => []
  | k + 1, b =>
    if b.length < 8 then []
    else ⟨BitVec.ofNat 16 (leAt b 0 2), BitVec.ofNat 8 (leAt b 2 1), slice b 8 (leAt b 4 4)⟩ :: parseGroup k (b.drop (8 + leAt b 4 4))

/-- The result pieces of a forwarded entry. -/
def parsePieces : Nat → List Byte → List (Nat × Nat × List Byte)
  | 0, _ => []
  | k + 1, b => if b.length < 16 then [] else (leAt b 0 8, leAt b 8 4, slice b 16 (leAt b 12 4)) :: parsePieces k (b.drop (16 + leAt b 12 4))

/-- A forwarded request performed for the front, under session 100 + n. -/
def performForwarded (s : State) (b : List Byte) : State :=
  let c : Caller := { session := 100 + leAt b 0 1, role := leAt b 1 1, ip := 0, port := .hp0 }
  let seq := BitVec.ofNat 32 (leAt b 2 4)
  let op := leAt b 6 1
  let p := b.drop 7
  match if op = 0x13 then some (.writeGroup (parseGroup 32 p) []) else parseRequest op p with
  | some req => perform s c seq req
  | none => twinReject s 0x13 0

/-- The front reads a forwarded order's context, or says that it cannot. -/
def readForwarded (s : State) (p : List Byte) : State :=
  let n := leAt p 1 1
  match dataQp s n with
  | some qp =>
    if qpOk s qp then
      emit { s with twin := { s.twin with forwarded := s.twin.forwarded ++ [p] } } (.rdmaRead qp (BitVec.ofNat 64 (leAt p 6 8)) (BitVec.ofNat 32 (leAt p 14 4)) (4 * leAt p 18 4))
    else emit s (.twin 0x30 s.journal.epoch ([4] ++ slice p 2 4 ++ [0]))
  | none => emit s (.twin 0x30 s.journal.epoch ([4] ++ slice p 2 4 ++ [0]))

/-- The home's entry reaches the front: the front's own output of it, as the shadow, is owed no longer (R519). -/
def entrySeen (s : State) (entry : List Byte) : State :=
  let stays (d : Delivery) : Bool := homed s d.region || decide (d.entry.take 6 ≠ entry.take 6 ∨ slice d.entry 16 8 ≠ slice entry 16 8)
  { s with twin := { s.twin with withheld := s.twin.withheld.filter stays } }

/-- FORWARD (R508): ring entries, requests, responses, contexts, and regions handed over. -/
def execForward (h : TwinHdr) (payload : List Byte) (s : State) : Answer :=
  match twinIn s h true with
  | (s, false) => answer s
  | (s, true) =>
    let b := payload.drop 1
    match leAt payload 0 1 with
    | 0 => answer (if s.twin.front then ringPush (entrySeen s (slice b 2 32)) (leAt b 0 2) (slice b 2 32) (parsePieces 8 (b.drop 34)) else s)
    | 1 => answer (performForwarded s b)
    | 2 =>
      let n := leAt b 0 1
      answer (pumpAll (finish s n (BitVec.ofNat 32 (leAt b 1 4)) ⟨BitVec.ofNat 8 (leAt b 5 1), BitVec.ofNat 16 (leAt b 6 2), b.drop 8⟩) n)
    | 3 => answer (readForwarded s payload)
    | 4 => answer (match findOrder s (BitVec.ofNat 32 (leAt b 0 4)) with
      | some o => contextEnds s o (if leAt b 4 1 = 1 then some ((List.range ((b.length - 5) / 4)).map fun i => BitVec.ofNat 32 (leAt b (5 + 4 * i) 4)) else none)
      | none => s)
    | 5 =>
      let r := leAt b 0 1
      if 64 ≤ r then answer (twinReject s 0x13 0)
      else
        let s := noteFailover s (if leAt b 1 1 = 2 then 2 else 0) (now s) [r]
        let old := (dget s 0x4800 0x08).getD (r / 8) 0
        let s := if homed s r then s else dput s 0x4800 0x08 (splice (dget s 0x4800 0x08) (r / 8) [old ^^^ BitVec.ofNat 8 (2 ^ (r % 8))])
        answer (adoptRegion s r)
    | _ => answer (twinReject s 0x13 0)

/-- TWIN_SESSION (R520): content with a reserved value is rejected; the copy of a pair session, replaced or gone; the entries that its counts pass are owed no longer, and a closed session's orders are cancelled. -/
def execTwinSession (h : TwinHdr) (m : SessionMsg) (s : State) : Answer :=
  match twinIn s h true with
  | (s, false) => answer s
  | (s, true) =>
    if m.number.val = 0 ∨ 2 < m.role.toNat then answer (twinReject s 0x13 0)
    else if s.twin.front then answer s
    else
      let n := m.number.val
      let old := s.twin.shadowSessions.find? fun x => decide (x.number = m.number)
      let passed (i : Nat) : Nat := m.counts.getD i 0 - (match old with
        | some x => x.counts.getD i 0
        | none => 0)
      let dropDue (due : List (Nat × List Byte × List (Nat × Nat × List Byte))) (i : Nat) : List (Nat × List Byte × List (Nat × Nat × List Byte)) :=
        let k := 16 * (n - 1) + i
        (due.foldl (fun (p : List (Nat × List Byte × List (Nat × Nat × List Byte)) × Nat) e =>
          if e.1 = k ∧ 0 < p.2 then (p.1, p.2 - 1) else (p.1 ++ [e], p.2)) ([], passed i)).1
      let rest := s.twin.shadowSessions.filter fun x => decide (x.number ≠ m.number)
      let s : State := { s with twin := { s.twin with shadowSessions := if m.opened then rest ++ [m] else rest,
                                                      shadowDue := (List.range 16).foldl dropDue s.twin.shadowDue } }
      answer (if m.opened then s
        else (s.orders.filter fun o => o.isOpen && decide (o.session = 100 + n)).foldl (fun s o => cancelApply (cancelJournal s o.tag 1) o.tag) s)

/-- REJECT (R522): a gap is sent again from the expected record; a region the partner does not hold is copied and resynchronises; a wrong serial excludes the link. -/
def execReject (h : TwinHdr) (code : BitVec 8) (arg : Nat) (s : State) : Answer :=
  if !twinArrives s h then answer s
  else match code.toNat with
    | 0x01 => answer { s with twin := { s.twin with excluded := s.twin.excluded ++ [h.link.val] } }
    | 0x10 => answer ((s.journal.entries.filter fun e => decide (arg ≤ e.record.seq)).foldl (fun s e => emit s (.twin 0x10 s.journal.epoch (jBytes e.record))) s)
    | 0x12 =>
      if 64 ≤ arg then answer s
      else
        let s := deliverWithheld s fun q => decide (q = arg)
        let s := modRegion s arg fun g => { g with protected_ := false, resync := true }
        let g := regionOf s arg
        answer (([0, 1].filter fun i => hoodLoaded s (slotHood g i)).foldl (fun s i => copyOut s false (slotHood g i) (hoodOf s (slotHood g i)).image) s)
    | _ => answer s

/-! ## Modes (R511) -/

/-- TWIN_MODE_EFFECT (R511): the first journal epoch at least 1 ms after both members accepted the request. -/
def execTwinModeEffect (s : State) : Answer :=
  match s.twin.modeAt with
  | none => answer s
  | some (m, t) => guarded (decide (t ≤ s.journal.epochAt)) s (modeTakes s m)

/-- REGION_PROTECTED (R511): the shadow's copy of a region is complete. -/
def execRegionProtected (region : RegionId) (s : State) : Answer :=
  let r := region.val
  guarded (streaming s && !twinSolo s && regionUsed s r) s
    (settleSyncing (modRegion s r fun g => { g with protected_ := true, resync := false }))

end Sys2Proof.Machine
end

