-- ==== Sys2Proof/Machine/Maint.lean ====
section
/-! DEFINITION. The Pounce, the maintenance scheduler, field-defect appends, and the thermal trip (R533, R537 to R545, R549, R550, R615, R616). -/
namespace Sys2Proof.Machine
open Sys2Proof

/-! ## Start conditions (R538, R542 to R545) -/

/-- Whether an instant lies in a maintenance window (R545). -/
def inWindow (s : State) (t : Nat) : Bool :=
  let w := dget s 0x5200 0x04
  let start := leAt w 0 8
  let period := leAt w 8 8
  let len := leAt w 16 8
  decide (0 < len ∧ start ≤ t ∧ (t - start) % period < len)

/-- Whether a window is set at all. -/
def windowSet (s : State) : Bool := decide (0 < leAt (dget s 0x5200 0x04) 16 8)

/-- The region that holds a test's target: none for a site that serves no logical tile, and for a link. -/
def pounceRegion (s : State) (m : Maint) : Option Nat :=
  if m.test < 4 then match targetSite s m.scope with
    | some x => if (remapIndex s x).isSome then regionOfSite s x else none
    | none => none
  else if m.test = 5 then none
  else (targetCluster m.scope).bind (regionOfCluster s)

/-- Whether a step of a region is running. -/
def stepRuns (s : State) (r : Nat) : Bool := match (regionOf s r).batch with
  | some b => b.releaseAt.isSome
  | none => false

/-- The start condition of an activity. -/
def startCondition (s : State) (m : Maint) : Bool :=
  if m.activity = 2 then match pounceRegion s m with
    | none => true
    | some r =>
      !stepRuns s r &&
        (if m.urgency = 1 then !(regionOrders s r).any (·.isOpen) else if m.urgency = 2 then inWindow s (crownTime s) else true)
  else if m.activity = 6 then !windowSet s || inWindow s (crownTime s)
  else if m.activity = 8 then !regBit s (spadReg m.scope 0) 0
  else true

/-- Whether something running, or queued ahead of an activity, conflicts with it. -/
def blocked (s : State) (m : Maint) : Bool :=
  (s.maint.takeWhile fun x => decide (x.id ≠ m.id)).any (conflicts s m) || s.maint.any fun x => x.running && decide (x.id ≠ m.id) && conflicts s m x

/-! ## Starting (R537, R538, R544) -/

/-- A covered test begins in a region that this member shadows in MIRROR: the home learns the last step that both have run (R539). -/
def coverBegin (s : State) (m : Maint) (r : Nat) : State :=
  if m.twinCover && !twinSolo s && decide (s.twin.mode = 3) && !homed s r && !(regionOf s r).cover then
    coverMessage (modRegion s r fun g => { g with cover := true }) r (regionOf s r).stepNo
  else s

/-- What the start of an activity does to its target: a Pounce holds the next step of its region, a link test takes its link DOWN, an HBM repair holds its stack, a link retraining begins. -/
def startEffect (s : State) (m : Maint) : State :=
  if m.activity = 2 then
    let s := match pounceRegion s m with
      | some r => coverBegin (modRegion s r fun g => { g with pounceHold := true }) m r
      | none => s
    match maintLink m with
    | some i => linkTo s i 0 0
    | none => s
  else if m.activity = 6 then
    let h := m.scope
    setStack s h { stackRec s h with retraining := true }
  else if m.activity = 7 then linkRetrainBegin s m.scope
  else s

/-- An activity whose target is dark ends ABORTED. -/
def targetDark (s : State) (m : Maint) : Bool := match maintCluster s m with
  | some c => !clusterOn s c || (clusterRec s c).holed
  | none => false

/-- One attempt to start a queued activity; a first wait behind a conflict is counted in 0x5200:06. -/
def tryStart (s : State) (id : Nat) : State := match s.maint.find? fun m => decide (m.id = id) && !m.running with
  | none => s
  | some m =>
    if !startCondition s m then s
    else if blocked s m then
      if m.waits then s
      else dcount { s with maint := s.maint.map fun x => if x.id = id then { x with waits := true } else x } 0x5200 0x06 8 1
    else if targetDark s m then (if m.activity = 2 then pounceOutcome s m 2 0 else maintDone s id)
    else
      startEffect { s with maint := s.maint.map fun x => if x.id = id then { x with running := true, started := now s, waits := false } else x } m

/-- POUNCE_TEST_START (R538). -/
def execPounceTestStart (id : Nat) (s : State) : Answer :=
  guarded (s.maint.any fun m => decide (m.id = id ∧ m.activity = 2)) s (tryStart s id)

/-- MAINTENANCE_START (R544). -/
def execMaintenanceStart (id : Nat) (s : State) : Answer :=
  guarded (s.maint.any fun m => decide (m.id = id ∧ m.activity ≠ 2)) s (tryStart s id)

/-- MAINTENANCE_WINDOW_OPEN (R350, R545): inside a window by the Crown's local counter, the activities that wait for one are tried in queue order. -/
def execMaintenanceWindowOpen (s : State) : Answer :=
  guarded (inWindow s (crownTime s)) s
    ((s.maint.filter fun m => decide (m.activity = 6 ∨ (m.activity = 2 ∧ m.urgency = 2))).foldl (fun s m => tryStart s m.id) s)

/-! ## The end of a Pounce test (R533, R538, R540) -/

/-- Duration of a test in DTU (R537). -/
def testTime (code : Nat) : Nat := ([19200000, 96000000, 12800000, 128000000, 144000000, 320000000, 128000000] : List Nat).getD code 0

/-- Tested sites filled, and the region's staged slots written again from their hoods (R281, R538); a region that is HELD or in SCRUB keeps what it holds (R169). -/
def restage (s : State) (r : Nat) (sites : List Nat) : State :=
  if (regionOf s r).state = .held ∨ (regionOf s r).state = .scrub then s else
  let s := sites.foldl (fun s x => (List.range 8).foldl (fun s b => bankZero s x b) s) s
  (List.range 2).foldl (fun s i =>
    let st := slotStateOf (regionOf s r) i
    if st = .active ∨ st = .standby then
      let s := sites.foldl (fun s x => (slotBanks s r i).foldl (fun s b => bankOn s x b) s) s
      let s := stageImem s r i
      let s := if isPinned (manifest s (slotHood (regionOf s r) i)) then pinWeights s r i else s
      if st = .active then slotTables s r i else s
    else s) s

/-- A region's next step is held while a test runs in it or a hub of it is stopped for a spare's test. -/
def settleHold (s : State) (r : Nat) : State :=
  let hold := (s.maint.any fun m => m.running && decide (m.activity = 2 ∧ pounceRegion s m = some r)) || (regionClusters s r).any fun c => !regBit s (hubReg c 0) 0
  modRegion s r fun g => { g with pounceHold := hold, heldUntil := now s }

/-- The mapped sites of a cluster that are SUSPECT or bad. -/
def givenUp (s : State) (c : Nat) : List Nat :=
  (clusterSites c).filter fun x => (remapIndex s x).isSome && (regBit s (arrayReg x 4) 1 || regBit s (hubReg c 0x00C) (x % 16))

/-- A spare that passed takes the place of the site given up: its HUB_TMAP entry is rewritten, the hub runs again, and SUSPECT clears (R89, R533). -/
def spareIn (s : State) (c y : Nat) : State :=
  match givenUp s c with
  | [] => s
  | x :: _ =>
    let i := (remapIndex s x).getD 0
    let s := regPut s (hubReg c (0x010 + 4 * i)) (BitVec.ofNat 32 (y % 16 + 16))
    let s := regSetBit (regSetBit s (hubReg c 0) 0 true) (arrayReg x 4) 1 false
    let s := settleMaps s
    match regionOfCluster s c with
    | some r => restage s r [y]
    | none => s

/-- A failed site: bad, with its records; one in service takes the tile path, and a spare that fails while its hub waits for it leaves the cluster holed. -/
def siteFails (s : State) (x detail : Nat) : State :=
  let c := siteCluster x
  let waiting := !regBit s (hubReg c 0) 0
  let s := regSetBit s (hubReg c 0x00C) (x % 16) true
  let s := settleMaps (fieldDefect s 1 0 x detail)
  if (remapIndex s x).isSome then
    if waiting then s
    else match regionOfCluster s c with
      | some r => tilePath s r x
      | none =>
        match (if setFld ((regGet s (hubReg c 0x00C)).toNat % 65536) (x % 16) 1 0 = 0 then spareSite s c else none) with
        | some y => queueMaint (regSetBit s (hubReg c 0) 0 false) 2 (physTarget y) 0 3 false 0
        | none => holeCluster s c 5
  else if waiting then holeCluster s c 5
  else s

/-- A failed test applied to its target (R540). A cluster test's detail has the failing sites in bits 15 to 0 and the hub in bit 16; a link's has the lane, and a regulator's the phase (log entry 47). -/
def failEffect (s : State) (m : Maint) (detail : Nat) : State :=
  let s := record s 0x0801 0xFF 0xFFFF (m.scope % 4096) (leBytes 4 m.test ++ leBytes 4 m.scope ++ leBytes 4 detail)
  if m.test < 4 then match targetSite s m.scope with
    | some x => siteFails s x detail
    | none => s
  else if m.test = 4 then match targetCluster m.scope with
    | some c =>
      let s := ((clusterSites c).filter fun x => detail.testBit (x % 16)).foldl (fun s x => siteFails s x detail) s
      if detail.testBit 16 then holeCluster s c 5 else s
    | none => s
  else if m.test = 5 then match targetLink m.scope with
    | some i => fieldDefect s 8 0 i detail
    | none => s
  else match targetCluster m.scope with
    | some c => if phaseDisabled s c (detail % 8) then s else disablePhase s c (detail % 8) .test
    | none => s

/-- A passed test applied to its target: an array test clears SUSPECT, and lets a spare in. -/
def passEffect (s : State) (m : Maint) : State :=
  let array := decide (m.test = 0 ∨ m.test = 3)
  if m.test < 4 then match targetSite s m.scope with
    | some x =>
      let c := siteCluster x
      if array && (remapIndex s x).isNone && !regBit s (hubReg c 0) 0 then spareIn s c x
      else if array then regSetBit s (arrayReg x 4) 1 false
      else s
    | none => s
  else if m.test = 4 then ((targetCluster m.scope).map clusterSites).getD [] |>.foldl (fun s x => regSetBit s (arrayReg x 4) 1 false) s
  else s

/-- POUNCE_TEST_END (R540): the outcome applied and recorded; tested sites, but for those of a HELD region, whose contents are frozen (R169), are filled and restaged, and a tested link trains again. -/
def execPounceTestEnd (id : Nat) (outcome : TestEnd) (s : State) : Answer :=
  match s.maint.find? fun m => decide (m.id = id ∧ m.activity = 2) && m.running with
  | none => answer s
  | some m =>
    let early := match outcome with
      | .aborted => !targetDark s m
      | _ => decide (now s < m.started + testTime m.test)
    if early then answer s
    else
      let r := pounceRegion s m
      let sites := if m.test < 5 then maintSites s m else []
      let (code, detail) := match outcome with
        | .pass => (0, 0)
        | .fail d => (1, d.toNat)
        | .aborted => (2, 0)
      let s := pounceOutcome s m code detail
      let s := (sites.filter fun x => !siteHeld s x).foldl (fun s x => (List.range 8).foldl (fun s b => bankZero s x b) s) s
      let s := match outcome with
        | .pass => passEffect s m
        | .fail d => failEffect s m d.toNat
        | .aborted => s
      let s := match maintLink m with
        | some i => linkTrain s i
        | none => s
      let s := match r with
        | some r => if regionUsed s r then restage s r (sites.filter fun x => (remapIndex s x).isSome) else s
        | none => s
      let c := maintCluster s m
      answer (match r.or (c.bind (regionOfCluster s)) with
        | some r => if (regionOf s r).pounceHold then settleHold s r else s
        | none => s)

/-- OTP_APPEND_DONE (R550): the oldest append ends after its 2 ms. -/
def execOtpAppendDone (s : State) : Answer := match s.otp.appending with
  | [] => answer s
  | (d, t) :: rest => guarded (decide (t + 32000000 ≤ now s)) s { s with otp := { s.otp with appending := rest, field := s.otp.field ++ [(d.kind, d)] } }

/-! ## Thermal trip (R615, R616) -/

/-- Every cluster regulator turns off: clusters that run or ramp go dark with cause 5. -/
def tripClusters (s : State) : State :=
  (List.range 192).foldl (fun s c => match (clusterRec s c).power with
    | .off => s
    | .dark => s
    | _ => regulatorDark s c 5) s

/-- Every stack goes into self-refresh. -/
def refreshStacks (s : State) : State :=
  (List.range 24).foldl (fun s h => match (stackRec s h).st with
    | .up => setStack s h { stackRec s h with st := .selfRefresh }
    | .training => setStack s h { stackRec s h with st := .selfRefresh }
    | _ => s) s

/-- THERMAL_TRIP (R615): a cluster or field-hub sensor at 105 °C, or a stack at 100 °C. What a warm restart left in HBM is not preserved after it (R616). -/
def execThermalTrip (stack : Bool) (unit : Nat) (celsius : Int) (s : State) : Answer :=
  let hit := if stack then decide (unit < 24 ∧ 100 ≤ celsius) else decide (unit < 204 ∧ 105 ≤ celsius)
  guarded (hit && !s.pins.thermTrip) s
    (refreshStacks (tripClusters { s with pins := { s.pins with thermTrip := true }, boot := { s.boot with warm := false } }))

end Sys2Proof.Machine
end

