-- ==== Sys2Proof/Machine/Boot.lean ====
section
/-! DEFINITION. Reset, bring-up commands and steps, identity memories, defect map and remap, AUTO, warm restart, and the JTAG lock (R554 to R578, R597, R607). -/
namespace Sys2Proof.Machine
open Sys2Proof

/-! ## Board EEPROM (R563) -/

/-- Records from byte `at_` on: each with its type and value, and where the closing record stands. -/
def eepWalk (b : List Byte) : Nat → Nat → List (Nat × List Byte) → List (Nat × List Byte) × Option Nat
  | 0, _, acc => (acc, none)
  | k + 1, at_, acc =>
    if b.length < at_ + 3 then (acc, none)
    else
      let ty := leAt b at_ 1
      if ty = 0xFF then (acc, some at_)
      else eepWalk b k (at_ + 3 + leAt b (at_ + 1) 2) (acc ++ [(ty, slice b (at_ + 3) (leAt b (at_ + 1) 2))])

/-- The contents in use. -/
def eepUsed (b : List Byte) : List Byte := b.take (min 4096 (leAt b 6 2))

/-- 0x7000:01: absent or without the magic, valid, CRC error, unknown version (log entry 49). -/
def eepState (e : Option (List Byte)) : Nat := match e with
  | none => 0
  | some b =>
    if leAt b 0 4 ≠ 0x4A584245 then 0
    else if leAt b 4 2 ≠ 1 then 3
    else match (eepWalk (eepUsed b) 1366 8 []).2 with
      | some c => if leAt (eepUsed b) (c + 3) 4 = crc32c ((eepUsed b).take c) then 1 else 2
      | none => 2

/-- The records of a valid EEPROM. -/
def eepRecords (e : Option (List Byte)) : List (Nat × List Byte) := match e with
  | some b => if eepState e = 1 then (eepWalk (eepUsed b) 1366 8 []).1 else []
  | none => []

def eepFind (e : Option (List Byte)) (ty : Nat) : Option (List Byte) := ((eepRecords e).find? fun r => decide (r.1 = ty)).map (·.2)

/-- The EEPROM as it was last read. -/
def boardEep (s : State) : Option (List Byte) := if dget s 0x7000 0x02 = [] then none else some (dget s 0x7000 0x02)

/-- The link entry of port k of R563: media, module bus, mux channel, flags. -/
def linkEntry (s : State) (k : Nat) : List Byte := match eepFind (boardEep s) 4 with
  | some v => slice v (4 * k) 4
  | none => zeros 4

def linkMedia (s : State) (k : Nat) : Nat := leAt (linkEntry s k) 0 1

/-- The PMBus address of a zone's stage, 0 for none. -/
def stageAddress (s : State) (z : Nat) : Nat := match eepFind (boardEep s) 3 with
  | some v => leAt v z 1
  | none => 0

/-- Object 0x7000 from the bytes read. -/
def eepObjects (s : State) (e : Option (List Byte)) : State :=
  let ident := (eepFind e 1).getD []
  let n := leAt ident 0 1
  let s := dputNum s 0x7000 0x01 1 (eepState e)
  let s := dput s 0x7000 0x02 ((e.getD []).take 4096)
  let s := dput s 0x7000 0x03 (if ident = [] then [] else slice ident 1 (min n 32))
  let s := dput s 0x7000 0x04 (if ident = [] then [] else slice ident (2 + n) (min (leAt ident (1 + n) 1) 24))
  let s := dput s 0x7000 0x05 (((eepFind e 5).getD []).take 24)
  dputNum s 0x7000 0x06 1 (leAt ((eepFind e 6).getD []) 0 1 % 2)

/-! ## Module memories and stages (R564, R565, R567) -/

/-- The media object of a port or link: media, lanes, and the module's identifier, byte 0 of its lower page (log entry 50). -/
def mediaObject (s : State) (k : Nat) : State :=
  let m := linkMedia s k
  let lanes := if k < 2 then 4 else if m = 3 then max 4 (dnum s (0x7020 + k) 0x04) else 5
  let v := leBytes 1 (m - 1) ++ leBytes 1 lanes ++ (if m = 3 then (dget s (0x7020 + k) 0x02).take 1 ++ zeros 13 else zeros 14)
  if k < 2 then dput s (0x1100 + k) 0x0D v else dput s (0x4400 + (k - 2)) 0x07 v

/-- One module memory read: present, or unsupported; the spare needs a fifth host lane, and high power the board's leave. -/
def moduleRead (s : State) (r : ModuleReading) : State :=
  let k := r.link.val
  let i := 0x7020 + k
  let s := dputNum s i 0x01 1 (if r.suitable then 2 else 3)
  let s := dput s i 0x02 (slice r.lower 0 128)
  let s := dput s i 0x03 (slice r.upper 0 128)
  let s := dputNum s i 0x04 1 (if 2 ≤ k ∧ r.fifthLane then 5 else 4)
  let s := dputNum s i 0x05 1 (if r.suitable then leAt (linkEntry s k) 3 1 % 2 else 0)
  let s := mediaObject s k
  if 2 ≤ k ∧ !r.suitable ∧ linkUsable s (k - 2) then linkTo s (k - 2) 0 0 else s

/-- The media of a link take effect: one without media reads DISABLED. -/
def linkDeclare (s : State) (k : Nat) : State :=
  let m := linkMedia s k
  if k < 2 then s
  else
    let l := linkOf s (k - 2)
    setLink s (k - 2) { l with media := m, st := if m = 0 then 4 else if l.media = 0 ∧ dnum s (0x4400 + (k - 2)) 0x02 = 1 then 0 else l.st }

/-- One stage's reading: valid when every read answers and the output lies between 1.60 V and 1.70 V. -/
def stageRead (s : State) (z : Nat) (r : Option StageReading) : State :=
  let i := 0x7001 + z
  let s := dputNum s i 0x02 1 (stageAddress s z)
  if stageAddress s z = 0 then setZone (dputNum s i 0x01 1 0) z { zoneRec s z with stageValid := false }
  else match r with
    | some r =>
      let valid := r.answered && decide (1600 ≤ r.milliVolts ∧ r.milliVolts ≤ 1700)
      let s := dputNum s i 0x01 1 (if !r.answered then 1 else if valid then 2 else 3)
      let s := if r.answered then
          let s := dput s i 0x03 (r.mfr.take 64)
          let s := dput s i 0x04 (r.model.take 64)
          let s := dputNum s i 0x05 2 r.ratedAmps
          dputF32 s i 0x06 (f32Ratio r.milliVolts 1000)
        else s
      setZone s z { zoneRec s z with stageValid := valid, ratedAmps := r.ratedAmps }
    | none => setZone (dputNum s i 0x01 1 1) z { zoneRec s z with stageValid := false }

/-- Step 2 (R561): every identity memory is read or found absent. -/
def readIdentity (s : State) (obs : BringObs) : State :=
  let s := eepObjects s obs.eeprom
  let s := match eepFind obs.eeprom 5 with
    | some v => dput s 0x4800 0x04 (v.take 24)
    | none => s
  let s := (List.range 24).foldl (fun s z => stageRead s z (obs.stages.find? fun r => decide (r.zone.val = z))) s
  (List.range 20).foldl (fun s k =>
    let s := if linkMedia s k = 3 then match obs.modules.find? fun r => decide (r.link.val = k) with
        | some r => moduleRead s r
        | none => dputNum s (0x7020 + k) 0x01 1 1
      else s
    linkDeclare (mediaObject s k) k) s

/-- The modules declared and not present and suitable. -/
def modulesMissing (s : State) : Nat := ((List.range 20).filter fun k => decide (linkMedia s k = 3 ∧ dnum s (0x7020 + k) 0x01 ≠ 2)).length

/-- MODULE_INSERTED (R567). -/
def execModuleInserted (reading : ModuleReading) (s : State) : Answer :=
  guarded (!s.boot.inReset && decide (linkMedia s reading.link.val = 3)) s (moduleRead s reading)

/-! ## Reset and the ROM (R554, R555, R607) -/

/-- A cut append reads as kind 0xFF (R550). -/
def otpCut (o : Otp) : Otp := { o with field := o.field ++ o.appending.map (fun d => (0xFF, d.1)), appending := [] }

/-- Every block is reset and all state is lost but OTP. The queue, what has left the block, the draw count of free values and the references are the surroundings'. -/
def coldReset (s : State) : State :=
  let t : TimeRec := { TimeRec.reset with refA := s.time.refA, refB := s.time.refB }
  { State.reset with pending := s.pending, out := s.out, freeCount := s.freeCount, otp := otpCut s.otp, time := t }

/-- POWER_GOOD_RESET (R554). -/
def execPowerGoodReset (s : State) : Answer := answer (coldReset s)

/-- RAIL_EXCURSION (R607): while PWR_GOOD is high. -/
def execRailExcursion (s : State) : Answer := guarded s.pins.powerGood s (coldReset s)

/-- The identity key unwrapped by the PUF, or an IDENTITY_FAILED record (R580). -/
def unwrapIdentity (s : State) : State :=
  if Config.pufUnwraps then s else record { s with sec := { s.sec with identityOk := false } } 0x0909 0xFF 0xFFFF 0 []

/-- What the ROM does (R555): it sets ERR_CTRL.EN, reads the EEPROM, loads the network record, trains the host ports that have media, and brings up MP. -/
def romBoot (s : State) (eeprom : Option (List Byte)) : State :=
  let s := unwrapIdentity (regSetBit s (errReg 0) 0 true)
  let s := eepObjects s eeprom
  let s := match eepFind eeprom 2 with
    | some v => dput ((List.range 3).foldl (fun s p => dput s (0x1100 + p) 0x04 (slice v (4 * p) 4)) s) 0x1100 0x09 (slice v 12 160)
    | none => s
  let s := (List.range 2).foldl (fun s p =>
    if linkMedia s p ≠ 0 ∧ !(portOf s p).up then setPort (mediaObject s p) p { portOf s p with training := true } else s) s
  setPort s 2 { portOf s 2 with up := true, upSince := some (now s) }

/-- BRINGUP_START (R555, R610): the ROM waits for a reference. -/
def execBringupStart (eeprom : Option (List Byte)) (s : State) : Answer :=
  guarded (s.boot.inReset && (s.time.refA || s.time.refB)) s
    (romBoot { s with boot := { s.boot with inReset := false }, pins := { s.pins with powerGood := true } } eeprom)

/-! ## Answers on MB01 (R557 to R560) -/

def bringAnswer (s : State) (code : Nat) (tag : BitVec 8) (status detail : Nat) : State :=
  let w := BitVec.ofNat 64 (code + tag.toNat * 2 ^ 8 + status * 2 ^ 16 + s.boot.lastStep * 2 ^ 24 + detail * 2 ^ 32)
  carryAnswers { s with boot := { s.boot with answers := s.boot.answers ++ [w] } }

/-- The detail of DONE_REDUCED: a count and a kind. -/
def reducedDetail (n kind : Nat) : Nat := n + kind * 2 ^ 16

/-! ## Step 3: HBM (R247, R248, R251, R262 to R266, R577) -/

/-- Whether a stack's manufacturer, part and density match an entry of the loaded firmware image's qualification table (R266). -/
def stackQualified (s : State) (identity : List Byte) : Bool :=
  (Config.qualifiedStacks s.sec.version).contains (Config.stackMake (slice identity 0 64))

/-- The identities, and whether each is qualified. -/
def stackIdentity (s : State) (h : Nat) (o : Option StackTraining) : State := match o with
  | some x =>
    let s := if x.identityRead then dput s (0x4000 + h) 0x04 (slice x.identity 0 64) else s
    dputNum s (0x4000 + h) 0x05 1 (boolNat (x.identityRead && stackQualified s x.identity))
  | none => s

/-- Whether what HBM held is kept: the split, the rate request and every identity as before, and every lane test passed. -/
def hbmKept (s : State) (find : Nat → Option StackTraining) : Bool :=
  s.boot.warm && decide (s.boot.warmDict.take 2 = [dnum s 0x4000 0x11, dnum s 0x4000 0x12]) &&
    (List.range 24).all fun h => match find h with
      | some x => x.identityRead && decide (slice x.identity 0 64 = mget [] s.boot.warmIds h) && x.laneTestPassed
      | none => false

/-- Ranges of the images that a warm restart kept. -/
def keptRanges (s : State) : List Range := s.boot.hoodsKept.map (fun x => (x.2.base, x.2.len)) ++ s.boot.adaptersKept.map fun x => (x.2.base, x.2.len)

/-- One stack trained at a rate: why it FAILED, 0 for not. -/
def trainCause (fast : Bool) (o : Option StackTraining) : Nat := match o with
  | none => 3
  | some x => if x.lanesExceeded then 1 else if !(if fast then x.trains96 else x.trains64) then 2 else if !x.identityRead then 3 else if (Config.stackMake (slice x.identity 0 64)).2.2 ≠ 128 then 4 else 0

/-- Full training of every stack: nothing in HBM is kept, the rate falls back for all together, and failed stacks change the map. -/
def trainFull (s : State) (find : Nat → Option StackTraining) : State :=
  let s : State := { s with hbm := [], hbmTag := [], hbmAlloc := [], hbmZero := [], boot := { s.boot with warm := false, hoodsKept := [], adaptersKept := [] } }
  let s := (List.range 24).foldl (fun s h => stackIdentity s h (find h)) s
  let asked := decide (dnum s 0x4000 0x12 = 1)
  let fast := asked && (List.range 24).all fun h => decide (dnum s (0x4000 + h) 0x05 = 1) && match find h with
    | some x => x.trains96
    | none => false
  let s := dputNum s 0x4000 0x13 1 (boolNat (asked && !fast))
  let s := (List.range 24).foldl (fun s h =>
    let s := dputNum s (0x4000 + h) 0x02 4 (if fast then 9600 else 6400)
    let s := match find h with
      | some x => lanesRepaired s h x.lanesRepaired
      | none => s
    let why := trainCause fast (find h)
    if why = 0 then setStack s h { StackRec.reset with st := .up }
    else setStack (stackFailed s h why) h { stackRec (stackFailed s h why) h with dead := true }) s
  if (List.range 24).any fun h => decide ((stackRec s h).st = .failed) then dputNum s 0x4000 0x11 1 0 else s

/-- Every stack leaves self-refresh with what it held: rate and fallback as before the restart. -/
def trainKept (s : State) (find : Nat → Option StackTraining) : State :=
  let s := (List.range 24).foldl (fun s h =>
    let s := stackIdentity s h (find h)
    let s := dputNum s (0x4000 + h) 0x02 4 (s.boot.warmDict.getD 5 6400)
    setStack s h { stackRec s h with st := .up }) s
  dputNum { s with hbmAlloc := keptRanges s } 0x4000 0x13 1 (s.boot.warmDict.getD 6 0)

def trainHbm (s : State) (obs : BringObs) : State :=
  let find (h : Nat) : Option StackTraining := obs.hbmStacks.find? fun x => decide (x.stack.val = h)
  if hbmKept s find then trainKept s find else trainFull s find

def stacksFailed (s : State) : Nat := ((List.range 24).filter fun h => decide ((stackRec s h).st = .failed)).length

/-! ## Step 4: clusters (R365, R368, R377 to R379, R574) -/

/-- The zones of a mask. -/
def maskZones (s : State) : List Nat := (List.range 24).filter fun z => s.boot.zoneMask.toNat.testBit z

/-- The zone limit: the lower of what stands, 220 A and the stage's rating. -/
def zoneLimit (s : State) (z : Nat) : State :=
  dputNum s (0x2010 + z) 0x02 2 (min (min 220 (dnum s (0x2010 + z) 0x02)) (zoneRec s z).ratedAmps)

/-- AUTO's next wave: both zones of a field, 10 ms after the wave before (R574). -/
def nextWave (s : State) : State :=
  let w := s.boot.wave
  match s.boot.running, s.boot.auto, s.boot.lockWait with
  | some (4, _, _), some _, some t =>
    if w < 12 ∧ t + w * 160000000 ≤ now s then
      let s := ((maskZones s).filter fun z => decide (z / 2 = w)).foldl (fun s z => powerApply s z [0xFF]) s
      { s with boot := { s.boot with wave := w + 1 } }
    else s
  | _, _, _ => s

/-- Whether every cluster requested in the mask is ON or DARK, and no wave is to come. -/
def clustersSettled (s : State) : Bool :=
  (s.boot.auto.isNone || decide (12 ≤ s.boot.wave)) &&
    (maskZones s).all fun z => (zoneClusters z).all fun c =>
      !(dnum s (0x2010 + z) 0x08).testBit (c % 8) || decide ((clusterRec s c).power = .on ∨ (clusterRec s c).power = .dark)

/-- The first trim reading (R368). -/
def firstTrims (s : State) (obs : BringObs) : State :=
  obs.trims.foldl (fun s (c, v) => if clusterOn s c then applyTrim (modCluster s c fun r => { r with trimPending := some (max r.trim (min 60 (v / 5 * 5))) }) c else s) s

/-- Zones with every cluster dark, then single dark clusters: the units that step 4 left out. -/
def clustersReduced (s : State) : Nat :=
  let dark (c : Nat) : Bool := decide ((clusterRec s c).power = .dark)
  let zones := ((maskZones s).filter fun z => (zoneClusters z).all dark).length
  let cs := ((maskZones s).flatMap fun z => (zoneClusters z).filter dark).length
  if 0 < zones then reducedDetail zones 2 else if 0 < cs then reducedDetail cs 3 else 0

/-! ## Step 5: time (R363, R577) -/

/-- The time unit is enabled. After a warm restart it keeps its count only under the settings of before. -/
def enableTime (s : State) : State :=
  let same := decide (s.boot.warmDict = [] ∨ (s.boot.warmDict.drop 2).take 3 = [dnum s 0x2200 0x03, dnum s 0x2200 0x04, dnum s 0x2200 0x05])
  let t : TimeRec := { TimeRec.reset with refA := s.time.refA, refB := s.time.refB, useB := s.time.useB, enabled := true }
  if s.time.enabled then s
  else if same then { s with time := { s.time with enabled := true } }
  else { s with time := t, boot := { s.boot with lockWait := some 0 } }

/-! ## Step 6: quick Pounce (R541, R561) -/

/-- Failing sites of ON clusters, recorded and appended; zones without power for this boot. -/
def quickPounce (s : State) (obs : BringObs) : State :=
  let fails := (obs.pounceFails.map (·.val)).filter fun x => clusterOn s (siteCluster x)
  let s := fails.foldl (fun s x => fieldDefect s 1 0 x 0) s
  let s := dput s 0x5100 0x08 (bitmap 384 fails.contains)
  let off (z : Nat) : Bool := !(zoneRec s z).stageValid || (zoneClusters z).all fun c => decide ((clusterRec s c).power = .off)
  { s with boot := { s.boot with zoneUnpowered := BitVec.ofNat 24 (((List.range 24).filter off).foldl (fun m z => m + 2 ^ z) 0) } }

/-! ## Step 7: defect map, remap and tables (R198, R568 to R572) -/

/-- The lanes of a field's trunks before training: eight on each that leads to a field (R198, R211). -/
def trunksWhole (n : Nat) : Nat := ((List.range 4).filter fun t => (List.range 12).any fun k => decide (trunkTo n k = some t)).foldl (fun w t => w + 255 * 2 ^ (8 * t)) 0

/-- A lane disabled: both ends of a mesh link go dead, and a trunk loses the lane at both of its ends (R198). -/
def laneDisabled (s : State) (n : Nat) : SeamLane → State
  | .link x p =>
    let both := (x.val, p.val) :: match meshNeighbour x p.val with
      | some y => [(y, (p.val + 2) % 4)]
      | none => []
    both.foldl (fun s (y, q) =>
      regSetBit { s with boot := { s.boot with seamOff := if s.boot.seamOff.contains (y, q) then s.boot.seamOff else s.boot.seamOff ++ [(y, q)] } } (netReg y 4) q true) s
  | .trunk t lane =>
    let s := regSetBit s (fieldReg n 0x010) (8 * t.val + lane.val) false
    match (List.range 12).find? fun k => decide (trunkTo n k = some t.val) with
    | some k => match trunkTo k n with
      | some u => regSetBit s (fieldReg k 0x010) (8 * u + lane.val) false
      | none => s
    | none => s

/-- One group of wires: with one failed wire it runs on its spare, with more its lane is disabled; either is recorded (R198, R211). -/
def seamGroup (s : State) (n : Nat) (g : SeamGroup) : State :=
  let s := fieldDefect s 4 3 n g.number.toNat
  if g.failed = 1 then regAdd s (fieldReg n 0x014) 1 else laneDisabled s n g.lane

/-- The results of link training on the seams of every field. -/
def seamTraining (s : State) (rs : List SeamResult) : State :=
  let s := (List.range 12).foldl (fun s n => regPut s (fieldReg n 0x010) (BitVec.ofNat 32 (trunksWhole n))) s
  rs.foldl (fun s r => (r.groups.filter fun g => decide (0 < g.failed)).foldl (fun s g => seamGroup s r.field.val g) s) s

/-- A defect with its origin: 0 field, 1 factory, 2 this boot only. -/
abbrev MapEntry := Nat × Defect

/-- The four sources of the defect map in order, each defect once (R568). -/
def defectMap (s : State) (seams : List SeamResult) : List MapEntry :=
  let factory := Config.factoryMap.map fun (k, u, d, p) => (1, (⟨BitVec.ofNat 8 k, 5, BitVec.ofNat 16 u, BitVec.ofNat 32 d, BitVec.ofNat 64 p⟩ : Defect))
  let field := (s.otp.field.filter fun d => decide (d.1 ≠ 0xFF)).map fun d => (0, d.2)
  let boot := (s.boot.bootDefects ++ s.otp.appending.map (·.1)).map fun d => (2, d)
  let wires := seams.flatMap fun r => (r.groups.filter fun g => decide (0 < g.failed)).map fun g => (2, (⟨4, 3, BitVec.ofNat 16 r.field.val, g.number, BitVec.ofNat 64 (ptpSeconds s)⟩ : Defect))
  (factory ++ field ++ boot ++ wires).foldl (fun acc e => if acc.any fun x => sameDefect x.2 e.2 then acc else acc ++ [e]) []

def entryOf (e : MapEntry) : List Byte := defectBytes { e.2 with source := BitVec.ofNat 8 (64 * e.1 + e.2.source.toNat % 64) }

/-- The details of the entries of one kind and unit. -/
def mapDetails (m : List MapEntry) (kind unit : Nat) : List Nat :=
  (m.filter fun e => decide (e.2.kind.toNat = kind ∧ e.2.unit.toNat = unit)).map fun e => e.2.detail.toNat

/-- Scratchpad rows of a bank of a site. -/
def mapRows (m : List MapEntry) (x b : Nat) : List Nat := (mapDetails m 3 x).filter fun r => decide (bankOf r = b)

/-- The bad sites of a cluster's remap: named by the map, failed in the quick Pounce, with two defective columns (R90, R569), or with more bad rows in a bank than spares (R158). -/
def siteBad (s : State) (m : List MapEntry) (x : Nat) : Bool :=
  !(mapDetails m 1 x).isEmpty || bitAt (dget s 0x5100 0x08) x || decide (2 ≤ (mapDetails m 2 x).length) ||
    (List.range 8).any fun b => decide (16 < (mapRows m x b).length)

/-- Whether a cluster comes out whole (R569). -/
def comesWhole (s : State) (m : List MapEntry) (silent : List Cluster) (c : Nat) : Bool :=
  clusterOn s c && decide (((clusterSites c).filter (siteBad s m)).length ≤ 1 ∧ 6 ≤ workingPhases s c) && !(silent.any fun k => decide (k.val = c))

/-- One tile's registers, each enable after the writes of its row (R571). -/
def setTileTables (s : State) (m : List MapEntry) (x : Nat) : State :=
  let s := match mapDetails m 2 x with
    | c :: _ => regPut s (arrayReg x 0) (BitVec.ofNat 32 (c % 128 * 2 ^ 9 + 2 ^ 8))
    | [] => regPut s (arrayReg x 0) 0
  let s := (List.range 8).foldl (fun s b =>
    ((mapRows m x b).zip (List.range 16)).foldl (fun s (r, e) =>
      remapWritten (regPut s (spadReg x (0x100 + 64 * b + 4 * e)) (BitVec.ofNat 32 (r % 1024 + 2 ^ 15))) x b e) s) s
  let s := regPut s (netReg x 8) 0x1FFF
  let s := crownRoutes s x
  let s := regPut s (syncReg x 0) 0
  let s := regSetBit s (spadReg x 0) 0 true
  let s := regSetBit s (netReg x 0) 0 true
  let s := regSetBit s (arrayReg x 0) 0 true
  regSetBit s (syncReg x 0) 0 true

/-- The sites that a cluster's logical indices take, in order (R569). -/
def remapSites (s : State) (c : Nat) : List Nat := (((List.range 16).filter fun k => !regBit s (hubReg c 0x00C) k)).take 15

/-- A hub's map and logical cluster, and its enable; none serves a surplus cluster. -/
def setHub (s : State) (c : Nat) (lc : Option Nat) : State :=
  let s := ((remapSites s c).zip (List.range 15)).foldl (fun s (k, i) => regPut s (hubReg c (0x010 + 4 * i)) (BitVec.ofNat 32 (k + 16))) s
  let s := regPut s (hubReg c 0x008) (match lc with
    | some n => BitVec.ofNat 32 n
    | none => 0x1FF)
  if hubMapOk s c then regSetBit s (hubReg c 0) 0 true else holeCluster (regSetBit s (hubReg c 4) 0 true) c 5

/-- A field's whole clusters in ascending order. -/
def fieldWhole (s : State) (n : Nat) : List Nat := ((List.range 16).map fun k => 16 * n + k).filter (clusterWhole s)

/-- A field hub's cluster remap, its field memory free, and its enable. -/
def setFieldHub (s : State) (n : Nat) : State :=
  let s := (((fieldWhole s n).take 15).zip (List.range 15)).foldl (fun s (c, j) => regPut s (fieldReg n (0x3000 + 4 * j)) (BitVec.ofNat 32 (c % 16 + 16))) s
  let s := (List.range 128).foldl (fun s u => regField s (fieldReg n (0x2000 + 4 * u)) 0 7 0x7F) s
  if fieldMapOk s n (decide (dnum s 0x3600 0x02 = 2)) then regSetBit s (fieldReg n 0) 0 true else regSetBit s (fieldReg n 0x3040) 0 true

/-- Object 0x3010's map. -/
def mapObjects (s : State) (m : List MapEntry) : State :=
  let count (o : Nat) : Nat := (m.filter fun e => decide (e.1 = o)).length
  let s := dputNum s 0x3010 0x01 4 m.length
  let s := dput s 0x3010 0x02 ((m.flatMap entryOf).take 1048576)
  dputNum (dputNum (dputNum s 0x3010 0x06 4 (count 1)) 0x3010 0x07 4 (count 0)) 0x3010 0x08 4 (count 2)

/-- The wholeness of every cluster, from the map: HUB_BAD, HOLED. -/
def markWhole (s : State) (m : List MapEntry) (silent : List Cluster) : State :=
  (List.range 192).foldl (fun s c =>
    let bad := ((List.range 16).filter fun k => siteBad s m (16 * c + k)).foldl (fun w k => w + 2 ^ k) 0
    let s := regPut s (hubReg c 0x00C) (BitVec.ofNat 32 bad)
    let holed := !comesWhole s m silent c
    regSetBit (modCluster s c fun r => { r with holed := holed }) (hubReg c 4) 1 holed) s

/-- Step 7's tables, once every field has a whole cluster. -/
def setTables (s : State) (m : List MapEntry) : State :=
  let s := settleProfile { s with boot := { s.boot with lastStep := 7 } }
  let whole := (List.range 192).filter (clusterWhole s)
  let s := (whole.flatMap clusterSites).foldl (fun s x => setTileTables s m x) s
  let s := (List.range 12).foldl (fun s n => ((fieldWhole s n).zip (List.range 16)).foldl (fun s (c, j) => setHub s c (if j < 15 then some (15 * n + j) else none)) s) s
  let s := (List.range 12).foldl setFieldHub s
  settleMaps (mapObjects s m)

/-- Step 7; none where a field has no whole cluster. -/
def loadTables (s : State) (obs : BringObs) : State × Bool :=
  let s := seamTraining s obs.seams
  let m := defectMap s obs.seams
  let s := markWhole s m obs.hubsSilent
  if (List.range 12).any fun n => decide (wholeIn s n = 0) then (s, false) else (setTables s m, true)

def clustersHoled (s : State) : Nat := ((List.range 192).filter fun c => !clusterWhole s c).length

/-! ## Step 8: links (R493, R494, R561) -/

def maskLinks (s : State) : List Nat := (List.range 18).filter fun i => s.boot.linkMask.toNat.testBit i

/-- The links of the mask take the width of their good lanes; a twin link that is not reported has no cable. -/
def trainLinks (s : State) (obs : BringObs) : State :=
  (maskLinks s).foldl (fun s i =>
    let good := (obs.links.find? fun x => decide (x.1.val = i)).map (·.2)
    let s := if i < 16 then s else setLink s i { linkOf s i with twinPresent := good.isSome }
    if (linkOf s i).st ≠ 1 then s else linkTrained s i (good.getD 0)) s

def linksDown (s : State) : Nat := ((maskLinks s).filter fun i => decide ((linkOf s i).st = 0)).length

/-! ## Step 9: service (R561, R578) -/

/-- The parts of an address span that no listed range covers. -/
def gaps (hi : Nat) : Nat → Nat → List Range → List Range
  | 0, _, _ => []
  | k + 1, lo, rs =>
    if hi ≤ lo then []
    else
      let next := (rs.filter fun r => decide (lo < r.1 + r.2 ∧ 0 < r.2)).foldl (fun (m : Nat × Nat) r => if r.1 < m.1 then r else m) (hi, 0)
      let rest := gaps hi k (max next.1 lo + next.2) rs
      if lo < next.1 then (lo, next.1 - lo) :: rest else rest

/-- Images kept over a warm restart, registered again after the checks of R273, hoods first; all other HBM is zeroed in the background. -/
def registerKept (s : State) : State :=
  let s := s.boot.hoodsKept.foldl (fun s (id, h) =>
    if (hoodOf s id.toNat).state ≠ 0 then hbmDrop s (h.base, h.len) else hoodLand (setHood s id.toNat { h with state := 1 }) id.toNat h.image) s
  let s := s.boot.adaptersKept.foldl (fun s (id, a) =>
    if (adapterOf s id.toNat).state ≠ 0 then hbmDrop s (a.base, a.len) else adapterLand (setAdapter s id.toNat { a with state := 1 }) id.toNat a.image) s
  { s with boot := { s.boot with hoodsKept := [], adaptersKept := [] } }

/-- The journal's ring taken in the spread pool (R328). -/
def takeRing (s : State) : State := match ringFree s with
  | some r => { hbmTake s r with journal := { s.journal with range := r, lost := false } }
  | none => { s with journal := { s.journal with lost := true } }

/-- What a warm restart left unallocated is withheld until it is zeroed. -/
def zeroRest (s : State) : State :=
  if !s.boot.warm then s
  else
    let rs := gaps (3072 * gib) (s.hbmAlloc.length + 2) 0 s.hbmAlloc
    hbmGive { s with hbmAlloc := s.hbmAlloc ++ rs, boot := { s.boot with warm := false } } 64 rs

/-- Step 9: order engines enabled, images registered again, the journal started. -/
def enterService (s : State) : State :=
  let s := registerKept { s with boot := { s.boot with orderEngines := true } }
  jStart (zeroRest (takeRing s))

/-! ## Steps begin and end (R558 to R561, R573, R574) -/

/-- A step begins. -/
def stepBegin (s : State) (step : Nat) (tag : BitVec 8) (arg : Nat) : State :=
  let s : State := { s with boot := { s.boot with running := some (step, tag, BitVec.ofNat 48 arg), lockWait := some (now s) } }
  if step = 3 then
    (List.range 24).foldl (fun s h => setStack s h { stackRec s h with st := .training }) { s with boot := { s.boot with hbmTrained := true } }
  else if step = 4 then
    let all := ((List.range 24).filter fun z => (zoneRec s z).stageValid).foldl (fun m z => m + 2 ^ z) 0
    let s : State := { s with boot := { s.boot with powerEnabled := true, zoneMask := BitVec.ofNat 24 (if arg % 2 ^ 24 = 0 then all else arg), wave := 0 } }
    let s := (maskZones s).foldl zoneLimit s
    if s.boot.auto.isSome then nextWave s else (maskZones s).foldl (fun s z => powerApply s z [0xFF]) s
  else if step = 5 then enableTime s
  else if step = 8 then
    let all := ((List.range 18).filter fun i => decide (linkMedia s (i + 2) ≠ 0)).foldl (fun m i => m + 2 ^ i) 0
    let s : State := { s with boot := { s.boot with relayEnabled := true, linkMask := BitVec.ofNat 18 (if arg % 2 ^ 18 = 0 then all else arg) } }
    (maskLinks s).foldl linkTrain s
  else s

/-- A step completes, with what it left out (0 for nothing): the answer, or AUTO's next step, or AUTO's one answer. -/
def stepDone (s : State) (step : Nat) (tag : BitVec 8) (left : Option Nat) : State :=
  let s : State := { s with boot := { s.boot with lastStep := step, running := none } }
  match s.boot.auto with
  | none => bringAnswer s step tag (if left.isSome then 1 else 0) (left.getD 0)
  | some t =>
    let r := s.boot.autoReduced.or left
    let s : State := { s with boot := { s.boot with autoReduced := r } }
    if step < 9 then stepBegin s (step + 1) t 0
    else bringAnswer { s with boot := { s.boot with auto := none } } 0x0A t (if r.isSome then 1 else 0) (r.getD 0)

/-- A step fails: it is the one to repeat. -/
def stepFailed (s : State) (step : Nat) (tag : BitVec 8) : State :=
  let auto := s.boot.auto.isSome
  bringAnswer { s with boot := { s.boot with running := none, auto := none } } (if auto then 0x0A else step) tag 5 0

/-- Whether LOCK_TIME is done: locked, or not waited for. -/
def timeDone (s : State) (arg : Nat) : Bool := decide (s.time.st = .locked) || arg.testBit 0 || decide (timeSource s = 2)

/-- What a step left out, from a count and its kind. -/
def leftOut (n kind : Nat) : Option Nat := if n = 0 then none else some (reducedDetail n kind)

/-- The running step's work ends. -/
def workEnds (s : State) (obs : BringObs) (step : Nat) (tag : BitVec 8) (arg : Nat) : State :=
  if step = 2 then
    let s := readIdentity s obs
    stepDone s 2 tag (leftOut (modulesMissing s) 5)
  else if step = 3 then
    let s := trainHbm s obs
    if stacksFailed s = 24 then stepFailed s 3 tag else stepDone s 3 tag (leftOut (stacksFailed s) 1)
  else if step = 4 then
    if clustersSettled s then
      let s := firstTrims s obs
      stepDone s 4 tag (if clustersReduced s = 0 then none else some (clustersReduced s))
    else s
  else if step = 5 then (if timeDone s arg then stepDone s 5 tag none else s)
  else if step = 6 then
    (match s.boot.lockWait with
      | some t => if t + 32000000 ≤ now s then stepDone (quickPounce s obs) 6 tag none else s
      | none => s)
  else if step = 7 then
    let (s, ok) := loadTables s obs
    if ok then stepDone s 7 tag (leftOut (clustersHoled s) 3) else stepFailed s 7 tag
  else if step = 8 then
    let s := trainLinks s obs
    stepDone s 8 tag (leftOut (linksDown s) 4)
  else if step = 9 then stepDone (enterService s) 9 tag none
  else s

/-! ## Warm restart (R576, R577) -/

def warmAccepted (s : State) : Bool :=
  servingOff s && !(s.hoods.any fun h => decide (h.2.state = 1)) && !(s.adapters.any fun a => decide (a.2.state = 1)) && decide (s.replay.state ≠ 1)

/-- Stacks go to self-refresh, and every block but the stacks, the PLLs, the time unit's count and the host ports' PCS is reset; bring-up restarts at step 1 with the EEPROM as it stands. -/
def warmReset (s : State) : State :=
  let kept (p : Nat) : Port := { Port.reset with up := (portOf s p).up, upSince := (portOf s p).upSince, training := (portOf s p).training }
  let dict := [dnum s 0x4000 0x11, dnum s 0x4000 0x12, dnum s 0x2200 0x03, dnum s 0x2200 0x04, dnum s 0x2200 0x05, dnum s 0x4000 0x02, dnum s 0x4000 0x13]
  let boot : Boot := { Boot.reset with
    inReset := false, warm := true, warmDict := dict,
    warmIds := (List.range 24).foldl (fun m h => mset [] m h (dget s (0x4000 + h) 0x04)) [],
    hoodsKept := (s.hoods.filter fun h => decide (h.2.state = 2)).map fun h => (BitVec.ofNat 16 h.1, h.2),
    adaptersKept := (s.adapters.filter fun a => decide (a.2.state = 2)).map fun a => (BitVec.ofNat 16 a.1, a.2) }
  let t : State := { State.reset with
    pending := s.pending, out := s.out, freeCount := s.freeCount, hbm := s.hbm, hbmTag := s.hbmTag, otp := s.otp, pins := s.pins, boot := boot,
    time := { s.time with enabled := false } }
  let t := (List.range 24).foldl (fun t h => setStack t h { StackRec.reset with st := .selfRefresh, dead := (stackRec s h).dead }) t
  let t := (List.range 3).foldl (fun t p => setPort t p (kept p)) t
  romBoot t (boardEep s)

/-- BRINGUP_WORK_DONE (R559, R561, R576): the running step's work ends, or an accepted restart goes on once no append is in progress. -/
def execBringupWorkDone (obs : BringObs) (s : State) : Answer :=
  if s.boot.restart then guarded s.otp.appending.isEmpty s (warmReset s)
  else match s.boot.running with
    | some (step, tag, arg) => answer (workEnds s obs step tag arg.toNat)
    | none => answer s

/-- LOCK_WAIT_EXPIRY (R560, R574): 5 s without LOCKED. -/
def execLockWaitExpiry (s : State) : Answer := match s.boot.running, s.boot.lockWait with
  | some (5, tag, arg), some t =>
    guarded (decide (t + 80000000000 ≤ now s) && !timeDone s arg.toNat) s
      (if s.boot.auto.isSome then stepDone s 5 tag (some 0) else stepFailed s 5 tag)
  | _, _ => answer s

/-! ## Commands on MB00 (R557 to R560) -/

def bringKnown (code : Nat) : Bool := decide (2 ≤ code ∧ code ≤ 0x0B) || decide (code = 0x0F)

/-- Whether a command is accepted after the last completed step. -/
def bringAccepted (s : State) (code : Nat) : Bool :=
  let l := s.boot.lastStep
  if code = 0x0A then decide (1 ≤ l ∧ l ≤ 8)
  else if code = 0x0B then decide (l = 9) && warmAccepted s
  else decide (l + 1 = code ∨ (code = 4 ∧ l = 4))

/-- Whether an argument is bad: a reserved bit, or a unit without a valid stage or a board entry. -/
def bringBadArg (s : State) (code arg : Nat) : Bool :=
  if code = 4 then decide (2 ^ 24 ≤ arg) || (List.range 24).any fun z => arg.testBit z && !(zoneRec s z).stageValid
  else if code = 5 then decide (2 ≤ arg)
  else if code = 8 then decide (2 ^ 18 ≤ arg) || (List.range 18).any fun i => arg.testBit i && decide (linkMedia s (i + 2) = 0)
  else decide (arg ≠ 0)

/-- A word taken from MB00 with room for its answer. -/
def bringRun (s : State) (w : Nat) : State :=
  let code := w % 256
  let tag := BitVec.ofNat 8 (w / 256)
  let arg := w / 65536
  if !bringKnown code then bringAnswer s code tag 6 0
  else if code = 0x0F then
    if arg ≠ 0 then bringAnswer s code tag 4 0
    else bringAnswer s code tag 0 (match s.boot.running with
      | some (step, _, _) => step
      | none => 0xFF)
  else if s.boot.running.isSome ∨ s.boot.auto.isSome then bringAnswer s code tag 3 0
  else if !bringAccepted s code then bringAnswer s code tag 2 0
  else if bringBadArg s code arg then bringAnswer s code tag 4 0
  else if code = 0x0A then
    stepBegin { s with boot := { s.boot with auto := some tag, autoReduced := none } } (s.boot.lastStep + 1) tag 0
  else if code = 0x0B then bringAnswer { s with boot := { s.boot with restart := true } } code tag 0 0
  else stepBegin s code tag arg

/-- The Crown takes the word of MB00, where it is this command or no command of the table; with 16 answers held the word is discarded. -/
def bringCommand (code : Nat) (s : State) : Answer :=
  let w := reg64 s (mbReg 0 0)
  guarded (s.boot.firmware && mbFull s 0 && (decide (w % 256 = code) || !bringKnown (w % 256))) s
    (let s := mbEmpty s 0
     if 16 ≤ s.boot.answers.length then s else bringRun s w)

/-- READ_IDENTITY (R558, R561). -/
def execReadIdentity (s : State) : Answer := bringCommand 0x02 s
/-- TRAIN_HBM (R558, R561). -/
def execTrainHbm (s : State) : Answer := bringCommand 0x03 s
/-- POWER_CLUSTERS (R558, R561). -/
def execPowerClusters (s : State) : Answer := bringCommand 0x04 s
/-- LOCK_TIME (R558, R561). -/
def execLockTime (s : State) : Answer := bringCommand 0x05 s
/-- QUICK_POUNCE (R541, R558). -/
def execQuickPounce (s : State) : Answer := bringCommand 0x06 s
/-- LOAD_TABLES (R558, R571). -/
def execLoadTables (s : State) : Answer := bringCommand 0x07 s
/-- TRAIN_LINKS (R558, R561). -/
def execTrainLinks (s : State) : Answer := bringCommand 0x08 s
/-- ENTER_SERVICE (R558, R561). -/
def execEnterService (s : State) : Answer := bringCommand 0x09 s
/-- AUTO (R558, R574). -/
def execAuto (s : State) : Answer := bringCommand 0x0A s
/-- WARM_RESTART (R558, R576). -/
def execWarmRestart (s : State) : Answer := bringCommand 0x0B s
/-- STATUS (R558, R559). -/
def execStatus (s : State) : Answer := bringCommand 0x0F s

/-! ## JTAG (R597) -/

/-- JTAG_INSTRUCTION: withheld while the scope is locked, but for BYPASS, IDCODE and EXTEST. -/
def execJtagInstruction (name : List Byte) (s : State) : Answer :=
  let open_ : List (List Byte) := [[0x42, 0x59, 0x50, 0x41, 0x53, 0x53], [0x49, 0x44, 0x43, 0x4F, 0x44, 0x45], [0x45, 0x58, 0x54, 0x45, 0x53, 0x54]]
  answer { s with pins := { s.pins with jtag := name, jtagRun := s.sec.debugScope.toNat.testBit 2 || open_.contains name } }

end Sys2Proof.Machine
end

