-- ==== Sys2Proof/Machine/Dispatch.lean ====
section
/-! DEFINITION. One arm for each command: a direct call of its meaning, or a rejection by name. -/
namespace Sys2Proof.Machine
open Sys2Proof

def exec (i : Instr) (s : State) : Host.Outcome State Fault Refusal :=
  match i with
  | .add site core rd ra rb => Sys2Proof.Machine.execAdd site core rd ra rb s
  | .sub site core rd ra rb => Sys2Proof.Machine.execSub site core rd ra rb s
  | .and site core rd ra rb => Sys2Proof.Machine.execAnd site core rd ra rb s
  | .or site core rd ra rb => Sys2Proof.Machine.execOr site core rd ra rb s
  | .xor site core rd ra rb => Sys2Proof.Machine.execXor site core rd ra rb s
  | .sll site core rd ra rb => Sys2Proof.Machine.execSll site core rd ra rb s
  | .srl site core rd ra rb => Sys2Proof.Machine.execSrl site core rd ra rb s
  | .sra site core rd ra rb => Sys2Proof.Machine.execSra site core rd ra rb s
  | .slt site core rd ra rb => Sys2Proof.Machine.execSlt site core rd ra rb s
  | .sltu site core rd ra rb => Sys2Proof.Machine.execSltu site core rd ra rb s
  | .min site core rd ra rb => Sys2Proof.Machine.execMin site core rd ra rb s
  | .max site core rd ra rb => Sys2Proof.Machine.execMax site core rd ra rb s
  | .mul site core rd ra rb => Sys2Proof.Machine.execMul site core rd ra rb s
  | .mulhu site core rd ra rb => Sys2Proof.Machine.execMulhu site core rd ra rb s
  | .div site core rd ra rb => Sys2Proof.Machine.execDiv site core rd ra rb s
  | .divu site core rd ra rb => Sys2Proof.Machine.execDivu site core rd ra rb s
  | .rem site core rd ra rb => Sys2Proof.Machine.execRem site core rd ra rb s
  | .remu site core rd ra rb => Sys2Proof.Machine.execRemu site core rd ra rb s
  | .addi site core rd ra imm => Sys2Proof.Machine.execAddi site core rd ra imm s
  | .andi site core rd ra imm => Sys2Proof.Machine.execAndi site core rd ra imm s
  | .ori site core rd ra imm => Sys2Proof.Machine.execOri site core rd ra imm s
  | .xori site core rd ra imm => Sys2Proof.Machine.execXori site core rd ra imm s
  | .slli site core rd ra imm => Sys2Proof.Machine.execSlli site core rd ra imm s
  | .srli site core rd ra imm => Sys2Proof.Machine.execSrli site core rd ra imm s
  | .srai site core rd ra imm => Sys2Proof.Machine.execSrai site core rd ra imm s
  | .slti site core rd ra imm => Sys2Proof.Machine.execSlti site core rd ra imm s
  | .lui site core rd imm => Sys2Proof.Machine.execLui site core rd imm s
  | .lhi site core rd imm => Sys2Proof.Machine.execLhi site core rd imm s
  | .beq site core ra rb off => Sys2Proof.Machine.execBeq site core ra rb off s
  | .bne site core ra rb off => Sys2Proof.Machine.execBne site core ra rb off s
  | .blt site core ra rb off => Sys2Proof.Machine.execBlt site core ra rb off s
  | .bge site core ra rb off => Sys2Proof.Machine.execBge site core ra rb off s
  | .bltu site core ra rb off => Sys2Proof.Machine.execBltu site core ra rb off s
  | .bgeu site core ra rb off => Sys2Proof.Machine.execBgeu site core ra rb off s
  | .j site core off => Sys2Proof.Machine.execJ site core off s
  | .jal site core off => Sys2Proof.Machine.execJal site core off s
  | .jr site core rd ra imm => Sys2Proof.Machine.execJr site core rd ra imm s
  | .lb site core rd ra imm => Sys2Proof.Machine.execLb site core rd ra imm s
  | .lh site core rd ra imm => Sys2Proof.Machine.execLh site core rd ra imm s
  | .lw site core rd ra imm => Sys2Proof.Machine.execLw site core rd ra imm s
  | .ld site core rd ra imm => Sys2Proof.Machine.execLd site core rd ra imm s
  | .lbu site core rd ra imm => Sys2Proof.Machine.execLbu site core rd ra imm s
  | .lhu site core rd ra imm => Sys2Proof.Machine.execLhu site core rd ra imm s
  | .lwu site core rd ra imm => Sys2Proof.Machine.execLwu site core rd ra imm s
  | .sb site core rd ra imm => Sys2Proof.Machine.execSb site core rd ra imm s
  | .sh site core rd ra imm => Sys2Proof.Machine.execSh site core rd ra imm s
  | .sw site core rd ra imm => Sys2Proof.Machine.execSw site core rd ra imm s
  | .sd site core rd ra imm => Sys2Proof.Machine.execSd site core rd ra imm s
  | .lld site core ra imm events => Sys2Proof.Machine.execLld site core ra imm events s
  | .lldComplete site core row => Sys2Proof.Machine.execLldComplete site core row s
  | .lst site core ra imm events => Sys2Proof.Machine.execLst site core ra imm events s
  | .qpush site core rd ra rb => Sys2Proof.Machine.execQpush site core rd ra rb s
  | .qtry site core rd ra rb => Sys2Proof.Machine.execQtry site core rd ra rb s
  | .semsig site core ra imm => Sys2Proof.Machine.execSemsig site core ra imm s
  | .semwait site core ra imm => Sys2Proof.Machine.execSemwait site core ra imm s
  | .semrd site core rd imm => Sys2Proof.Machine.execSemrd site core rd imm s
  | .crr site core rd imm => Sys2Proof.Machine.execCrr site core rd imm s
  | .crw site core rd imm => Sys2Proof.Machine.execCrw site core rd imm s
  | .fence site core imm => Sys2Proof.Machine.execFence site core imm s
  | .fenceComplete site agent => Sys2Proof.Machine.execFenceComplete site agent s
  | .trap site core => Sys2Proof.Machine.execTrap site core s
  | .eret site core => Sys2Proof.Machine.execEret site core s
  | .halt site core => Sys2Proof.Machine.execHalt site core s
  | .wfe site core => Sys2Proof.Machine.execWfe site core s
  | .wfeWake site core => Sys2Proof.Machine.execWfeWake site core s
  | .loadWarningRenewal site => Sys2Proof.Machine.execLoadWarningRenewal site s
  | .gangDeliver field region => Sys2Proof.Machine.execGangDeliver field region s
  | .mma site => Sys2Proof.Machine.execMma site s
  | .arrayStart site => Sys2Proof.Machine.execArrayStart site s
  | .streamedWeightArrival a => Sys2Proof.Machine.execStreamedWeightArrival a s
  | .passVerdict site faults freezes events => Sys2Proof.Machine.execPassVerdict site faults freezes events s
  | .vecCvt site events => Sys2Proof.Machine.execVecCvt site events s
  | .vecAdd site events => Sys2Proof.Machine.execVecAdd site events s
  | .vecSub site events => Sys2Proof.Machine.execVecSub site events s
  | .vecMul site events => Sys2Proof.Machine.execVecMul site events s
  | .vecFma site events => Sys2Proof.Machine.execVecFma site events s
  | .vecMax site events => Sys2Proof.Machine.execVecMax site events s
  | .vecMin site events => Sys2Proof.Machine.execVecMin site events s
  | .vecAbs site events => Sys2Proof.Machine.execVecAbs site events s
  | .vecNeg site events => Sys2Proof.Machine.execVecNeg site events s
  | .vecRsum site events => Sys2Proof.Machine.execVecRsum site events s
  | .vecRmax site events => Sys2Proof.Machine.execVecRmax site events s
  | .vecRsum64 site events => Sys2Proof.Machine.execVecRsum64 site events s
  | .vecRmax64 site events => Sys2Proof.Machine.execVecRmax64 site events s
  | .sfuExp site events => Sys2Proof.Machine.execSfuExp site events s
  | .sfuLog site events => Sys2Proof.Machine.execSfuLog site events s
  | .sfuRcp site events => Sys2Proof.Machine.execSfuRcp site events s
  | .sfuRsq site events => Sys2Proof.Machine.execSfuRsq site events s
  | .sfuSin site events => Sys2Proof.Machine.execSfuSin site events s
  | .sfuCos site events => Sys2Proof.Machine.execSfuCos site events s
  | .sfuErf site events => Sys2Proof.Machine.execSfuErf site events s
  | .moveCopy site events => Sys2Proof.Machine.execMoveCopy site events s
  | .moveGet site => Sys2Proof.Machine.execMoveGet site s
  | .movePut site events => Sys2Proof.Machine.execMovePut site events s
  | .moveMcast site events => Sys2Proof.Machine.execMoveMcast site events s
  | .moveImem site events => Sys2Proof.Machine.execMoveImem site events s
  | .moveZero a => Sys2Proof.Machine.execMoveZero a s
  | .remoteRowArrival packet events => Sys2Proof.Machine.execRemoteRowArrival packet events s
  | .rowAcknowledge a => Sys2Proof.Machine.execRowAcknowledge a s
  | .mcastBranchAbandon site seq branch => Sys2Proof.Machine.execMcastBranchAbandon site seq branch s
  | .mcastComplete site seq => Sys2Proof.Machine.execMcastComplete site seq s
  | .syncSignal site => Sys2Proof.Machine.execSyncSignal site s
  | .syncWait site => Sys2Proof.Machine.execSyncWait site s
  | .syncWatch site => Sys2Proof.Machine.execSyncWatch site s
  | .syncArrive site => Sys2Proof.Machine.execSyncArrive site s
  | .syncFence site => Sys2Proof.Machine.execSyncFence site s
  | .syncUntil site => Sys2Proof.Machine.execSyncUntil site s
  | .untilExpire site => Sys2Proof.Machine.execUntilExpire site s
  | .ctrlNop site => Sys2Proof.Machine.execCtrlNop site s
  | .keyload site events => Sys2Proof.Machine.execKeyload site events s
  | .setbase site => Sys2Proof.Machine.execSetbase site s
  | .prewarn site => Sys2Proof.Machine.execPrewarn site s
  | .commandRetire site queue seq => Sys2Proof.Machine.execCommandRetire site queue seq s
  | .remoteSignalArrival packet => Sys2Proof.Machine.execRemoteSignalArrival packet s
  | .barrierArrival packet => Sys2Proof.Machine.execBarrierArrival packet s
  | .barrierDeadlineArm group => Sys2Proof.Machine.execBarrierDeadlineArm group s
  | .releaseNotice src dst => Sys2Proof.Machine.execReleaseNotice src dst s
  | .barrierReleaseSlot site group => Sys2Proof.Machine.execBarrierReleaseSlot site group s
  | .barrierSlot31Pass group => Sys2Proof.Machine.execBarrierSlot31Pass group s
  | .bgDeadlineWrite master group value => Sys2Proof.Machine.execBgDeadlineWrite master group value s
  | .bgEnClear master group value => Sys2Proof.Machine.execBgEnClear master group value s
  | .bankPowerRequest master site value => Sys2Proof.Machine.execBankPowerRequest master site value s
  | .bankWakeDone site bank => Sys2Proof.Machine.execBankWakeDone site bank s
  | .bankFillDone site bank => Sys2Proof.Machine.execBankFillDone site bank s
  | .eccWriteback site bank => Sys2Proof.Machine.execEccWriteback site bank s
  | .spRowRemapInstall site row => Sys2Proof.Machine.execSpRowRemapInstall site row s
  | .flitCrcError link => Sys2Proof.Machine.execFlitCrcError link s
  | .meshLinkDown site port => Sys2Proof.Machine.execMeshLinkDown site port s
  | .tileReleaseSlot site => Sys2Proof.Machine.execTileReleaseSlot site s
  | .hbmAccess packet found => Sys2Proof.Machine.execHbmAccess packet found s
  | .patrolRead stack found => Sys2Proof.Machine.execPatrolRead stack found s
  | .hbmRefresh b celsius waitCycles => Sys2Proof.Machine.execHbmRefresh b celsius waitCycles s
  | .hbmZeroingDone part => Sys2Proof.Machine.execHbmZeroingDone part s
  | .hbmRetrain stack lanesRepaired cause => Sys2Proof.Machine.execHbmRetrain stack lanesRepaired cause s
  | .hoodLoadRequest f value => Sys2Proof.Machine.execHoodLoadRequest f value s
  | .hoodImageFetched id image => Sys2Proof.Machine.execHoodImageFetched id image s
  | .hoodUnload f value => Sys2Proof.Machine.execHoodUnload f value s
  | .adapterLoadRequest f value => Sys2Proof.Machine.execAdapterLoadRequest f value s
  | .adapterUnload f value => Sys2Proof.Machine.execAdapterUnload f value s
  | .configure f region => Sys2Proof.Machine.execConfigure f region s
  | .stage f region => Sys2Proof.Machine.execStage f region s
  | .stagingComplete region slot => Sys2Proof.Machine.execStagingComplete region slot s
  | .serve f region => Sys2Proof.Machine.execServe f region s
  | .drain f region => Sys2Proof.Machine.execDrain f region s
  | .drainComplete region => Sys2Proof.Machine.execDrainComplete region s
  | .kill f region => Sys2Proof.Machine.execKill f region s
  | .scrubDone region => Sys2Proof.Machine.execScrubDone region s
  | .release f region => Sys2Proof.Machine.execRelease f region s
  | .submit f order => Sys2Proof.Machine.execSubmit f order s
  | .contextLanded tag tokens => Sys2Proof.Machine.execContextLanded tag tokens s
  | .adapterCopied tag field => Sys2Proof.Machine.execAdapterCopied tag field s
  | .cancel f target => Sys2Proof.Machine.execCancel f target s
  | .batchClose region => Sys2Proof.Machine.execBatchClose region s
  | .stepRelease region => Sys2Proof.Machine.execStepRelease region s
  | .stepEnd region outs => Sys2Proof.Machine.execStepEnd region outs s
  | .recoveryStep region => Sys2Proof.Machine.execRecoveryStep region s
  | .stepLimitExpiry region => Sys2Proof.Machine.execStepLimitExpiry region s
  | .resultWrite ring => Sys2Proof.Machine.execResultWrite ring s
  | .consumerCountRead ring count => Sys2Proof.Machine.execConsumerCountRead ring count s
  | .profileRequest f value => Sys2Proof.Machine.execProfileRequest f value s
  | .surplusAssignment f value => Sys2Proof.Machine.execSurplusAssignment f value s
  | .generatorInput f value => Sys2Proof.Machine.execGeneratorInput f value s
  | .hostAcknowledged f value => Sys2Proof.Machine.execHostAcknowledged f value s
  | .hostStreamWrite => Sys2Proof.Machine.execHostStreamWrite s
  | .epochOpen => Sys2Proof.Machine.execEpochOpen s
  | .journalCompaction => Sys2Proof.Machine.execJournalCompaction s
  | .replayRequest f value buffer => Sys2Proof.Machine.execReplayRequest f value buffer s
  | .replayStep outs => Sys2Proof.Machine.execReplayStep outs s
  | .timePacketSend => Sys2Proof.Machine.execTimePacketSend s
  | .timePacketReceive unit carried correction => Sys2Proof.Machine.execTimePacketReceive unit carried correction s
  | .timePacketMissed unit => Sys2Proof.Machine.execTimePacketMissed unit s
  | .ptpSync port offset valid interval => Sys2Proof.Machine.execPtpSync port offset valid interval s
  | .ppsEdge offsetDtu => Sys2Proof.Machine.execPpsEdge offsetDtu s
  | .ppsSeconds f value => Sys2Proof.Machine.execPpsSeconds f value s
  | .referenceLoss b => Sys2Proof.Machine.execReferenceLoss b s
  | .referencePresent b => Sys2Proof.Machine.execReferencePresent b s
  | .disciplineLoss => Sys2Proof.Machine.execDisciplineLoss s
  | .holdoverExpiry => Sys2Proof.Machine.execHoldoverExpiry s
  | .pointRequest f value => Sys2Proof.Machine.execPointRequest f value s
  | .voltageRaiseStart => Sys2Proof.Machine.execVoltageRaiseStart s
  | .frequencyChange lagging => Sys2Proof.Machine.execFrequencyChange lagging s
  | .freqLagConfirm cluster => Sys2Proof.Machine.execFreqLagConfirm cluster s
  | .droopDetect site milliVolts => Sys2Proof.Machine.execDroopDetect site milliVolts s
  | .phaseDisable cluster phase cause => Sys2Proof.Machine.execPhaseDisable cluster phase cause s
  | .derateCapApply cluster => Sys2Proof.Machine.execDerateCapApply cluster s
  | .regulatorTrip cluster => Sys2Proof.Machine.execRegulatorTrip cluster s
  | .zoneFuseOpen zone cause => Sys2Proof.Machine.execZoneFuseOpen zone cause s
  | .pathResistanceCheck zone stageMicroVolts dieMicroVolts milliAmps => Sys2Proof.Machine.execPathResistanceCheck zone stageMicroVolts dieMicroVolts milliAmps s
  | .powerRequest f zone value => Sys2Proof.Machine.execPowerRequest f zone value s
  | .powerUpAttempt cluster => Sys2Proof.Machine.execPowerUpAttempt cluster s
  | .softStartDone cluster => Sys2Proof.Machine.execSoftStartDone cluster s
  | .powerDownDone cluster => Sys2Proof.Machine.execPowerDownDone cluster s
  | .loadBoostEnd cluster => Sys2Proof.Machine.execLoadBoostEnd cluster s
  | .releaseBoostStart cluster => Sys2Proof.Machine.execReleaseBoostStart cluster s
  | .releaseBoostEnd cluster => Sys2Proof.Machine.execReleaseBoostEnd cluster s
  | .powerEstimate zonesMilliWatts fixedMilliWatts => Sys2Proof.Machine.execPowerEstimate zonesMilliWatts fixedMilliWatts s
  | .zoneGainUpdate zone measuredMilliWatts estimateMilliWatts => Sys2Proof.Machine.execZoneGainUpdate zone measuredMilliWatts estimateMilliWatts s
  | .deviceOffsetUpdate measuredMilliWatts estimateMilliWatts => Sys2Proof.Machine.execDeviceOffsetUpdate measuredMilliWatts estimateMilliWatts s
  | .capEpoch => Sys2Proof.Machine.execCapEpoch s
  | .thermalReading cluster celsius => Sys2Proof.Machine.execThermalReading cluster celsius s
  | .fastCapDrop cluster => Sys2Proof.Machine.execFastCapDrop cluster s
  | .zoneCurrentCheck zone milliAmps => Sys2Proof.Machine.execZoneCurrentCheck zone milliAmps s
  | .marginTrim cluster halfMilliVolts => Sys2Proof.Machine.execMarginTrim cluster halfMilliVolts s
  | .groupEnable f value => Sys2Proof.Machine.execGroupEnable f value s
  | .groupEpoch ownSlack => Sys2Proof.Machine.execGroupEpoch ownSlack s
  | .slack report => Sys2Proof.Machine.execSlack report s
  | .shareCompute => Sys2Proof.Machine.execShareCompute s
  | .portDown port => Sys2Proof.Machine.execPortDown port s
  | .portRestore port => Sys2Proof.Machine.execPortRestore port s
  | .portEnable f port value => Sys2Proof.Machine.execPortEnable f port value s
  | .odpFrameReject port mac ip udp raw => Sys2Proof.Machine.execOdpFrameReject port mac ip udp raw s
  | .sessionOpen f req => Sys2Proof.Machine.execSessionOpen f req s
  | .sessionClose f => Sys2Proof.Machine.execSessionClose f s
  | .abort f => Sys2Proof.Machine.execAbort f s
  | .keepaliveExpiry session => Sys2Proof.Machine.execKeepaliveExpiry session s
  | .ping f data => Sys2Proof.Machine.execPing f data s
  | .read a idx sub => Sys2Proof.Machine.execRead a idx sub s
  | .write a idx sub value => Sys2Proof.Machine.execWrite a idx sub value s
  | .readGroup a items => Sys2Proof.Machine.execReadGroup a items s
  | .writeGroup a items => Sys2Proof.Machine.execWriteGroup a items s
  | .blockRead a idx sub offset len => Sys2Proof.Machine.execBlockRead a idx sub offset len s
  | .blockWrite a seg => Sys2Proof.Machine.execBlockWrite a seg s
  | .blockWriteTimeout session => Sys2Proof.Machine.execBlockWriteTimeout session s
  | .snapshotExpiry session => Sys2Proof.Machine.execSnapshotExpiry session s
  | .subscribe f mask watches => Sys2Proof.Machine.execSubscribe f mask watches s
  | .eventSend session cls code data => Sys2Proof.Machine.execEventSend session cls code data s
  | .eventResend session seq => Sys2Proof.Machine.execEventResend session seq s
  | .eventResponse f => Sys2Proof.Machine.execEventResponse f s
  | .complete f tag rel offset len => Sys2Proof.Machine.execComplete f tag rel offset len s
  | .doorbell session word entries => Sys2Proof.Machine.execDoorbell session word entries s
  | .inboundSend qp data => Sys2Proof.Machine.execInboundSend qp data s
  | .rdmaRetryTimeout qp => Sys2Proof.Machine.execRdmaRetryTimeout qp s
  | .rdmaErrorNak qp => Sys2Proof.Machine.execRdmaErrorNak qp s
  | .protocolLogClear f value => Sys2Proof.Machine.execProtocolLogClear f value s
  | .windowAccessRead a => Sys2Proof.Machine.execWindowAccessRead a s
  | .windowAccessWrite f value => Sys2Proof.Machine.execWindowAccessWrite f value s
  | .registerWrite master addr value => Sys2Proof.Machine.execRegisterWrite master addr value s
  | .lohiLowRead master addr => Sys2Proof.Machine.execLohiLowRead master addr s
  | .lohiHighWrite master addr value => Sys2Proof.Machine.execLohiHighWrite master addr value s
  | .hubEnSet master cluster value => Sys2Proof.Machine.execHubEnSet master cluster value s
  | .fhEnSet master field value => Sys2Proof.Machine.execFhEnSet master field value s
  | .errorRecordArrival rec => Sys2Proof.Machine.execErrorRecordArrival rec s
  | .errorLogMove => Sys2Proof.Machine.execErrorLogMove s
  | .errorLogClear f value => Sys2Proof.Machine.execErrorLogClear f value s
  | .mbCommit master channel high => Sys2Proof.Machine.execMbCommit master channel high s
  | .mbTake master channel => Sys2Proof.Machine.execMbTake master channel s
  | .mbTimeout channel => Sys2Proof.Machine.execMbTimeout channel s
  | .receiverReset master => Sys2Proof.Machine.execReceiverReset master s
  | .mbLockWrite master value => Sys2Proof.Machine.execMbLockWrite master value s
  | .readIdentity => Sys2Proof.Machine.execReadIdentity s
  | .trainHbm => Sys2Proof.Machine.execTrainHbm s
  | .powerClusters => Sys2Proof.Machine.execPowerClusters s
  | .lockTime => Sys2Proof.Machine.execLockTime s
  | .quickPounce => Sys2Proof.Machine.execQuickPounce s
  | .loadTables => Sys2Proof.Machine.execLoadTables s
  | .trainLinks => Sys2Proof.Machine.execTrainLinks s
  | .enterService => Sys2Proof.Machine.execEnterService s
  | .auto => Sys2Proof.Machine.execAuto s
  | .warmRestart => Sys2Proof.Machine.execWarmRestart s
  | .status => Sys2Proof.Machine.execStatus s
  | .powerGoodReset => Sys2Proof.Machine.execPowerGoodReset s
  | .bringupStart eeprom => Sys2Proof.Machine.execBringupStart eeprom s
  | .firmwareImage f seg => Sys2Proof.Machine.execFirmwareImage f seg s
  | .ownerInstall f value => Sys2Proof.Machine.execOwnerInstall f value s
  | .ownerRevoke f value => Sys2Proof.Machine.execOwnerRevoke f value s
  | .nonceRead f => Sys2Proof.Machine.execNonceRead f s
  | .debugUnlock f value => Sys2Proof.Machine.execDebugUnlock f value s
  | .relock f value => Sys2Proof.Machine.execRelock f value s
  | .attestationNonce f value => Sys2Proof.Machine.execAttestationNonce f value s
  | .attestationReportReady => Sys2Proof.Machine.execAttestationReportReady s
  | .ciphertext f value => Sys2Proof.Machine.execCiphertext f value s
  | .wrappedKey f value => Sys2Proof.Machine.execWrappedKey f value s
  | .keyActivation target slot => Sys2Proof.Machine.execKeyActivation target slot s
  | .previousKeyExpiry link => Sys2Proof.Machine.execPreviousKeyExpiry link s
  | .frameAuthFail link => Sys2Proof.Machine.execFrameAuthFail link s
  | .linkTrainingDone link goodLanes => Sys2Proof.Machine.execLinkTrainingDone link goodLanes s
  | .linkRetrain link => Sys2Proof.Machine.execLinkRetrain link s
  | .fabricCrcError link => Sys2Proof.Machine.execFabricCrcError link s
  | .fabricResendTimeout link => Sys2Proof.Machine.execFabricResendTimeout link s
  | .relayForward port p => Sys2Proof.Machine.execRelayForward port p s
  | .fabricLinkReroute link => Sys2Proof.Machine.execFabricLinkReroute link s
  | .fabricWrite a => Sys2Proof.Machine.execFabricWrite a s
  | .readReq a => Sys2Proof.Machine.execReadReq a s
  | .readResp a => Sys2Proof.Machine.execReadResp a s
  | .fabricAck p => Sys2Proof.Machine.execFabricAck p s
  | .reduce tree port a => Sys2Proof.Machine.execReduce tree port a s
  | .reductionTimeout tree offset generation => Sys2Proof.Machine.execReductionTimeout tree offset generation s
  | .schedule sender id kind instant argument => Sys2Proof.Machine.execSchedule sender id kind instant argument s
  | .scheduleAnswer id code => Sys2Proof.Machine.execScheduleAnswer id code s
  | .probe sender nonce => Sys2Proof.Machine.execProbe sender nonce s
  | .probeAnswer nonce serial => Sys2Proof.Machine.execProbeAnswer nonce serial s
  | .hello h m => Sys2Proof.Machine.execHello h m s
  | .heartbeatSend => Sys2Proof.Machine.execHeartbeatSend s
  | .heartbeat h m => Sys2Proof.Machine.execHeartbeat h m s
  | .heartbeatLoss => Sys2Proof.Machine.execHeartbeatLoss s
  | .probeWindowExpiry => Sys2Proof.Machine.execProbeWindowExpiry s
  | .twinTime h offset => Sys2Proof.Machine.execTwinTime h offset s
  | .journal h records => Sys2Proof.Machine.execJournal h records s
  | .jack h upTo => Sys2Proof.Machine.execJack h upTo s
  | .tokens h region step orders => Sys2Proof.Machine.execTokens h region step orders s
  | .kvPage h region tag page data => Sys2Proof.Machine.execKvPage h region tag page data s
  | .digest h region step digests => Sys2Proof.Machine.execDigest h region step digests s
  | .weightDigest h hood dig devTime => Sys2Proof.Machine.execWeightDigest h hood dig devTime s
  | .weightDigestCheck hood pinnedCorrupt => Sys2Proof.Machine.execWeightDigestCheck hood pinnedCorrupt s
  | .hoodCopy h adapter id offset data last => Sys2Proof.Machine.execHoodCopy h adapter id offset data last s
  | .forward h payload => Sys2Proof.Machine.execForward h payload s
  | .twinSession h m => Sys2Proof.Machine.execTwinSession h m s
  | .reject h code arg => Sys2Proof.Machine.execReject h code arg s
  | .twinModeRequest f value => Sys2Proof.Machine.execTwinModeRequest f value s
  | .twinModeEffect => Sys2Proof.Machine.execTwinModeEffect s
  | .regionProtected region => Sys2Proof.Machine.execRegionProtected region s
  | .homesWrite f value => Sys2Proof.Machine.execHomesWrite f value s
  | .pounceRequest f value => Sys2Proof.Machine.execPounceRequest f value s
  | .pounceTestStart id => Sys2Proof.Machine.execPounceTestStart id s
  | .pounceTestEnd id outcome => Sys2Proof.Machine.execPounceTestEnd id outcome s
  | .maintenanceStart id => Sys2Proof.Machine.execMaintenanceStart id s
  | .maintenanceWindowOpen => Sys2Proof.Machine.execMaintenanceWindowOpen s
  | .otpAppendDone => Sys2Proof.Machine.execOtpAppendDone s
  | .railExcursion => Sys2Proof.Machine.execRailExcursion s
  | .zoneInputFault zone cause => Sys2Proof.Machine.execZoneInputFault zone cause s
  | .thermalTrip stack unit celsius => Sys2Proof.Machine.execThermalTrip stack unit celsius s
  | .illegalInstruction site core word => Sys2Proof.Machine.execIllegalInstruction site core word s
  | .adapterImageFetched id image => Sys2Proof.Machine.execAdapterImageFetched id image s
  | .hostPortUp port => Sys2Proof.Machine.execHostPortUp port s
  | .moduleInserted reading => Sys2Proof.Machine.execModuleInserted reading s
  | .scheduledInstant id => Sys2Proof.Machine.execScheduledInstant id s
  | .connectionRequest qp session token => Sys2Proof.Machine.execConnectionRequest qp session token s
  | .announce port m best => Sys2Proof.Machine.execAnnounce port m best s
  | .announceReceiptTimeout port => Sys2Proof.Machine.execAnnounceReceiptTimeout port s
  | .delayResp pathDelay => Sys2Proof.Machine.execDelayResp pathDelay s
  | .pfcPauseFrame port priorities => Sys2Proof.Machine.execPfcPauseFrame port priorities s
  | .bringupWorkDone obs => Sys2Proof.Machine.execBringupWorkDone obs s
  | .lockWaitExpiry => Sys2Proof.Machine.execLockWaitExpiry s
  | .jtagInstruction name => Sys2Proof.Machine.execJtagInstruction name s

end Sys2Proof.Machine
end

