-- ==== Sys2Proof/Machine/Tick.lean ====
section
/-! DEFINITION. One tick of the base clock, which is what an empty queue lets pass: device time advances, and what waits for nothing else goes on (R337, R345, R542, R574; log entry 1). -/
namespace Sys2Proof.Machine
open Sys2Proof

/-- Device time after one tick of 8 DTU, steered by the rate in 0.001 ppm (R339, R345). -/
def tickTime (t : TimeRec) : TimeRec :=
  let total : Int := 8000000000 + 8 * t.rate + t.rateAcc
  { t with ticks := t.ticks + 1, now := t.now + (total / 1000000000).toNat, rateAcc := (total % 1000000000).toNat }

/-- Whether a multiple of a period lies after `a` and not after `b`. -/
def tickPasses (a b period : Nat) : Bool := decide (0 < period ∧ a / period < b / period)

/-- The patrol of every stack in service that has no instance queued or running enters the queue (R259, R542). -/
def patrolEnters (s : State) : State :=
  if dnum s 0x4000 0x14 = 0 then s
  else (List.range 24).foldl (fun s h =>
    if stackServes s h && decide (s.maint.length < 256) && !s.maint.any fun m => decide (m.activity = 1 ∧ m.scope = h) then queueMaint s 1 h 0 0 false 0 else s) s

/-- Periodic maintenance enters the queue, and compaction on its trigger (R328, R542, R544). -/
def periodic (s : State) (before : Nat) : State :=
  let allowed (k : Nat) : Bool := (dnum s 0x5200 0x05).testBit (k - 1)
  let s := if allowed 1 then patrolEnters s else s
  let s := if allowed 3 && tickPasses before (now s) 57600000000000 then
      ((List.range 192).filter (clusterOn s)).foldl (fun s c => queueMaint s 3 c 0 0 false 0) s
    else s
  let s := if allowed 4 && tickPasses before (now s) (dnum s 0x4800 0x09) then
      ((s.hoods.filter fun h => decide (h.2.state = 2)).map (·.1)).foldl (fun s id => queueMaint s 4 id 0 0 false 0) s
    else s
  if s.journal.started && decide (jCap s - jUsed s < jCap s / 8) && !s.maint.any (fun m => decide (m.activity = 5)) then queueMaint s 5 0 0 0 false 0 else s

/-- A journal that lost its ring takes a new one as soon as there is room (R264). -/
def settleRing (s : State) : State :=
  if s.journal.started && s.journal.lost && (ringFree s).isSome then newRing s else s

/-- One tick. -/
def tick (s : State) : State :=
  let before := now s
  let s : State := { s with time := tickTime s.time }
  settlePins (settleHeld (settleDigests (settleDeferred (settleRing (nextWave (periodic s before))))))

end Sys2Proof.Machine
end

