-- ==== Sys2Proof/Safety.lean ====
section
/-! DEFINITION. What a safe state and a safe run are, and the terms that the claims use: the canonical form of stored memory, the pin that follows the error block, a packet that leaves by a port, and a request frame that comes in order. -/
namespace Sys2Proof.Machine
open Sys2Proof

/-- The canonical form of a memory (R142, R173, R198): addresses strictly rising, and no byte listed that an unlisted address reads as. -/
def Memory.wf (m : List (Nat × Byte)) : Bool := mwf (0 : Byte) m

/-- Every memory of the machine is in its canonical form: scratchpads, instruction memories, field memories and HBM. -/
def State.memoriesWf (s : State) : Bool := Memory.wf s.spad && Memory.wf s.imem && Memory.wf s.fmem && Memory.wf s.hbm

/-- `ALERT_N` is driven exactly while a received class passes the mask of an enabled error block (R481). -/
def State.alertFollows (s : State) : Bool := decide (s.pins.alert = alertDue s)

/-- A run of the block: commands taken from the queue one after another, for at most `n` steps. -/
def run : Nat → State → Host.Outcome State Fault Refusal
  | 0, s => .next s
  | n + 1, s => match step s with
    | .next t => run n t
    | o => o

/-- A run is safe when it neither faults nor refuses. -/
def safeRun (n : Nat) (s : State) : Prop := ∃ t, run n s = .next t

/-- A packet with the link's own fields has left by a port, or waits at it. -/
def Leaves (s t : State) (j : Nat) (p : FabPacket) : Prop :=
  (∃ a b, Output.fabric j { p with linkSeq := a, linkAck := b } ∈ t.out.drop s.out.length) ∨ p ∈ (linkOf t j).queue

/-- A request frame that comes in order to an open session with nothing waiting: its port is up, its UDP port is accepted, it is not for the pair address, its source is the session's, the session has frames left in its bucket, its acknowledge is the low edge, and its sequence is the next one and in the window (R406, R408, R412, R452). -/
def FrameReady (f : Frame) (s : State) (x : Session) : Prop :=
  (portUp s (portNo f.port) = true ∧ udpOpen s f.dport = true) ∧ f.toPair = false ∧ (1 ≤ f.session.toNat ∧ f.session.toNat ≤ 16) ∧ sessionOf s f.session.toNat = some x ∧
  (x.ip ≠ 0 ∨ x.udp ≠ 0) ∧ sourceOk x f = true ∧ 0 < x.bucket ∧ x.held = [] ∧ x.started = [] ∧ x.pair = false ∧ s.deferred = [] ∧
  f.ack = x.low ∧ seqAfter x.answered f.ack = false ∧ f.seq = x.received + 1 ∧
  1 ≤ (f.seq - x.low).toNat ∧ (f.seq - x.low).toNat ≤ 256 ∧ (x.cache.any fun e => decide (e.1 = f.seq)) = false

/-- The session of such a frame once its request has started: the frame is counted in the bucket and the keepalive, what it acknowledges leaves the cache, and its sequence is received. -/
def startedSession (f : Frame) (s : State) (x : Session) : Session :=
  { x with bucket := min 4096 (x.bucket + (now s - x.bucketAt) / 8000) - 1,
           bucketAt := if 4096 ≤ x.bucket + (now s - x.bucketAt) / 8000 then now s else x.bucketAt + (now s - x.bucketAt) / 8000 * 8000,
           lastFrame := now s, cache := x.cache.filter (fun e => seqAfter x.low e.1), received := f.seq, held := [],
           started := [(f.seq, f.port)] }

/-- The state in which such a request is performed: its port has counted the frame and its session holds it as started. -/
def arrived (f : Frame) (s : State) (x : Session) : State :=
  setSession (dcount s (0x1100 + portNo f.port) 0x0E 8 1) f.session.toNat (startedSession f s x)

/-- Who asks in such a frame. -/
def frameCaller (f : Frame) (x : Session) : Caller := { session := f.session.toNat, role := x.role, ip := f.ip, port := f.port }

end Sys2Proof.Machine
end

