-- ==== Sys2Proof/Certificates/Slice0/Obligations.lean ====
section
/-! DEFINITION. The statements about the block for the provers: completion and results of every command, frames, invariants and the rules of the spec. -/
section
open Sys2Proof Sys2Proof.Machine

namespace Sys2Proof.Machine

/-! ### What the statements share -/

/-- The command answers the state `t`. -/
abbrev Answers (c : Instr) (s t : State) : Prop := exec c s = .next t

/-- A core runs in a cluster that is on, and its instruction is not the one at 0xFFFC, the last (R617). -/
abbrev CoreGoes (s : State) (site : Site) (core : CoreId) : Prop :=
  coreReady s site core = true ∧ (coreOf (tileOf s site) core).pc ≠ 0xFFFC

/-- Whether an address may be the target of a control transfer: a multiple of 4 below 64 KiB (R617). -/
abbrev GoodTarget (a : Int) : Prop := 0 ≤ a ∧ a % 4 = 0 ∧ a < 0x10000

/-- Nothing but one core of one tile differs, and `ALERT_N` follows the error block. -/
abbrev OnlyCore (s t : State) (site : Site) (core : CoreId) : Prop :=
  t = settlePins (modCore s site core fun _ => coreOf (tileOf t site) core)

/-- Nothing but the general registers and the program counter of one core differs. -/
abbrev OnlyRegsPc (s t : State) (site : Site) (core : CoreId) : Prop :=
  t = settlePins (modCore s site core fun k =>
    { k with gregs := (coreOf (tileOf t site) core).gregs, pc := (coreOf (tileOf t site) core).pc })

/-- Register rd holds `v`, or is g0 and holds nothing; every other register holds what it held; the core is at the next instruction. -/
abbrev WroteReg (s t : State) (site : Site) (core : CoreId) (rd : Reg) (v : Word64) : Prop :=
  (∀ r : Reg, greg t site core r = if r = rd ∧ r ≠ 0 then v else greg s site core r) ∧
  (coreOf (tileOf t site) core).pc = (coreOf (tileOf s site) core).pc + 4 ∧ OnlyRegsPc s t site core

/-- The register instructions of R102 with the value each gives rd. -/
def registerRows : List ((Site → CoreId → Reg → Reg → Reg → Instr) × (Word64 → Word64 → Word64)) :=
  [(.add, fun x y => x + y), (.sub, fun x y => x - y), (.and, fun x y => x &&& y), (.or, fun x y => x ||| y),
   (.xor, fun x y => x ^^^ y), (.sll, fun x y => x <<< (y.toNat % 64)), (.srl, fun x y => x >>> (y.toNat % 64)),
   (.sra, fun x y => BitVec.ofInt 64 (x.toInt / (2 : Int) ^ (y.toNat % 64))),
   (.slt, fun x y => if x.toInt < y.toInt then 1 else 0), (.sltu, fun x y => if x.toNat < y.toNat then 1 else 0),
   (.min, fun x y => if x.toInt < y.toInt then x else y), (.max, fun x y => if x.toInt < y.toInt then y else x),
   (.mul, fun x y => BitVec.ofNat 64 (x.toNat * y.toNat)), (.mulhu, fun x y => BitVec.ofNat 64 (x.toNat * y.toNat / 2 ^ 64)),
   (.div, fun x y => if y = 0 then BitVec.ofInt 64 (-1) else BitVec.ofInt 64 (x.toInt.tdiv y.toInt)),
   (.divu, fun x y => if y = 0 then BitVec.ofInt 64 (-1) else BitVec.ofNat 64 (x.toNat / y.toNat)),
   (.rem, fun x y => if y = 0 then x else BitVec.ofInt 64 (x.toInt.tmod y.toInt)),
   (.remu, fun x y => if y = 0 then x else BitVec.ofNat 64 (x.toNat % y.toNat))]

/-- The immediate instructions of R102 with the value each gives rd. -/
def immediateRows : List ((Site → CoreId → Reg → Reg → BitVec 16 → Instr) × (Word64 → BitVec 16 → Word64)) :=
  [(.addi, fun x i => x + BitVec.ofInt 64 i.toInt), (.andi, fun x i => x &&& BitVec.ofNat 64 i.toNat),
   (.ori, fun x i => x ||| BitVec.ofNat 64 i.toNat), (.xori, fun x i => x ^^^ BitVec.ofNat 64 i.toNat),
   (.slli, fun x i => x <<< (i.toNat % 64)), (.srli, fun x i => x >>> (i.toNat % 64)),
   (.srai, fun x i => BitVec.ofInt 64 (x.toInt / (2 : Int) ^ (i.toNat % 64))),
   (.slti, fun x i => if x.toInt < i.toInt then 1 else 0)]

/-- The branches of R102 with the comparison each makes. -/
def branchRows : List ((Site → CoreId → Reg → Reg → BitVec 16 → Instr) × (Word64 → Word64 → Prop)) :=
  [(.beq, fun x y => x = y), (.bne, fun x y => x ≠ y), (.blt, fun x y => x.toInt < y.toInt),
   (.bge, fun x y => y.toInt ≤ x.toInt), (.bltu, fun x y => x.toNat < y.toNat), (.bgeu, fun x y => y.toNat ≤ x.toNat)]

end Sys2Proof.Machine

/-- The step law of the block: the command at the front of the queue is executed on the state that holds the rest of the queue; an empty queue lets one tick pass (log entry 1). -/
def Obligations.StepRunsTheFrontCommand : Prop :=
  (∀ (c : Instr) (rest : List Instr) (s : State), step { s with pending := c :: rest } = exec c { s with pending := rest }) ∧
  ∀ s : State, s.pending = [] → ∃ t, step s = .next t ∧ t.time.ticks = s.time.ticks + 1

/-- R102: what each register instruction writes, with its frame; division by zero gives all ones and the dividend. -/
def Sys2Proof.Machine.RegisterInstructionsWriteTheirResult : Prop :=
  ∀ row ∈ registerRows, ∀ (site : Site) (core : CoreId) (rd ra rb : Reg) (s : State), CoreGoes s site core →
    ∃ t, Answers (row.1 site core rd ra rb) s t ∧ WroteReg s t site core rd (row.2 (greg s site core ra) (greg s site core rb))

/-- R102: what each immediate instruction, LUI and LHI write, with their frame. -/
def Sys2Proof.Machine.ImmediateInstructionsWriteTheirResult : Prop :=
  (∀ row ∈ immediateRows, ∀ (site : Site) (core : CoreId) (rd ra : Reg) (imm : BitVec 16) (s : State), CoreGoes s site core →
    ∃ t, Answers (row.1 site core rd ra imm) s t ∧ WroteReg s t site core rd (row.2 (greg s site core ra) imm)) ∧
  ∀ (site : Site) (core : CoreId) (rd : Reg) (imm : BitVec 16) (s : State), CoreGoes s site core →
    (∃ t, Answers (.lui site core rd imm) s t ∧ WroteReg s t site core rd (BitVec.ofInt 64 (imm.toInt * 65536))) ∧
    (∃ t, Answers (.lhi site core rd imm) s t ∧
      WroteReg s t site core rd (BitVec.ofNat 64 ((greg s site core rd).toNat % 2 ^ 32 + (BitVec.ofInt 32 imm.toInt).toNat * 2 ^ 32)))

/-- Each register or immediate instruction of the scalar cores writes its result and nothing else: the two statements named here. -/
def Obligations.RegisterAndImmediateInstructionsWriteTheirResult : Prop := Sys2Proof.Machine.RegisterInstructionsWriteTheirResult ∧ Sys2Proof.Machine.ImmediateInstructionsWriteTheirResult

/-- R102 and R617: a branch whose comparison holds goes to its own address plus 4 times the offset, where that is a valid target; one whose comparison fails goes to the next instruction. Nothing else of the core changes. -/
def Sys2Proof.Machine.BranchesGoWhereTheirComparisonSays : Prop :=
  ∀ row ∈ branchRows, ∀ (site : Site) (core : CoreId) (ra rb : Reg) (off : BitVec 16) (s : State), CoreGoes s site core →
    let pc := (coreOf (tileOf s site) core).pc
    let target : Int := pc.toNat + 4 * off.toInt
    (row.2 (greg s site core ra) (greg s site core rb) → GoodTarget target →
      Answers (row.1 site core ra rb off) s (settlePins (modCore s site core fun k => { k with pc := BitVec.ofInt 16 target }))) ∧
    (¬ row.2 (greg s site core ra) (greg s site core rb) →
      Answers (row.1 site core ra rb off) s (settlePins (modCore s site core fun k => { k with pc := pc + 4 })))

/-- R102 and R617: J, JAL and JR reach a valid target; JAL links in g31 and JR in rd; ERET goes to CR_EPC. -/
def Sys2Proof.Machine.JumpsReachTheirTargetAndLink : Prop :=
  ∀ (site : Site) (core : CoreId) (s : State), coreReady s site core = true →
    let pc := (coreOf (tileOf s site) core).pc
    let link : Word64 := BitVec.ofNat 64 (pc.toNat + 4)
    (∀ off : BitVec 26, let target : Int := pc.toNat + 4 * off.toInt
      GoodTarget target →
        Answers (.j site core off) s (settlePins (modCore s site core fun k => { k with pc := BitVec.ofInt 16 target })) ∧
        ∃ t, Answers (.jal site core off) s t ∧ (coreOf (tileOf t site) core).pc = BitVec.ofInt 16 target ∧
          (∀ r : Reg, greg t site core r = if r = 31 then link else greg s site core r) ∧ OnlyRegsPc s t site core) ∧
    (∀ (rd ra : Reg) (imm : BitVec 16), let target : Word64 := greg s site core ra + BitVec.ofInt 64 imm.toInt
      GoodTarget target.toNat →
        ∃ t, Answers (.jr site core rd ra imm) s t ∧ (coreOf (tileOf t site) core).pc = BitVec.ofNat 16 target.toNat ∧
          (∀ r : Reg, greg t site core r = if r = rd ∧ r ≠ 0 then link else greg s site core r) ∧ OnlyRegsPc s t site core) ∧
    let epc := (coreOf (tileOf s site) core).epc
    GoodTarget epc.toNat →
      Answers (.eret site core) s (settlePins (modCore s site core fun k => { k with pc := BitVec.ofNat 16 epc.toNat }))

/-- Branches go to their target exactly when their comparison holds; J, JAL, JR and ERET reach theirs and link: the two statements named here. -/
def Obligations.BranchesAndJumpsReachTheirTargets : Prop := Sys2Proof.Machine.BranchesGoWhereTheirComparisonSays ∧ Sys2Proof.Machine.JumpsReachTheirTargetAndLink

namespace Sys2Proof.Machine

/-- ra plus the sign-extended immediate (R102). -/
abbrev effAddr (s : State) (site : Site) (core : CoreId) (ra : Reg) (imm : BitVec 16) : Nat :=
  (greg s site core ra + BitVec.ofInt 64 imm.toInt).toNat

/-- Bytes `n` from address `a` of a core's latch, lowest first. -/
abbrev latchNat (s : State) (site : Site) (core : CoreId) (a n : Nat) : Nat :=
  leNat (memRead (coreOf (tileOf s site) core).latch a n)

/-- The latch loads with their widths and extensions (R102). -/
def loadRows : List ((Site → CoreId → Reg → Reg → BitVec 16 → Instr) × Nat × (Nat → Word64)) :=
  [(.lb, 1, fun v => BitVec.ofInt 64 (BitVec.ofNat 8 v).toInt), (.lh, 2, fun v => BitVec.ofInt 64 (BitVec.ofNat 16 v).toInt),
   (.lw, 4, fun v => BitVec.ofInt 64 (BitVec.ofNat 32 v).toInt), (.ld, 8, fun v => BitVec.ofNat 64 v),
   (.lbu, 1, fun v => BitVec.ofNat 64 v), (.lhu, 2, fun v => BitVec.ofNat 64 v), (.lwu, 4, fun v => BitVec.ofNat 64 v)]

/-- The latch stores with their widths (R102). -/
def storeRows : List ((Site → CoreId → Reg → Reg → BitVec 16 → Instr) × Nat) :=
  [(.sb, 1), (.sh, 2), (.sw, 4), (.sd, 8)]

/-- The two commands whose own effect is a trap, with their causes (R107). -/
def TrapsWith (site : Site) (core : CoreId) (s : State) (c : Instr) (cause : Nat) : Prop :=
  let k := coreOf (tileOf s site) core
  (k.tvec ≠ 0 → GoodTarget k.tvec.toNat →
    Answers c s (settlePins (modCore s site core fun k =>
      { k with epc := BitVec.ofNat 64 k.pc.toNat, cause := BitVec.ofNat 64 cause, pc := BitVec.ofNat 16 k.tvec.toNat }))) ∧
  (k.tvec = 0 → ∃ t, Answers c s t ∧
    coreOf (tileOf t site) core = { k with epc := BitVec.ofNat 64 k.pc.toNat, cause := BitVec.ofNat 64 cause, status := .trapped } ∧
    (regBit s (errReg 0) 0 = true → s.errBuf.length < 256 →
      ∃ r : ErrRecord, t.errBuf = s.errBuf ++ [r] ∧ r.kind = 0x0103 ∧ r.unit = BitVec.ofNat 16 site.val ∧
        leAt r.body 4 4 = k.pc.toNat ∧ leAt r.body 8 4 = cause))

/-- A queue's entries after one more command was accepted. -/
abbrev Accepted (s t : State) (site : Site) (q : QueueId) (d : BitVec 128) : Prop :=
  (queueOf (tileOf t site) q).entries.map (fun e => (e.seq, e.desc, e.prog)) =
    (queueOf (tileOf s site) q).entries.map (fun e => (e.seq, e.desc, e.prog)) ++ [((queueOf (tileOf s site) q).nextSeq, d, .queued)] ∧
  (queueOf (tileOf t site) q).nextSeq = (queueOf (tileOf s site) q).nextSeq + 1

end Sys2Proof.Machine

/-- R107, R617: TRAP takes a trap with cause 4 and a word that is no instruction one with cause 1: CR_EPC and CR_CAUSE are saved and the core goes on at CR_TVEC; with CR_TVEC zero it halts and a TILE_TRAP record names the tile, the address and the cause. -/
def Obligations.TrapsSaveAndVectorOrHalt : Prop :=
  ∀ (site : Site) (core : CoreId) (s : State), coreReady s site core = true →
    TrapsWith site core s (.trap site core) 4 ∧
    ∀ word : BitVec 32, word.toNat / 2 ^ 26 = 0 ∨ word.toNat / 2 ^ 26 = 63 → TrapsWith site core s (.illegalInstruction site core word) 1

/-- R104, R105: an aligned load from a clean sector of the latch writes rd; from a poisoned sector it writes zero and traps with cause 6; a misaligned or distant one traps with cause 2 and writes nothing. -/
def Sys2Proof.Machine.LatchLoadsReadCleanSectorsOnly : Prop :=
  ∀ row ∈ loadRows, ∀ (site : Site) (core : CoreId) (rd ra : Reg) (imm : BitVec 16) (s : State),
    CoreGoes s site core → (coreOf (tileOf s site) core).lld = none →
    let a := effAddr s site core ra imm
    let k := coreOf (tileOf s site) core
    (a % row.2.1 = 0 → a < 512 → k.latchTags.getLsbD (a / 64) = false →
      ∃ t, Answers (row.1 site core rd ra imm) s t ∧ WroteReg s t site core rd (row.2.2 (latchNat s site core a row.2.1))) ∧
    (k.tvec ≠ 0 → GoodTarget k.tvec.toNat →
      (a % row.2.1 = 0 → a < 512 → k.latchTags.getLsbD (a / 64) = true →
        ∃ t, Answers (row.1 site core rd ra imm) s t ∧ (∀ r, greg t site core r = if r = rd ∧ r ≠ 0 then 0 else greg s site core r) ∧
          (coreOf (tileOf t site) core).cause = 6 ∧ (coreOf (tileOf t site) core).epc = BitVec.ofNat 64 k.pc.toNat ∧
          (coreOf (tileOf t site) core).pc = BitVec.ofNat 16 k.tvec.toNat ∧ OnlyCore s t site core) ∧
      (a % row.2.1 ≠ 0 ∨ 512 ≤ a →
        Answers (row.1 site core rd ra imm) s (settlePins (modCore s site core fun k =>
          { k with epc := BitVec.ofNat 64 k.pc.toNat, cause := 2, pc := BitVec.ofNat 16 k.tvec.toNat }))))

/-- R105: an aligned store puts the low bytes of rd into the latch, lowest first, and changes no other byte, no tag and no register. -/
def Sys2Proof.Machine.LatchStoresPutTheLowBytes : Prop :=
  ∀ row ∈ storeRows, ∀ (site : Site) (core : CoreId) (rd ra : Reg) (imm : BitVec 16) (s : State),
    CoreGoes s site core → (coreOf (tileOf s site) core).lld = none →
    let a := effAddr s site core ra imm
    a % row.2 = 0 → a < 512 →
      ∃ t, Answers (row.1 site core rd ra imm) s t ∧
        (∀ b : Nat, mget 0 (coreOf (tileOf t site) core).latch b =
          if a ≤ b ∧ b < a + row.2 then BitVec.ofNat 8 ((greg s site core rd).toNat / 256 ^ (b - a))
          else mget 0 (coreOf (tileOf s site) core).latch b) ∧
        t = settlePins (modCore s site core fun k => { k with latch := (coreOf (tileOf t site) core).latch, pc := k.pc + 4 })

/-- Latch loads read aligned clean sectors, trapping with 2 or 6 otherwise; latch stores put the low bytes of rd and nothing else: the two statements named here. -/
def Obligations.LatchAccessesAreAlignedAndClean : Prop := Sys2Proof.Machine.LatchLoadsReadCleanSectorsOnly ∧ Sys2Proof.Machine.LatchStoresPutTheLowBytes

/-- R104, R105, R154: an LLD starts the copy of its row, taking the row's bytes and tags from a bank that serves it and nothing from one that is OFF; its completion puts what it took into the latch, or zeros with a trap of cause 7; LST stores the latch's 512 bytes into a served row and leaves every other byte of the scratchpads alone. -/
def Obligations.RowsMoveBetweenLatchAndScratchpad : Prop :=
  ∀ (site : Site) (core : CoreId) (s : State),
    (∀ (ra : Reg) (imm : BitVec 16) (events : List RowEvent), CoreGoes s site core → (coreOf (tileOf s site) core).lld = none →
      let a := effAddr s site core ra imm
      a < 8192 →
        (∃ t l, Answers (.lld site core ra imm events) s t ∧ (coreOf (tileOf t site) core).lld = some l ∧
          l.row = BitVec.ofNat 13 a ∧ l.pc = (coreOf (tileOf s site) core).pc ∧ l.taken.isSome = bankServes s site a (7 + core.val) ∧
          (events = [] → s.spadErr = [] → bankServes s site a (7 + core.val) = true →
            l.taken = some (memRead s.spad (rowKey s site a * 512) 512, rowTags s (rowKey s site a)) ∧ t.spad = s.spad ∧ t.spadTag = s.spadTag) ∧
          (coreOf (tileOf t site) core).pc = (coreOf (tileOf s site) core).pc + 4 ∧
          (coreOf (tileOf t site) core).latch = (coreOf (tileOf s site) core).latch) ∧
        (bankServes s site a (7 + core.val) = true →
          ∃ t, Answers (.lst site core ra imm events) s t ∧ (coreOf (tileOf t site) core).pc = (coreOf (tileOf s site) core).pc + 4 ∧
            (∀ b : Nat, mget 0 t.spad b = if rowKey s site a * 512 ≤ b ∧ b < rowKey s site a * 512 + 512
              then mget 0 (coreOf (tileOf s site) core).latch (b - rowKey s site a * 512) else mget 0 s.spad b) ∧
            rowTags t (rowKey s site a) = (coreOf (tileOf s site) core).latchTags)) ∧
    ∀ (row : BitVec 13) (pc : BitVec 16) (taken : Option (List Byte × BitVec 8)), (coreOf (tileOf s site) core).lld = some ⟨row, pc, taken⟩ →
      ∃ t, Answers (.lldComplete site core row) s t ∧ (coreOf (tileOf t site) core).lld = none ∧ t.spad = s.spad ∧
        (∀ bytes tags, taken = some (bytes, tags) →
          (∀ b : Nat, b < bytes.length → mget 0 (coreOf (tileOf t site) core).latch b = bytes.getD b 0) ∧
          (coreOf (tileOf t site) core).latchTags = tags ∧ (coreOf (tileOf t site) core).pc = (coreOf (tileOf s site) core).pc) ∧
        (taken = none → (∀ b : Nat, mget 0 (coreOf (tileOf t site) core).latch b = 0) ∧ (coreOf (tileOf t site) core).latchTags = 0 ∧
          ((coreOf (tileOf s site) core).status = .running → (coreOf (tileOf t site) core).cause = 7 ∧
            (coreOf (tileOf t site) core).epc = BitVec.ofNat 64 pc.toNat))

/-- R112, R114: QPUSH and QTRY into a queue of the tile that has room accept the descriptor {rb, ra} and give rd its sequence number; QTRY at a full queue writes all ones and nothing else. -/
def Sys2Proof.Machine.PushesAcceptOrReportFull : Prop :=
  ∀ (site : Site) (core : CoreId) (rd ra rb : Reg) (s : State), CoreGoes s site core → gangPlace s site = none →
    let d : BitVec 128 := greg s site core rb ++ greg s site core ra
    let q := queueForKind (d.toNat % 16)
    ((queueOf (tileOf s site) q).entries.length < queueDepth q → rd ≠ 0 →
      ∀ c ∈ [Instr.qpush site core rd ra rb, Instr.qtry site core rd ra rb],
        ∃ t, Answers c s t ∧ Accepted s t site q d ∧ greg t site core rd = (queueOf (tileOf s site) q).nextSeq.zeroExtend 64 ∧
          (coreOf (tileOf t site) core).pc = (coreOf (tileOf s site) core).pc + 4) ∧
    (queueDepth q ≤ (queueOf (tileOf s site) q).entries.length →
      ∃ t, Answers (.qtry site core rd ra rb) s t ∧ WroteReg s t site core rd (BitVec.ofInt 64 (-1)))

/-- R102, R215, R216: with no other waiter on the semaphore, SEMSIG adds its units, the sum of its cycle's signals saturating at 65,535 before what waits have taken in that cycle is taken off, and notes the signaller; SEMWAIT takes its units when they are there and joins the waiters without taking any when they are not; SEMRD reads the value. -/
def Sys2Proof.Machine.LocalSemaphoresCountAndWait : Prop :=
  ∀ (site : Site) (core : CoreId) (ra rd : Reg) (imm : BitVec 16) (s : State), CoreGoes s site core →
    let n := imm.toNat % 64
    let units := (greg s site core ra).toNat % 65536
    let v := semValue (tileOf s site) n
    n < 48 →
    (∃ t, Answers (.semrd site core rd imm) s t ∧ WroteReg s t site core rd (BitVec.ofNat 64 v)) ∧
    (syncEnabled s site = true → (∀ w ∈ (tileOf s site).waiters, w.sem ≠ n) → v < 65536 →
      (∃ t, Answers (.semsig site core ra imm) s t ∧ semValue (tileOf t site) n =
          min (v + takenIn (tileOf s site) (tileCycles s site) n + units) 65535 - takenIn (tileOf s site) (tileCycles s site) n ∧
        (mget ⟨0, 0, 0, 0, false, 0⟩ (tileOf t site).lastSig n).units = units ∧
        (mget ⟨0, 0, 0, 0, false, 0⟩ (tileOf t site).lastSig n).path = core.val ∧
        (coreOf (tileOf t site) core).pc = (coreOf (tileOf s site) core).pc + 4) ∧
      ((coreOf (tileOf s site) core).trapDue = none → units ≤ v →
        ∃ t, Answers (.semwait site core ra imm) s t ∧ semValue (tileOf t site) n = v - units ∧
          (coreOf (tileOf t site) core).status = .running ∧ (coreOf (tileOf t site) core).pc = (coreOf (tileOf s site) core).pc + 4) ∧
      (v < units →
        ∃ t, Answers (.semwait site core ra imm) s t ∧ semValue (tileOf t site) n = v ∧
          (coreOf (tileOf t site) core).status = .waiting ∧ (coreOf (tileOf t site) core).pc = (coreOf (tileOf s site) core).pc ∧
          (tileOf t site).waiters = joinWaiters (tileOf s site).waiters ⟨.core core, n, false, units, tileCycles s site⟩))

/-- QPUSH and QTRY accept or report full; SEMSIG adds and saturates, SEMWAIT takes or waits, SEMRD reads: the two statements named here. -/
def Obligations.PushesAndSemaphoresAcceptOrWait : Prop := Sys2Proof.Machine.PushesAcceptOrReportFull ∧ Sys2Proof.Machine.LocalSemaphoresCountAndWait

/-- R106: CRR reads the core's number, its trap registers, CR_STEP, CR_VFLAGS and CR_QSTAT, and zero at an index above 0x017; CRW writes CR_TVEC, CR_EPC and CR_ENTRY, clears CR_VFLAGS and CR_QSTAT on ones, and writes nothing elsewhere. -/
def Obligations.ControlRegistersReadAndWrite : Prop :=
  ∀ (site : Site) (core : CoreId) (rd : Reg) (imm : BitVec 16) (s : State), CoreGoes s site core →
    let i := imm.toNat % 4096
    let t0 := tileOf s site
    let k := coreOf t0 core
    let v := greg s site core rd
    (∃ t, Answers (.crr site core rd imm) s t ∧ ∃ x, WroteReg s t site core rd x ∧
      (i = 0x000 → x = BitVec.ofNat 64 core.val) ∧ (i = 0x005 → x = t0.step) ∧ (i = 0x006 → x = BitVec.ofNat 64 t0.vflags.toNat) ∧
      (i = 0x007 → x = BitVec.ofNat 64 t0.qstat.toNat) ∧ (i = 0x010 → x = k.tvec) ∧ (i = 0x011 → x = k.epc) ∧
      (i = 0x012 → x = k.cause) ∧ (i = 0x013 → x = k.entry) ∧ (0x017 < i → x = 0)) ∧
    ∃ t, Answers (.crw site core rd imm) s t ∧ (coreOf (tileOf t site) core).pc = k.pc + 4 ∧
      (coreOf (tileOf t site) core).tvec = (if i = 0x010 then v else k.tvec) ∧
      (coreOf (tileOf t site) core).epc = (if i = 0x011 then v else k.epc) ∧
      (coreOf (tileOf t site) core).entry = (if i = 0x013 then v else k.entry) ∧
      (coreOf (tileOf t site) core).cause = k.cause ∧ (coreOf (tileOf t site) core).gregs = k.gregs ∧
      (tileOf t site).vflags = (if i = 0x006 then t0.vflags &&& ~~~(v.truncate 2) else t0.vflags) ∧
      (tileOf t site).qstat = (if i = 0x007 then t0.qstat &&& ~~~(v.truncate 4) else t0.qstat) ∧ (tileOf t site).step = t0.step

/-- R102, R108, R226: HALT halts and notes the cycle; WFE sleeps, and a retirement or semaphore change lets it go on; FENCE stalls for the commands accepted before it and goes on once those it covers have retired, at once when there are none. -/
def Obligations.CoresHaltSleepAndFence : Prop :=
  ∀ (site : Site) (core : CoreId) (s : State),
    (coreReady s site core = true →
      Answers (.halt site core) s (settlePins (modCore (haltNoted s site) site core fun k => { k with status := .halted })) ∧
      Answers (.wfe site core) s (settlePins (modCore s site core fun k => { k with status := .sleeping, woken := false })) ∧
      ∀ imm : BitVec 16, imm.toNat % 8 ≤ 4 →
        ∃ t f, Answers (.fence site core imm) s t ∧ (coreOf (tileOf t site) core).status = .fenced ∧
          (coreOf (tileOf t site) core).fence = some f ∧ f.scope = imm.toNat % 8 ∧
          (∀ x ∈ f.covered, x ∈ unretired (tileOf s site)) ∧ OnlyCore s t site core ∧
          (∀ e ∈ (tileOf s site).vectorQ.entries, (QueueId.vector, e.seq) ∈ f.covered)) ∧
    ((coreOf (tileOf s site) core).pc ≠ 0xFFFC → (coreOf (tileOf s site) core).trapDue = none →
      ((coreOf (tileOf s site) core).status = .sleeping → (coreOf (tileOf s site) core).woken = true →
        Answers (.wfeWake site core) s (settlePins (modCore s site core fun k => { k with status := .running, woken := false, pc := k.pc + 4 }))) ∧
      ∀ f : FenceRec, (coreOf (tileOf s site) core).status = .fenced → (coreOf (tileOf s site) core).fence = some f →
        (∀ x ∈ f.covered, ∀ e ∈ (queueOf (tileOf s site) x.1).entries, e.seq ≠ x.2) →
        ∃ t, Answers (.fenceComplete site (.core core)) s t ∧ (coreOf (tileOf t site) core).status = .running ∧
          (coreOf (tileOf t site) core).fence = none ∧ (coreOf (tileOf t site) core).pc = (coreOf (tileOf s site) core).pc + 4)

namespace Sys2Proof.Machine

/-- The head of a queue is this entry, the oldest command of its queue, not yet started, with no wait before it and a well-formed signal after it. -/
abbrev PlainHead (s : State) (site : Site) (q : QueueId) (e : QEntry) : Prop :=
  queueHead (tileOf s site) q = some e ∧ (∃ es, (queueOf (tileOf s site) q).entries = e :: es) ∧ e.prog = .queued ∧
  dWaitSem e.desc = 0x3F ∧ (dSigSem e.desc < 48 ∨ dSigSem e.desc = 0x3F)

/-- The oldest command of a queue carries a progress. -/
abbrev HeadProg (t : State) (site : Site) (q : QueueId) (e : QEntry) (p : Progress) : Prop :=
  ∃ es, (queueOf (tileOf t site) q).entries = { e with prog := p } :: es

/-- No row of any scratchpad holds an error or a tag. -/
abbrev NoPoison (s : State) : Prop := s.spadErr = [] ∧ ∀ k, mget 0 s.spadTag k = 0

/-- Every bank of a tile serves every requestor. -/
abbrev BanksServe (s : State) (site : Site) : Prop := ∀ row req, bankServes s site row req = true

end Sys2Proof.Machine

/-- R137: the oldest descriptor of a gang goes to the matching queue of every tile of the gang, once each has a free entry, and leaves the sequencer. -/
def Obligations.GangDeliversToEveryTile : Prop :=
  ∀ (field : Field) (region : RegionId) (q : QueueId) (d : BitVec 128) (rest : List (QueueId × BitVec 128)) (s : State),
    (gangOf s field region).entries = (q, d) :: rest → fieldRuns s field = true → gangGrain s region = true →
    (gangSites s region field).Nodup → (∀ x ∈ gangSites s region field, x < 3072 ∧ (queueOf (tileOf s x) q).entries.length < queueDepth q) →
    ∃ t, Answers (.gangDeliver field region) s t ∧ (gangOf t field region).entries = rest ∧
      (gangOf t field region).seqs = (gangOf s field region).seqs ∧
      ∀ x : Site, x.val ∈ gangSites s region field → Accepted s t x q d

/-- R134, R135, R382: 25,600 DTU after the latest warning, while an array command is queued, the warning is renewed: VR's count advances, the boost runs to 2 µs from now, and no queue changes. -/
def Sys2Proof.Machine.LoadWarningIsRenewed : Prop :=
  ∀ (site : Site) (w : Nat) (s : State), clusterOn s (siteCluster site) = true → (tileOf s site).arrayQ.entries ≠ [] →
    (tileOf s site).lastWarn = some w → w + 25600 ≤ now s →
    ∃ t, Answers (.loadWarningRenewal site) s t ∧ (tileOf t site).lastWarn = some (now s) ∧
      (clusterRec t (siteCluster site)).warnBoost = some (now s, now s + 32000) ∧
      reg64 t (vrReg (siteCluster site) 0x020) = (reg64 s (vrReg (siteCluster site) 0x020) + 1) % 2 ^ 64 ∧
      (tileOf t site).arrayQ = (tileOf s site).arrayQ ∧ t.spad = s.spad

/-- R66, R116: the head MMA of an enabled array begins at pass 0 when its fields are right; a reserved format code ends it with BAD_FORMAT, a SUSPECT array with ARRAY_PERMANENT (R88), and the warning hold of R78 keeps an idle array from starting until ARRAY_START. -/
def Obligations.MmaBeginsOrIsRejected : Prop :=
  ∀ (site : Site) (e : QEntry) (s : State), PlainHead s site .array e → clusterOn s (siteCluster site) = true →
    regBit s (arrayReg site 0) 0 = true →
    (mmaCheck s site e.desc = 0 → (foldOf s site e.desc).isSome = true →
      ∃ t m, Answers (.mma site) s t ∧ (tileOf t site).mma = some m ∧ m.seq = e.seq ∧ m.pass = 0 ∧ m.held = [] ∧
        m.started = (warnedAt (tileOf s site) e.seq).isNone ∧ HeadProg t site .array e .running ∧ t.spad = s.spad ∧ t.spadTag = s.spadTag) ∧
    (regBit s (arrayReg site 4) 1 = false → (10 ≤ mmaWfmt e.desc ∨ 10 ≤ mmaAfmt e.desc) →
      ∃ t, Answers (.mma site) s t ∧ HeadProg t site .array e (.done 2) ∧ (tileOf t site).mma = (tileOf s site).mma ∧
        t.spad = s.spad ∧ t.spadTag = s.spadTag) ∧
    (regBit s (arrayReg site 4) 1 = true →
      ∃ t, Answers (.mma site) s t ∧ HeadProg t site .array e (.done 9) ∧ (tileOf t site).mma = (tileOf s site).mma ∧ t.spad = s.spad)

/-- R77, R78, R96: an idle array starts once 3,200 DTU have passed since its warning, and not while EN is 0; the hold is counted in ARR_WARN_HOLD from the cycle log entry 134 names (the model's choice) and a ramp that is due in ARR_RAMP_HOLD. -/
def Sys2Proof.Machine.ArrayStartsAfterItsWarningHold : Prop :=
  ∀ (site : Site) (m : MmaExec) (e : QEntry) (f : Fold) (w : Nat) (ramp : Bool) (s : State),
    (tileOf s site).mma = some m → m.started = false → mmaEntry (tileOf s site) m = some e → foldOf s site e.desc = some f →
    (tileOf s site).idleEntry = some ⟨m.seq, w, ramp⟩ →
    (regBit s (arrayReg site 0) 0 = true → w + 3200 ≤ now s →
      ∃ t m', Answers (.arrayStart site) s t ∧ (tileOf t site).mma = some m' ∧ m'.started = true ∧ m'.pass = m.pass ∧ m'.held = m.held ∧
        (tileOf t site).idleEntry = none ∧ (tileOf t site).lastWarn = none ∧ (tileOf t site).rampDue = false ∧
        regGet t (arrayReg site 0x030) = regGet s (arrayReg site 0x030) + BitVec.ofNat 32 (tileCyclesAt s site (w + 3200) - m.ready) ∧
        regGet t (arrayReg site 0x02C) = regGet s (arrayReg site 0x02C) + (if (tileOf s site).rampDue || ramp then 24 else 0)) ∧
    (regBit s (arrayReg site 0) 0 = false → Answers (.arrayStart site) s s)

/-- A load warning is renewed while an array command is queued; ARRAY_START starts the array after its hold: the two statements named here. -/
def Obligations.ArrayWarningsAndHoldsAreKept : Prop := Sys2Proof.Machine.LoadWarningIsRenewed ∧ Sys2Proof.Machine.ArrayStartsAfterItsWarningHold

/-- R119: a weight tile streamed from HBM goes into the shadow weights when none waits there and every way to its rows is open (R203, R620); an access that fails ends the command with its status. -/
def Obligations.StreamedWeightsGoToTheShadow : Prop :=
  ∀ (site : Site) (m : MmaExec) (e : QEntry) (f : Fold) (events : List RowEvent) (found : List HbmFind) (s : State),
    (tileOf s site).mma = some m → m.shadow = none → mmaEntry (tileOf s site) m = some e → e.prog = .running →
    foldOf s site e.desc = some f → mmaWsrc e.desc = true → nextStreamed f m < tilesOf f e.desc →
    let g := globalTile f e.desc (nextStreamed f m)
    streamedReady s site m.seq e.desc g = true →
    let r := streamedTile s site m.seq e.desc g events found
    (r.2.1 = 0 → ∃ t, Answers (.streamedWeightArrival ⟨site, events, found⟩) s t ∧
      (tileOf t site).mma = some { m with shadow := some ⟨nextStreamed f m, r.2.2.1, r.2.2.2⟩, tileDue := none }) ∧
    (r.2.1 ≠ 0 → (tileOf r.1 site).arrayQ = (tileOf s site).arrayQ →
      ∃ t x, Answers (.streamedWeightArrival ⟨site, events, found⟩) s t ∧ x ∈ (tileOf t site).arrayQ.entries ∧ x.seq = e.seq ∧
        x.prog = .done (BitVec.ofNat 8 r.2.1))

/-- R82 to R86: of the first run of a pass with local, clean, served operands, outside the fall-back: an agreeing or skipped verdict commits it and goes to the next pass or ends the command; a disagreeing one commits nothing and repeats the pass. The freezes only advance their counters. -/
def Obligations.PassVerdictCommitsOrRepeats : Prop :=
  ∀ (site : Site) (m : MmaExec) (e : QEntry) (f : Fold) (faults : List CellFault) (z : Freezes) (s : State),
    clusterOn s (siteCluster site) = true → (tileOf s site).mma = some m → m.started = true → m.phase = .first → m.held = [] →
    mmaEntry (tileOf s site) m = some e → e.prog = .running →
    foldOf s site e.desc = some f → mmaWsrc e.desc = false → mmaRowchk e.desc = false →
    BanksServe s site → NoPoison s → regBit s (arrayReg site 0) 8 = false →
    (passWeights s site f e.desc m (passAt f e.desc m.pass)).poison = false →
    let q := passAt f e.desc m.pass
    let creal := realColumns f e.desc q
    let p := passOperands s site f e.desc (passWeights s site f e.desc m q) q
    let run := corrupted (passHold p m.pass false) creal (physCol (regGet s (arrayReg site 0))) faults
    let verdict := columnVerdict (mmaInt32 e.desc) (unscaledInts e.desc) creal run
    ∃ t, Answers (.passVerdict site faults z []) s t ∧
      reg64 t (arrayReg site 0x018) = (reg64 s (arrayReg site 0x018) + z.total) % 2 ^ 64 ∧
      regGet t (arrayReg site 0x020) = regGet s (arrayReg site 0x020) + BitVec.ofNat 32 z.feed ∧
      regGet t (arrayReg site 0x024) = regGet s (arrayReg site 0x024) + BitVec.ofNat 32 z.wload ∧
      regGet t (arrayReg site 0x028) = regGet s (arrayReg site 0x028) + BitVec.ofNat 32 z.drain ∧
      (verdict = .disagree →
        t.spad = s.spad ∧ t.spadTag = s.spadTag ∧ reg64 t (arrayReg site 0x040) = reg64 s (arrayReg site 0x040) ∧
        ∃ m', (tileOf t site).mma = some m' ∧ m'.phase = .repeated 1 ∧ m'.pass = m.pass ∧ m'.held = []) ∧
      (verdict ≠ .disagree →
        reg64 t (arrayReg site 0x040) = (reg64 s (arrayReg site 0x040) + 1) % 2 ^ 64 ∧
        (m.pass + 1 < passesOf f e.desc → ∃ m', (tileOf t site).mma = some m' ∧ m'.phase = .first ∧ m'.pass = m.pass + 1) ∧
        (m.pass + 1 = passesOf f e.desc → ∃ x ∈ (tileOf t site).arrayQ.entries, x.seq = e.seq ∧ x.prog = .done 0))

namespace Sys2Proof.Machine

/-- The vector commands with their VOP codes (R121). -/
def vecRows : List ((Site → List RowEvent → Instr) × Nat) :=
  [(.vecCvt, 0x00), (.vecAdd, 0x01), (.vecSub, 0x02), (.vecMul, 0x03), (.vecFma, 0x04), (.vecMax, 0x06), (.vecMin, 0x07),
   (.vecAbs, 0x08), (.vecNeg, 0x09), (.vecRsum, 0x10), (.vecRmax, 0x11), (.vecRsum64, 0x12), (.vecRmax64, 0x13)]

/-- The special-function commands with their FUNC codes (R126). -/
def sfuRows : List ((Site → List RowEvent → Instr) × Nat) :=
  [(.sfuExp, 0), (.sfuLog, 1), (.sfuRcp, 2), (.sfuRsq, 3), (.sfuSin, 4), (.sfuCos, 5), (.sfuErf, 6)]

/-- Whether a byte address of the scratchpads lies in an area of a tile. -/
def InArea (s : State) (site : Site) (base n b : Nat) : Prop :=
  ∃ i, i < n ∧ b = rowKey s site (base + i / 512) * 512 + i % 512

/-- A unit of the vector queue is free for the head command. -/
abbrev UnitHead (s : State) (site : Site) (e : QEntry) : Prop :=
  PlainHead s site .vector e ∧ clusterOn s (siteCluster site) = true

end Sys2Proof.Machine

/-- R120 to R123, R155: a VEC whose check finds nothing, over served and clean operands, writes its results to its destination and nowhere else, and its flags; one with a poisoned operand writes no byte and ends with POISON. -/
def Obligations.VectorCommandsWriteTheirDestination : Prop :=
  ∀ row ∈ vecRows, ∀ (site : Site) (e : QEntry) (s : State), UnitHead s site e → dKind e.desc = 2 → dVop e.desc = row.2 →
    vecCheck e.desc = 0 → BanksServe s site →
    let d := e.desc
    (NoPoison s →
      ∃ t, Answers (row.1 site []) s t ∧ HeadProg t site .vector e (.done 0) ∧
        (vecMx d = false → areaRead t site (vecDst d) 0 (fmtBytes (vecDfmt d) (vecDcount d)) =
          packElems (elemBits (vecDfmt d)) ((vecResult s site d).1.map (·.bits))) ∧
        (tileOf t site).vflags = (tileOf s site).vflags |||
          BitVec.ofNat 2 (boolNat ((vecResult s site d).1.any (·.saturated)) + 2 * boolNat ((vecResult s site d).1.any (·.invalid))) ∧
        ∀ b, (∀ a ∈ vecWrites d, ¬ InArea s site a.1 a.2 b) → mget 0 t.spad b = mget 0 s.spad b) ∧
    (s.spadErr = [] → (∃ a ∈ vecReads d, areaPoison s site a.1 0 a.2 = true) →
      ∃ t, Answers (row.1 site []) s t ∧ HeadProg t site .vector e (.done 8) ∧ t.spad = s.spad ∧
        ∀ a ∈ vecWrites d, a.2 ≠ 0 → areaPoison t site a.1 0 a.2 = true)

/-- R126, R127: an SFU command whose check finds nothing, over served and clean operands, gives every element its function's value, rounded to the destination's format, and writes nothing else. -/
def Obligations.SpecialFunctionsWriteTheirDestination : Prop :=
  ∀ row ∈ sfuRows, ∀ (site : Site) (e : QEntry) (f : Format) (s : State), UnitHead s site e → dKind e.desc = 3 → dOp e.desc = row.2 →
    sfuCheck e.desc = 0 → formatOf (sfuDfmt e.desc) = some f → BanksServe s site → NoPoison s →
    let d := e.desc
    let cs := (vecVals s site (sfuSrc d) (sfuSfmt d) (sfuLen d)).map fun v =>
      sfuValue row.2 (convert f (!sfuNonsat d) .nearest) (sfuPrescaled d v)
    ∃ t, Answers (row.1 site []) s t ∧ HeadProg t site .vector e (.done 0) ∧
      areaRead t site (sfuDst d) 0 (fmtBytes (sfuDfmt d) (sfuLen d)) = packElems f.bits (cs.map (·.bits)) ∧
      ∀ b, ¬ InArea s site (sfuDst d) (fmtBytes (sfuDfmt d) (sfuLen d)) b → mget 0 t.spad b = mget 0 s.spad b

namespace Sys2Proof.Machine

/-- A MOVE of an operation at the head of a free move engine whose check finds nothing. -/
abbrev MoveHead (s : State) (site : Site) (e : QEntry) (op : Nat) : Prop :=
  PlainHead s site .move e ∧ clusterOn s (siteCluster site) = true ∧ dOp e.desc = op ∧ movesRunning (tileOf s site) < 8 ∧
  trackerRoom s site e = true ∧ moveCheck s site e.desc = 0

/-- The bytes of a scratchpad row. -/
abbrev rowBytes (s : State) (site : Site) (row : Nat) : List Byte := memRead s.spad (rowKey s site row * 512) 512

/-- A packet reaches its end: it is the oldest of its order and its path is open. -/
abbrev PacketArrives (s : State) (n : Nat) (p : Packet) : Prop :=
  findPacket s n = some p ∧ packetFirst s p = true ∧ ∃ ss hs fs, packetPath s p = .ok ss hs fs

/-- Packets without the credits that they will meet, which are free values (R192). -/
abbrev noCredits (ps : List Packet) : List Packet := ps.map fun q => { q with credits := 0 }

/-- A packet as the n-th one injected after a state. -/
abbrev sentAs (s : State) (p : Packet) (n : Nat) : Packet := { p with order := s.netSeq + n, turn := s.netSeq + n }

/-- Every byte of a tile's scratchpads outside one row keeps its value. -/
abbrev OnlyRow (s t : State) (site row : Nat) : Prop :=
  ∀ b, ¬ (rowKey s site row * 512 ≤ b ∧ b < rowKey s site row * 512 + 512) → mget 0 t.spad b = mget 0 s.spad b

end Sys2Proof.Machine

/-- R129: ZERO clears the rows from LOCAL and their tags, COPY moves rows with their tags within the tile; both are done at once and leave every other row alone. -/
def Obligations.LocalMovesWriteTheirRows : Prop :=
  ∀ (site : Site) (e : QEntry) (s : State), BanksServe s site →
    let d := e.desc
    let dst := moveAddr s site d / 512 % 8192
    (MoveHead s site e 5 →
      ∃ t, Answers (.moveZero ⟨site, []⟩) s t ∧ HeadProg t site .move e (.done 0) ∧
        (∀ i, i < moveRows d → rowBytes t site (moveLocal d + i) = zeros 512 ∧ rowTags t (rowKey t site (moveLocal d + i)) = 0) ∧
        ∀ b, ¬ InArea s site (moveLocal d) (512 * moveRows d) b → mget 0 t.spad b = mget 0 s.spad b) ∧
    (MoveHead s site e 0 → s.spadErr = [] → (moveLocal d + moveRows d ≤ dst ∨ dst + moveRows d ≤ moveLocal d) →
      ∃ t, Answers (.moveCopy site []) s t ∧ HeadProg t site .move e (.done 0) ∧
        (∀ i, i < moveRows d → rowBytes t site (dst + i) = rowBytes s site (moveLocal d + i) ∧
          rowTags t (rowKey t site (dst + i)) = rowTags s (rowKey s site (moveLocal d + i))) ∧
        ∀ b, ¬ InArea s site dst (512 * moveRows d) b → mget 0 t.spad b = mget 0 s.spad b)

/-- R129, R130: GET and IMEM send one read for each row in ascending order, PUT one write with the row's bytes and tags, MCAST one write for each target of each row that the stores of its first fork have room for (R203), and ends with OK at once without targets (R202); the command runs until they are answered. -/
def Obligations.RemoteMovesSendTheirRows : Prop :=
  ∀ (site : Site) (e : QEntry) (s : State),
    let d := e.desc
    let a := moveAddr s site d
    (∀ c ∈ [(Instr.moveGet site, 1), (Instr.moveImem site [], 4)], MoveHead s site e c.2 → addrRange a ≠ some 4 →
      ∃ t, Answers c.1 s t ∧ HeadProg t site .move e .running ∧
        noCredits t.net = noCredits s.net ++ (List.range (moveRows d)).map (fun i =>
          sentAs s (rowPacket site e (a + 512 * i) i false .readRow) i) ∧ t.spad = s.spad) ∧
    (MoveHead s site e 2 → addrRange a ≠ some 4 → moveRsem d = 0x3F → BanksServe s site → s.spadErr = [] →
      ∃ t, Answers (.movePut site []) s t ∧ HeadProg t site .move e .running ∧
        noCredits t.net = noCredits s.net ++ (List.range (moveRows d)).map (fun i =>
          sentAs s (rowPacket site e (a + 512 * i) i false
            (.writeRow (rowBytes s site (moveLocal d + i)) (rowTags s (rowKey s site (moveLocal d + i))))) i) ∧ t.spad = s.spad) ∧
    (MoveHead s site e 3 → addrRange a ≠ some 4 → moveRsem d = 0x3F → BanksServe s site → s.spadErr = [] →
      let m := { moveExec0 s e with targets := moveTargets s site e }
      let rows := min (moveRows d) (sourceRoom s site m)
      (mcastTargets s site (moveGroup d) = [] → ∃ t, Answers (.moveMcast site []) s t ∧ HeadProg t site .move e (.done 0) ∧ t.net = s.net) ∧
      (mcastTargets s site (moveGroup d) ≠ [] →
      ∃ t, Answers (.moveMcast site []) s t ∧ HeadProg t site .move e .running ∧ t.spad = s.spad ∧
        t.net.length = s.net.length + rows * (mcastTargets s site (moveGroup d)).length ∧
        ∀ i, i < rows → ∀ lt ∈ mcastTargets s site (moveGroup d), ∃ p ∈ t.net, p.mcast = true ∧ p.source = some site ∧
          p.addr = 0x200000000000 + lt * 0x400000 + (moveRemote d + 512 * i) % 0x400000 ∧
          p.kind = .writeRow (rowBytes s site (moveLocal d + i)) (rowTags s (rowKey s site (moveLocal d + i)))))

/-- R160 to R163, R154: a row written to a tile whose windows let it in lands in that row with its tags and is answered OK; one that no window admits changes no byte, is counted and answered WINDOW_CLOSED. -/
def Obligations.RemoteRowsPassTheWindows : Prop :=
  ∀ (n : Nat) (p : Packet) (x row : Nat) (data : List Byte) (tags : BitVec 8) (s : State), PacketArrives s n p →
    p.kind = .writeRow data tags → data.length = 512 → targetOf s p.addr = .tile x row → p.addr % 512 = 0 → forksRoom s p = true →
    (p.mcast = true → s.spadErr = []) →
    let reg := (regionOfSite s x).getD 0xFF
    let inRegion := decide ((packetSrc s p).region = reg ∧ reg ≠ 0xFF)
    (windowAllows s x row true inRegion = true → bankServes s x row 6 = true →
      ∃ t, Answers (.remoteRowArrival n []) s t ∧ memRead t.spad (rowKey s x row * 512) 512 = data ∧ rowTags t (rowKey s x row) = tags ∧
        OnlyRow s t x row ∧ ∃ q, findPacket t n = some q ∧ q.vc = 3 ∧ q.kind = .answer 0 [] 0) ∧
    (windowAllows s x row true inRegion = false →
      ∃ t, Answers (.remoteRowArrival n []) s t ∧ t.spad = s.spad ∧ t.spadTag = s.spadTag ∧
        regGet t (spadReg x 0x028) = regGet s (spadReg x 0x028) + 1 ∧
        ∃ q, findPacket t n = some q ∧ q.vc = 3 ∧ q.kind = .answer 0x0A [] 0)

/-- R130, R162: the last answer of a PUT ends it with OK, WINDOW_CLOSED or REMOTE_ERROR; a GET's answer puts its row into the local scratchpad and nothing else. -/
def Sys2Proof.Machine.AnswersCompleteTheirMove : Prop :=
  ∀ (n : Nat) (p : Packet) (site : Site) (st : BitVec 8) (data : List Byte) (tags : BitVec 8) (m : MoveExec) (e : QEntry) (s : State),
    PacketArrives s n p → p.kind = .answer st data tags → p.source = some site → p.index < 8192 →
    findMove s site p.seq = some m → moveEntry s site p.seq = some e → m.pending = [n] → m.status = 0 → m.windowRefused = false →
    m.otherError = false → m.abandoned = false → e.prog = .running →
    (dOp e.desc = 2 → moveVc2 e.desc = false →
      ∃ t, Answers (.rowAcknowledge ⟨n, []⟩) s t ∧ findPacket t n = none ∧ t.spad = s.spad ∧ ∃ x ∈ (tileOf t site).moveQ.entries, x.seq = e.seq ∧
        x.prog = .done (if st = 0 then 0 else if st = 0x0A then 0x0A else 0x0B)) ∧
    (dOp e.desc = 1 → moveVc2 e.desc = false → st = 0 → data.length = 512 → bankServes s site (moveLocal e.desc + p.index) 5 = true →
      ∃ t, Answers (.rowAcknowledge ⟨n, []⟩) s t ∧ findPacket t n = none ∧ rowBytes t site (moveLocal e.desc + p.index) = data ∧
        OnlyRow s t site (moveLocal e.desc + p.index) ∧ ∃ x ∈ (tileOf t site).moveQ.entries, x.seq = e.seq ∧ x.prog = .done 0)

/-- R204 to R206: a branch that took nothing for the timeout of its fork loses the packets that have not passed the fork, its targets are missing, and the move is marked as abandoned; a multicast with nothing pending completes, with PARTIAL and a counted miss when a branch was abandoned. -/
def Sys2Proof.Machine.MulticastsCompleteOrAbandon : Prop :=
  ∀ (site : Site) (seq : BitVec 16) (m : MoveExec) (e : QEntry) (s : State), findMove s site seq = some m → moveEntry s site seq = some e →
    dOp e.desc = 3 → m.seq = seq →
    (∀ branch : McBranch,
      let own := m.targets.filter fun a => onBranch s branch ((a - 0x200000000000) / 0x400000) && !m.dropped.contains a
      let passed := own.foldl (fun x a => max x (mget ⟨0, 0, 0⟩ m.taken (a / 0x400000)).rows) 0
      let ps := s.net.filter fun p => p.mcast && decide (p.source = some site ∧ p.seq = seq ∧ passed ≤ p.index) && !isAnswer p &&
        own.contains (p.addr / 0x400000 * 0x400000)
      (∃ p ∈ ps, isRow p = true) → branchSince s m branch own + reg64 s (fieldReg (branchField s site branch) 0x008) ≤ now s →
      ∃ t m' more, Answers (.mcastBranchAbandon site seq branch) s t ∧ findMove t site seq = some m' ∧ m'.abandoned = true ∧
        (∀ a ∈ own, a ∈ m'.dropped ∧ a ∈ m'.failedTargets) ∧
        t.net = (s.net.filter fun q => !(ps.map (·.order)).contains q.order) ++ more ∧ (∀ q ∈ more, s.netSeq ≤ q.order) ∧
        (m.status = 0 → BanksServe s site → s.spadErr = [] → addrRange (moveAddr s site e.desc) ≠ some 4 → t.spad = s.spad)) ∧
    (e.prog = .running → m.pending = [] → m.status = 0 → m.windowRefused = false → m.otherError = false →
      ∃ t, Answers (.mcastComplete site seq) s t ∧
        (∃ x ∈ (tileOf t site).moveQ.entries, x.seq = e.seq ∧ x.prog = .done (if m.abandoned then 0x0C else 0)) ∧
        regGet t (netReg site 0x028) = regGet s (netReg site 0x028) + (if m.abandoned then 1 else 0) ∧
        (m.abandoned = false → t.spad = s.spad))

/-- The last answer completes a PUT or a GET with its status; multicasts complete or abandon branches past their timeout: the two statements named here. -/
def Obligations.MovesCompleteWithTheirStatus : Prop := Sys2Proof.Machine.AnswersCompleteTheirMove ∧ Sys2Proof.Machine.MulticastsCompleteOrAbandon

namespace Sys2Proof.Machine

/-- A command of one KIND and operation at the head of the sync queue of an enabled tile, with a clean check. -/
abbrev SyncHead (s : State) (site : Site) (e : QEntry) (kind op : Nat) : Prop :=
  PlainHead s site .sync e ∧ clusterOn s (siteCluster site) = true ∧ syncEnabled s site = true ∧ dKind e.desc = kind ∧ dOp e.desc = op ∧
  (if kind = 5 then syncCheck e.desc else ctrlCheck e.desc) = 0

/-- A semaphore's value after units are added to the sum of its cycle's signals, which saturates at 65,535 before what waits took in that cycle is taken off (R216). -/
abbrev summed (s : State) (site n units : Nat) : Nat :=
  let gone := takenIn (tileOf s site) (tileCycles s site) n
  min (semValue (tileOf s site) n + gone + units) 65535 - gone

/-- No agent waits on a semaphore of a tile. -/
abbrev NoWaiter (s : State) (site n : Nat) : Prop := ∀ w ∈ (tileOf s site).waiters, w.sem ≠ n

end Sys2Proof.Machine

/-- R131, R215, R218: SIGNAL to the own tile adds its units, to another tile of the region it sends one packet; WAIT takes its units or waits; WATCH completes without taking any; ARRIVE sends an arrival; FENCE and UNTIL run until met. -/
def Sys2Proof.Machine.SyncCommandsAct : Prop :=
  ∀ (site : Site) (e : QEntry) (s : State),
    let d := e.desc
    let n := syncSem d
    let c := syncCount d
    let v := semValue (tileOf s site) n
    (SyncHead s site e 5 0 → NoWaiter s site n → syncTarget d = 0xFFF →
      ∃ t, Answers (.syncSignal site) s t ∧ HeadProg t site .sync e (.done 0) ∧ semValue (tileOf t site) n = summed s site n c) ∧
    (SyncHead s site e 5 0 → syncTarget d ≠ 0xFFF → ltOfSite s site ≠ some (syncTarget d) →
      (∃ r, regionOfSite s site = some r ∧ regionHasLc s r (syncTarget d / 15) = true) →
      ∃ t p, Answers (.syncSignal site) s t ∧ HeadProg t site .sync e .running ∧ t.net = s.net ++ [p] ∧ p.order = s.netSeq ∧
        p.addr = 0x200000000000 + syncTarget d * 0x400000 ∧ p.source = some site ∧ p.vc = (if syncOrd d then 1 else 2)) ∧
    (SyncHead s site e 5 1 → NoWaiter s site n → c ≤ v →
      ∃ t, Answers (.syncWait site) s t ∧ HeadProg t site .sync e (.done 0) ∧ semValue (tileOf t site) n = v - c) ∧
    (SyncHead s site e 5 1 → NoWaiter s site n → v < c →
      ∃ t, Answers (.syncWait site) s t ∧ HeadProg t site .sync e .running ∧ semValue (tileOf t site) n = v ∧
        (tileOf t site).waiters = joinWaiters (tileOf s site).waiters ⟨.queue .sync, n, false, c, tileCycles s site⟩) ∧
    (SyncHead s site e 5 2 → NoWaiter s site n → c ≤ v →
      ∃ t, Answers (.syncWatch site) s t ∧ HeadProg t site .sync e (.done 0) ∧ semValue (tileOf t site) n = v) ∧
    (SyncHead s site e 5 3 → mget 0 (tileOf s site).bgMissed (c % 64) = 0 →
      ∃ t p, Answers (.syncArrive site) s t ∧ HeadProg t site .sync e .running ∧ t.net = s.net ++ [p] ∧ p.vc = 0 ∧
        p.kind = .arrive (c % 64) (mget 0 (tileOf s site).bgGen (c % 64))) ∧
    (SyncHead s site e 5 4 →
      ∃ t f, Answers (.syncFence site) s t ∧ HeadProg t site .sync e .running ∧ (tileOf t site).syncFence = some f ∧
        f.scope = syncScope d ∧ ∀ x ∈ f.covered, x ∈ e.covers) ∧
    (SyncHead s site e 5 5 → ∃ t, Answers (.syncUntil site) s t ∧ HeadProg t site .sync e .running ∧ t.net = s.net) ∧
    ((∃ es, (tileOf s site).syncQ.entries = e :: es) → e.prog = .running → dKind d = 5 → dOp d = 5 → syncTime d ≤ localTime s site →
      ∃ t, Answers (.untilExpire site) s t ∧ HeadProg t site .sync e (.done 0))

/-- R133, R134: NOP does nothing, KEYLOAD loads a key slot from a clean row, SETBASE a base slot, PREWARN warns the regulator; a poisoned key row ends KEYLOAD with POISON and leaves the slot. -/
def Sys2Proof.Machine.ControlCommandsAct : Prop :=
  ∀ (site : Site) (e : QEntry) (s : State),
    let d := e.desc
    (SyncHead s site e 6 0 → ∃ t, Answers (.ctrlNop site) s t ∧ HeadProg t site .sync e (.done 0) ∧ t.spad = s.spad ∧
      (tileOf t site).keySlots = (tileOf s site).keySlots ∧ (tileOf t site).baseSlots = (tileOf s site).baseSlots) ∧
    (SyncHead s site e 6 1 → bankServes s site (ctrlKrow d) 5 = true →
      let row := rowBytes s site (ctrlKrow d)
      (NoPoison s → ∃ t, Answers (.keyload site []) s t ∧ HeadProg t site .sync e (.done 0) ∧ t.spad = s.spad ∧
        mget ⟨0, 0, 0⟩ (tileOf t site).keySlots (ctrlKslot d) =
          ⟨BitVec.ofNat 128 (leNat (row.take 16)), BitVec.ofNat 32 (leNat ((row.drop 16).take 4)), BitVec.ofNat 32 (leNat ((row.drop 20).take 4))⟩ ∧
        ∀ k, k ≠ ctrlKslot d → mget ⟨0, 0, 0⟩ (tileOf t site).keySlots k = mget ⟨0, 0, 0⟩ (tileOf s site).keySlots k) ∧
      (tagAt s (rowKey s site (ctrlKrow d)) 0 = true →
        ∃ t, Answers (.keyload site []) s t ∧ HeadProg t site .sync e (.done 8) ∧ (tileOf t site).keySlots = (tileOf s site).keySlots)) ∧
    (SyncHead s site e 6 2 → ∃ t, Answers (.setbase site) s t ∧ HeadProg t site .sync e (.done 0) ∧
      mget 0 (tileOf t site).baseSlots (ctrlBslot d) = BitVec.ofNat 48 (ctrlBase d) ∧
      ∀ k, k ≠ ctrlBslot d → mget 0 (tileOf t site).baseSlots k = mget 0 (tileOf s site).baseSlots k) ∧
    (SyncHead s site e 6 3 → ∃ t, Answers (.prewarn site) s t ∧ HeadProg t site .sync e (.done 0) ∧
      (tileOf t site).preWarn = some (now s) ∧ (tileOf t site).lastWarn = some (now s) ∧
      reg64 t (vrReg (siteCluster site) 0x020) = (reg64 s (vrReg (siteCluster site) 0x020) + 1) % 2 ^ 64)

/-- SIGNAL, WAIT, WATCH, ARRIVE, FENCE, UNTIL, NOP, KEYLOAD, SETBASE and PREWARN do what their operations say and no more: the two statements named here. -/
def Obligations.SyncAndControlCommandsAct : Prop := Sys2Proof.Machine.SyncCommandsAct ∧ Sys2Proof.Machine.ControlCommandsAct

/-- R113 to R116: a command that is done leaves its queue, is counted, sets its queue's error flag and register when its status is not OK, and signals one unit to its SIG_SEM. -/
def Obligations.RetirementCountsSignalsAndReports : Prop :=
  ∀ (site : Site) (q : QueueId) (seq : BitVec 16) (e : QEntry) (st : BitVec 8) (s : State), clusterOn s (siteCluster site) = true →
    (queueOf (tileOf s site) q).entries.find? (fun x => decide (x.seq = seq)) = some e → e.prog = .done st →
    let sig := dSigSem e.desc
    (48 ≤ sig ∨ (syncEnabled s site = true ∧ NoWaiter s site sig)) →
    ∃ t, Answers (.commandRetire site q seq) s t ∧
      (queueOf (tileOf t site) q).entries = (queueOf (tileOf s site) q).entries.filter (fun x => decide (x.seq ≠ seq)) ∧
      (queueOf (tileOf t site) q).retired = (queueOf (tileOf s site) q).retired + 1 ∧
      (tileOf t site).qstat = (tileOf s site).qstat ||| (if st = 0 then 0 else BitVec.ofNat 4 (2 ^ queueNo q)) ∧
      (st ≠ 0 → (queueOf (tileOf t site) q).err = BitVec.ofNat 64 (seq.toNat * 2 ^ 48 + st.toNat)) ∧
      (st = 0 → (queueOf (tileOf t site) q).err = (queueOf (tileOf s site) q).err) ∧
      (sig < 48 → semValue (tileOf t site) sig = summed s site sig 1) ∧
      (48 ≤ sig → (tileOf t site).sems = (tileOf s site).sems)

/-- R216, R222, R223, R238: a remote signal adds its units at an enabled tile, an overtaking one also sets SYNC_STATUS and its count; at a tile whose SYNC_CTRL.EN is 0 it adds nothing and is answered REMOTE_ERROR. -/
def Obligations.RemoteSignalsAddOrAreRefused : Prop :=
  ∀ (k : Nat) (p : Packet) (x row n units pend : Nat) (ord : Bool) (s : State), PacketArrives s k p → p.kind = .signal n units ord pend →
    targetOf s p.addr = .tile x row →
    (syncEnabled s x = true → NoWaiter s x n →
      ∃ t, Answers (.remoteSignalArrival k) s t ∧ semValue (tileOf t x) n = summed s x n units ∧
        (∃ q, findPacket t k = some q ∧ q.vc = 3 ∧ q.kind = .answer 0 [] 0) ∧
        (pend ≠ 0 → regBit t (syncReg x 4) 0 = true ∧ regGet t (syncReg x 0x008) = regGet s (syncReg x 0x008) + 1) ∧
        (pend = 0 → regGet t (syncReg x 0x008) = regGet s (syncReg x 0x008))) ∧
    (syncEnabled s x = false →
      ∃ t, Answers (.remoteSignalArrival k) s t ∧ (tileOf t x).sems = (tileOf s x).sems ∧
        ∃ q, findPacket t k = some q ∧ q.vc = 3 ∧ q.kind = .answer 0x0B [] 0)

/-- R229, R230: a member's arrival of the group's generation is counted and waits; the last one expected arms a count-driven group: T_rel is the first multiple of 2,048 DTU at least 6,400 DTU ahead, GEN advances and the count restarts. -/
def Sys2Proof.Machine.BarrierArrivalsCountAndArm : Prop :=
  ∀ (k : Nat) (p : Packet) (site : Site) (g : Fin 64) (s : State), findPacket s k = some p → p.kind = .arrive g.val (bgGenOf s g) →
    p.source = some site → (∃ ss hs fs, packetPath s p = .ok ss hs fs) → bgEn s g = true →
    regionOfSite s site = some (bgRegion s g) → siteSurplus s site = false →
    let n := rfld (regGet s (bgReg g 4)) 0 12
    (n + 1 < bgExpect s g →
      ∃ t, Answers (.barrierArrival k) s t ∧ findPacket t k = none ∧ rfld (regGet t (bgReg g 4)) 0 12 = n + 1 ∧ bgGenOf t g = bgGenOf s g ∧
        (groupOf t g).pendingArrive = (groupOf s g).pendingArrive ++ [(site, bgGenOf s g)] ∧ (groupOf t g).armed = (groupOf s g).armed) ∧
    (n + 1 = bgExpect s g → bgMode s g = 0 → (groupOf s g).armed = none → (groupOf s g).armDue = none →
      ∃ t trel, Answers (.barrierArrival k) s t ∧ findPacket t k = none ∧ (groupOf t g).armed = some (bgGenOf s g, trel) ∧
        now s + 6400 ≤ trel ∧ trel < now s + 6400 + 2048 ∧ trel % 2048 = 0 ∧ rfld (regGet t (bgReg g 4)) 0 12 = 0 ∧
        bgGenOf t g = (bgGenOf s g + 1) % 256 ∧ regBit t (bgReg g 4) 20 = true)

/-- R230 to R232, R240: a deadline arms its group 6,400 DTU ahead; a deadline written in time is taken as it is and one nearer is raised to the grid and flagged; slot 31 ends the generation: ARMED clears and BG_LASTREL holds its T_rel. -/
def Obligations.BarrierDeadlinesArmAndPass : Prop :=
  ∀ (g : Fin 64) (s : State),
    (bgEn s g = true → (bgMode s g = 1 ∨ bgMode s g = 2) → (groupOf s g).deadlineSet = true → (groupOf s g).armDue = none →
      (groupOf s g).armed = none → bgDeadline s g ≤ now s + 6400 →
      ∃ t, Answers (.barrierDeadlineArm g) s t ∧ (groupOf t g).armed = some (bgGenOf s g, bgDeadline s g) ∧
        (reg64 s (bgReg g 0x10) = 0 → (groupOf t g).deadlineSet = false) ∧
        (reg64 s (bgReg g 0x10) ≠ 0 → bgDeadline s g + max (reg64 s (bgReg g 0x10)) 6400 < 2 ^ 64 → (groupOf t g).deadlineSet = true ∧
          bgDeadline t g = bgDeadline s g + max (reg64 s (bgReg g 0x10)) 6400) ∧ regBit t (bgReg g 4) 20 = true ∧ bgGenOf t g = (bgGenOf s g + 1) % 256) ∧
    (∀ (master : Master) (v : BitVec 64), (master.toNat < 2 ∨ (0x010 ≤ master.toNat ∧ master.toNat < 0x01C)) →
      ∃ t, Answers (.bgDeadlineWrite master g v) s t ∧ (groupOf t g).deadlineSet = true ∧
        (now s + 6400 ≤ v.toNat → bgDeadline t g = v.toNat) ∧
        (v.toNat < now s + 6400 → now s + 6400 + 2048 < 2 ^ 64 → now s + 6400 ≤ bgDeadline t g ∧ bgDeadline t g < now s + 6400 + 2048 ∧
          bgDeadline t g % 2048 = 0 ∧ regBit t (bgReg g 4) 25 = true)) ∧
    (∀ gen trel : Nat, (groupOf s g).armed = some (gen, trel) → trel + 3968 ≤ now s → trel < 2 ^ 64 → (groupOf s g).deferredClear = false →
      (groupOf s g).deferredCfg = none → (groupOf s g).armDue = none →
      ∃ t, Answers (.barrierSlot31Pass g) s t ∧ (groupOf t g).armed = none ∧ regBit t (bgReg g 4) 20 = false ∧
        reg64 t (bgReg g 0x18) = trel ∧ bgGenOf t g = bgGenOf s g)

/-- R232, R233, R383: a release notice reaches the tile that it is due to, which holds it with its generation and time, or a regulator, whose boost it arms; it is due no longer. -/
def Sys2Proof.Machine.ReleaseNoticesReachTheirReceivers : Prop :=
  ∀ (g : Fin 64) (gen trel : Nat) (s : State), (groupOf s g).armed = some (gen, trel) →
    (∀ x : Site, NoticeDst.tile x ∈ (groupOf s g).noticesDue → (∃ ss hs fs, noticePath s (.group g) (.tile x) = .ok ss hs fs) →
      ∃ t, Answers (.releaseNotice (.group g) (.tile x)) s t ∧ (tileOf t x).notices = (tileOf s x).notices ++ [⟨.group g, gen, trel⟩] ∧
        (groupOf t g).noticesDue = (groupOf s g).noticesDue.erase (.tile x) ∧ (groupOf t g).armed = some (gen, trel)) ∧
    ∀ c : Cluster, NoticeDst.regulator c ∈ (groupOf s g).noticesDue → (∃ ss hs fs, noticePath s (.group g) (.regulator c) = .ok ss hs fs) →
      ∃ t, Answers (.releaseNotice (.group g) (.regulator c)) s t ∧ (groupOf t g).noticesDue = (groupOf s g).noticesDue.erase (.regulator c) ∧
        (clusterRec s c).relBoosts.length ≤ (clusterRec t c).relBoosts.length ∧ t.tiles = s.tiles

/-- R232, R234, R235: at its slot a tile is released: its pending ARRIVE of the group is done and its generation advances, or the release is counted as missed; a step's release restarts rotation and pass numbers, advances CR_STEP and restarts a core that HALT stopped at CR_ENTRY. -/
def Sys2Proof.Machine.TilesAreReleasedAtTheirSlot : Prop :=
  ∀ (site : Site) (s : State),
    (∀ (g : Fin 64) (n : Notice), (tileOf s site).notices.find? (fun x => decide (x.src = .group g)) = some n →
      n.time + 128 * slotOf site ≤ localTime s site →
      (∀ (e : QEntry) (es : List QEntry), (tileOf s site).syncQ.entries = e :: es → e.prog = .running → dKind e.desc = 5 → dOp e.desc = 3 →
        syncCount e.desc % 64 = g.val →
        ∃ t, Answers (.barrierReleaseSlot site g) s t ∧ HeadProg t site .sync e (.done 0) ∧
          mget 0 (tileOf t site).bgGen g = (mget 0 (tileOf s site).bgGen g + 1) % 256 ∧ (∀ x ∈ (tileOf t site).notices, x ≠ n)) ∧
      ((tileOf s site).syncQ.entries = [] →
        ∃ t, Answers (.barrierReleaseSlot site g) s t ∧ mget 0 (tileOf t site).bgMissed g = mget 0 (tileOf s site).bgMissed g + 1 ∧
          mget 0 (tileOf t site).bgGen g = (mget 0 (tileOf s site).bgGen g + 1) % 256)) ∧
    ∀ n : Notice, (tileOf s site).stepPending = some n → clusterOn s (siteCluster site) = true →
      n.time + 128 * slotOf site ≤ localTime s site → regionOfSite s site = none → (tileOf s site).rtPending = [] →
      ∃ t, Answers (.tileReleaseSlot site) s t ∧ (tileOf t site).stepPending = none ∧ (tileOf t site).rot = [] ∧ (tileOf t site).passNo = 0 ∧
        (tileOf t site).step = (tileOf s site).step + 1 ∧
        (∀ c : CoreId, (coreOf (tileOf s site) c).status = .halted → (coreOf (tileOf s site) c).trapDue = none →
          GoodTarget (coreOf (tileOf s site) c).entry.toNat →
          (coreOf (tileOf t site) c).status = .running ∧ (coreOf (tileOf t site) c).pc = (coreOf (tileOf s site) c).entry.truncate 16) ∧
        ∀ c : CoreId, (coreOf (tileOf s site) c).status = .running → coreOf (tileOf t site) c = coreOf (tileOf s site) c

/-- A release notice reaches its tile or regulator once; at its slot the pending ARRIVE completes or the release is missed: the two statements named here. -/
def Obligations.BarrierReleasesReachTheirTiles : Prop := Sys2Proof.Machine.ReleaseNoticesReachTheirReceivers ∧ Sys2Proof.Machine.TilesAreReleasedAtTheirSlot

/-- R236: clearing EN of a group that is not armed refuses its pending arrivals and restarts its count and generation at 0. -/
def Sys2Proof.Machine.ClearedGroupsStartAfresh : Prop :=
  ∀ (master : Master) (g : Fin 64) (s : State), (master.toNat < 2 ∨ (0x010 ≤ master.toNat ∧ master.toNat < 0x01C)) → bgEn s g = true →
    (groupOf s g).deferredClear = false → regBit s (bgReg g 4) 20 = false → rfld (bgCfg s g) 1 2 ≠ 3 →
    ∃ t, Answers (.bgEnClear master g (bgCfg s g &&& 0xFFFFFFFE)) s t ∧ bgEn t g = false ∧ bgGenOf t g = 0 ∧
      rfld (regGet t (bgReg g 4)) 0 12 = 0 ∧ (groupOf t g).arrived = [] ∧ (groupOf t g).pendingArrive = [] ∧
      ∀ (x : Site) (e : QEntry) (es : List QEntry) (gen : Nat), (groupOf s g).pendingArrive = [(x, gen)] →
        (tileOf s x).syncQ.entries = e :: es → e.prog = .running → dKind e.desc = 5 → dOp e.desc = 3 → syncCount e.desc % 64 = g.val →
        HeadProg t x .sync e (.done 0x0D)

/-- Arrivals of a generation are counted and arm a count-driven group; clearing EN refuses pending arrivals and restarts the count: the two statements named here. -/
def Obligations.BarrierGroupsCountAndClear : Prop := Sys2Proof.Machine.BarrierArrivalsCountAndArm ∧ Sys2Proof.Machine.ClearedGroupsStartAfresh

namespace Sys2Proof.Machine

/-- The state a request (0 OFF, 1 RETAIN, 3 ON) gives a bank at an instant, by the table of R148. -/
def bankNext (now : Nat) : BankState → Nat → BankState
  | .on, 1 => .retain
  | .on, 0 => .off
  | .on, _ => .on
  | .retain, 3 => .wake now
  | .retain, 0 => .off
  | .retain, _ => .retain
  | .off, 0 => .off
  | .off, _ => .fill now
  | .wake t, _ => .wake t
  | .fill t, _ => .fill t

/-- Whether a byte address of the scratchpads lies in a bank of a tile. -/
abbrev InBank (site bank b : Nat) : Prop := (site * 8 + bank) * 532480 ≤ b ∧ b < (site * 8 + bank + 1) * 532480

end Sys2Proof.Machine

/-- R148, R173: a write of SP_PWR takes every bank it names through the table of R148 and leaves the others and their contents; WAKE and FILL end in the state last requested, a fill with every row zero and clean. -/
def Obligations.BanksFollowTheirPowerTable : Prop :=
  ∀ (site : Site) (s : State), clusterOn s (siteCluster site) = true →
    (∀ (master : Master) (v : BitVec 32), siteHeld s site = false →
      ∃ t, Answers (.bankPowerRequest master site v) s t ∧ ∀ b, b < 8 →
        (v.toNat / 2 ^ (16 + 2 * b) % 4 = 3 → v.toNat / 2 ^ (2 * b) % 4 ≠ 2 →
          bankState t site b = bankNext (now s) (bankState s site b) (v.toNat / 2 ^ (2 * b) % 4)) ∧
        (v.toNat / 2 ^ (16 + 2 * b) % 4 = 0 →
          bankState t site b = bankState s site b ∧ ∀ a, InBank site b a → mget 0 t.spad a = mget 0 s.spad a)) ∧
    (∀ (b : Fin 8) (since : Nat), siteHeld s site = false → bankState s site b = .wake since → since + 3200 ≤ now s → bankWanted s site b = 3 →
      ∃ t, Answers (.bankWakeDone site b) s t ∧ bankState t site b = .on ∧ t.spad = s.spad ∧ t.spadTag = s.spadTag) ∧
    ∀ (b : Fin 8) (since : Nat), siteHeld s site = false → bankState s site b = .fill since → 1024 ≤ (now s - since) * clusterMHz s (siteCluster site) / 16000 →
      bankWanted s site b = 3 →
      ∃ t, Answers (.bankFillDone site b) s t ∧ bankState t site b = .on ∧
        (∀ a, InBank site b a → mget 0 t.spad a = 0) ∧ ∀ a, ¬ InBank site b a → mget 0 t.spad a = mget 0 s.spad a

/-- R152, R156 to R158: a write-back leaves the list and the pointer of its bank; a repair gives its row the lowest free spare, zero and clean, and leaves the candidates. -/
def Sys2Proof.Machine.RowsAreWrittenBackAndRepaired : Prop :=
  ∀ (site : Site) (s : State),
    (∀ (b : Fin 8) (w : BitVec 13 × Nat), (tileOf s site).writebacks.find? (fun w => decide (bankOf w.1.toNat = b.val)) = some w →
      bankState s site b = .on → siteHeld s site = false →
      ∃ t, Answers (.eccWriteback site b) s t ∧ (tileOf t site).writebacks = (tileOf s site).writebacks.erase w ∧
        mget 0 (tileOf t site).rot b = 0 ∧ t.spad = s.spad) ∧
    ∀ (row : BitVec 13) (e : Nat), clusterOn s (siteCluster site) = true → siteHeld s site = false → regBit s (spadReg site 0) 0 = false →
      row ∈ (tileOf s site).repairs → freeRemap s site (bankOf row.toNat) = some e →
      ∃ t, Answers (.spRowRemapInstall site row) s t ∧ (tileOf t site).repairs = (tileOf s site).repairs.erase row ∧
        regGet t (spadReg site (0x100 + 64 * bankOf row.toNat + 4 * e)) = BitVec.ofNat 32 (row.toNat % 1024 + 2 ^ 15) ∧
        (∀ i, i < 512 → mget 0 t.spad (((site * 8 + bankOf row.toNat) * 1040 + 1024 + e) * 512 + i) = 0) ∧
        rowTags t ((site * 8 + bankOf row.toNat) * 1040 + 1024 + e) = 0

/-- R196, R197: a CRC error of a link only counts at its receiver; a dead mesh link is marked at both ends and loses no packet. -/
def Sys2Proof.Machine.LinkErrorsLoseNoPacket : Prop :=
  (∀ (x : Site) (p : Fin 5) (s : State), clusterOn s (siteCluster x) = true →
    Answers (.flitCrcError (.mesh x p)) s (settlePins (regPut s (netReg x 0x024) (regGet s (netReg x 0x024) + 1)))) ∧
  (∀ (n : Field) (s : State), Answers (.flitCrcError (.hub n)) s (settlePins (regPut s (fieldReg n 0x028) (regGet s (fieldReg n 0x028) + 1)))) ∧
  ∀ (x : Site) (p : Fin 5) (y : Nat) (s : State), clusterOn s (siteCluster x) = true → meshNeighbour x p = some y →
    regBit s (netReg x 4) p = false → (∀ e ∈ (tileOf s x).rtPending, 0x100 ≤ e.1 ∧ e.1 < 0x240) →
    ∃ t, Answers (.meshLinkDown x p) s t ∧ regBit t (netReg x 4) p = true ∧ regBit t (netReg y 4) ((p.val + 2) % 4) = true ∧
      t.net.map (·.order) = s.net.map (·.order) ∧ t.spad = s.spad ∧ t.spadTag = s.spadTag

/-- Corrected words are written back once, repaired rows get a clean spare, and link errors lose no packet: the two statements named here. -/
def Obligations.RowRepairsAndLinkErrorsLoseNothing : Prop := Sys2Proof.Machine.RowsAreWrittenBackAndRepaired ∧ Sys2Proof.Machine.LinkErrorsLoseNoPacket

/-- R250, R251, R253, R256: a clean row access at a backed HBM address writes exactly its 512 bytes, or reads them with their tags, and is answered OK; an address that no live stack backs changes no byte and is answered REMOTE_ERROR; an access to a stack that retrains waits (R262). -/
def Sys2Proof.Machine.HbmRowsAreReadAndWritten : Prop :=
  ∀ (n : Nat) (p : Packet) (s : State), PacketArrives s n p → targetOf s p.addr = .hbm → p.addr % 512 = 0 →
    (∀ (h off : Nat) (data : List Byte), hbmPlace s p.addr = some (h, off) → (stackRec s h).st ≠ .failed → (stackRec s h).retraining = false →
      p.kind = .writeRow data 0 → data.length = 512 →
      ∃ t q, Answers (.hbmAccess n .clean) s t ∧ memRead t.hbm (hbmKey h off) 512 = data ∧ findPacket t n = some q ∧ q.vc = 3 ∧
        q.kind = .answer 0 [] 0 ∧ ∀ b, ¬ (hbmKey h off ≤ b ∧ b < hbmKey h off + 512) → mget 0 t.hbm b = mget 0 s.hbm b) ∧
    (∀ h off : Nat, hbmPlace s p.addr = some (h, off) → (stackRec s h).st ≠ .failed → (stackRec s h).retraining = false →
      p.kind = .readRow → hbmZeroing s p.addr 512 = false →
      ∃ t q, Answers (.hbmAccess n .clean) s t ∧ t.hbm = s.hbm ∧ findPacket t n = some q ∧ q.vc = 3 ∧
        q.kind = .answer 0 (memRead s.hbm (hbmKey h off) 512) (hbmTags s (hbmKey h off))) ∧
    (hbmPlace s p.addr = none → isRow p = true →
      ∃ t q, Answers (.hbmAccess n .clean) s t ∧ t.hbm = s.hbm ∧ t.hbmTag = s.hbmTag ∧ findPacket t n = some q ∧ q.kind = .answer 0x0B [] 0) ∧
    (stackHolds s p.addr = true → Answers (.hbmAccess n .clean) s s)

/-- R257, R259 to R262: patrol goes to the next sector and an uncorrectable one becomes stored poison; a refresh notes its instant and temperature; zeroing leaves a stack's part of its ranges zero, and the ranges free once every stack is done; a retrained stack serves again. -/
def Sys2Proof.Machine.HbmUpkeepActs : Prop :=
  ∀ (h : Stack) (s : State),
    ((stackRec s h).st = .up → (stackRec s h).retraining = false → dnum s 0x4000 0x14 ≠ 0 → (patrolRunning s h).isSome = true →
      let off := dnum s (0x4000 + h) 0x0D
      patrolDue s h off ≤ now s →
      let next := if off + 64 < 128 * 2 ^ 30 then off + 64 else 0
      (hbmTagAt s (hbmKey h off) 0 = false → ∃ t, Answers (.patrolRead h .clean) s t ∧ dnum t (0x4000 + h) 0x0D = next ∧ t.hbm = s.hbm ∧ t.hbmTag = s.hbmTag) ∧
      ∃ t, Answers (.patrolRead h { HbmFind.clean with bad := [0] }) s t ∧ dnum t (0x4000 + h) 0x0D = next ∧ hbmTagAt t (hbmKey h off) 0 = true ∧ t.hbm = s.hbm) ∧
    (∀ (bank : Fin 8192) (celsius : Int) (wait : Nat), (stackRec s h).st = .up → mget 0 (stackRec s h).lastRefresh bank.val + (if celsius ≤ 85 then 62400 else 31200) ≤ now s →
      -2147483648 ≤ celsius → celsius < 2147483648 →
      ∃ t, Answers (.hbmRefresh ⟨h, bank⟩ celsius wait) s t ∧ mget 0 (stackRec t h).lastRefresh bank.val = now s ∧
        (∀ b, b ≠ bank.val → mget 0 (stackRec t h).lastRefresh b = mget 0 (stackRec s h).lastRefresh b) ∧ dint t (0x4000 + h) 0x0C = celsius ∧
        dnum t (0x4000 + h) 0x10 = (dnum s (0x4000 + h) 0x10 + wait) % 2 ^ 64 ∧ t.hbm = s.hbm) ∧
    (∀ (lanes : Nat), (stackRec s h).retraining = true →
      ∃ t, Answers (.hbmRetrain h lanes 0) s t ∧ (stackRec t h).retraining = false ∧ (stackRec t h).st = (stackRec s h).st ∧
        dnum t (0x4000 + h) 0x06 = (dnum s (0x4000 + h) 0x06 + lanes) % 2 ^ 16 ∧ t.hbm = s.hbm) ∧
    ∀ r : RegionId, (∃ z ∈ s.hbmZero, zeroPart r h z = true) → (stackRec s h).st = .up → (stackRec s h).retraining = false →
      let inside (z : ZeroRec) (k : Nat) : Prop := k / (128 * gib) = h.val ∧ z.range.1 ≤ keyAddr s k ∧ keyAddr s k < z.range.1 + z.range.2
      ∃ t, Answers (.hbmZeroingDone ⟨r, h⟩) s t ∧ (∀ z ∈ t.hbmZero, zeroPart r h z = false ∧ z.left ≠ []) ∧
        (∀ c ∈ t.hbm, ∀ z ∈ s.hbmZero, zeroPart r h z = true → ¬ inside z c.1) ∧
        (∀ c ∈ s.hbm, (∀ z ∈ s.hbmZero, zeroPart r h z = true → ¬ inside z c.1) → c ∈ t.hbm)

/-- HBM row accesses write or read exactly their bytes; patrol, refresh, retraining and zeroing change what they name: the two statements named here. -/
def Obligations.HbmRowsAndUpkeepKeepOtherBytes : Prop := Sys2Proof.Machine.HbmRowsAreReadAndWritten ∧ Sys2Proof.Machine.HbmUpkeepActs

namespace Sys2Proof.Machine

/-- The command answers a request frame: its response leaves, and what waited for it starts. -/
abbrev Replies (c : Instr) (f : Frame) (s a : State) (r : Response) : Prop :=
  exec c s = .next (settlePins (pump f.session.toNat 256 (finish a f.session.toNat f.seq r)))

/-- The object write that a command is: its frame, object, value and the host's buffer. -/
def writeOf : Instr → Option (Frame × Nat × Nat × List Byte × List JRecord)
  | .write a i b v => some (a.frame, i.toNat, b.toNat, v, a.buffer)
  | .hoodLoadRequest f v => some (f, 0x3200, 0x01, v, [])
  | .hoodUnload f v => some (f, 0x3200, 0x02, v, [])
  | .adapterLoadRequest f v => some (f, 0x3300, 0x01, v, [])
  | .adapterUnload f v => some (f, 0x3300, 0x02, v, [])
  | .configure f r => some (f, 0x3100 + r, 0x02, [1], [])
  | .stage f r => some (f, 0x3100 + r, 0x02, [2], [])
  | .serve f r => some (f, 0x3100 + r, 0x02, [3], [])
  | .drain f r => some (f, 0x3100 + r, 0x02, [4], [])
  | .kill f r => some (f, 0x3100 + r, 0x02, [5], [])
  | .release f r => some (f, 0x3100 + r, 0x02, [6], [])
  | .profileRequest f v => some (f, 0x3600, 0x01, v, [])
  | .surplusAssignment f v => some (f, 0x3600, 0x05, v, [])
  | .generatorInput f v => some (f, 0x3600, 0x12, v, [])
  | .hostAcknowledged f v => some (f, 0x3600, 0x0E, v, [])
  | .replayRequest f v b => some (f, 0x3600, 0x0F, v, b)
  | .ppsSeconds f v => some (f, 0x2200, 0x15, v, [])
  | .pointRequest f v => some (f, 0x2200, 0x0B, v, [])
  | .powerRequest f z v => some (f, 0x2010 + z, 0x08, v, [])
  | .groupEnable f v => some (f, 0x2100, 0x01, v, [])
  | .portEnable f p v => some (f, 0x1100 + p, 0x02, v, [])
  | .protocolLogClear f v => some (f, 0x1200, 0x05, v, [])
  | .windowAccessWrite f v => some (f, 0x6000, 0x02, v, [])
  | .errorLogClear f v => some (f, 0x5000, 0x06, v, [])
  | .ownerInstall f v => some (f, 0x5800, 0x08, v, [])
  | .ownerRevoke f v => some (f, 0x5800, 0x09, v, [])
  | .debugUnlock f v => some (f, 0x5800, 0x0A, v, [])
  | .relock f v => some (f, 0x5800, 0x0B, v, [])
  | .attestationNonce f v => some (f, 0x5820, 0x01, v, [])
  | .ciphertext f v => some (f, 0x5840, 0x03, v, [])
  | .wrappedKey f v => some (f, 0x5840, 0x04, v, [])
  | .twinModeRequest f v => some (f, 0x4800, 0x01, v, [])
  | .homesWrite f v => some (f, 0x4800, 0x08, v, [])
  | .pounceRequest f v => some (f, 0x5100, 0x01, v, [])
  | _ => none

/-- The object read that a command is, with what an access through the register window meets. -/
def readOf : Instr → Option (Frame × Nat × Nat × WindowFind)
  | .read a i b => some (a.frame, i.toNat, b.toNat, a.find)
  | .windowAccessRead a => some (a.frame, 0x6000, 0x02, a.find)
  | .nonceRead f => some (f, 0x5800, 0x06, .clean)
  | _ => none

/-- The segment of a BLOCK_WRITE that a command is, with the host's buffer. -/
def segmentOf : Instr → Option (Frame × Segment × List JRecord)
  | .blockWrite a g => some (a.frame, g, a.buffer)
  | .firmwareImage f g => some (f, { g with idx := 0x5810, sub := 0 }, [])
  | _ => none

end Sys2Proof.Machine

/-- R407 to R410, R413, R436, R443, R444: a frame in order is answered once, by one response of its sequence that its session keeps until the host acknowledges it; what each request answers. -/
def Obligations.RequestsAreAnsweredOnce : Prop :=
  ∀ (f : Frame) (s : State) (x : Session), FrameReady f s x →
    let n := f.session.toNat
    let a := arrived f s x
    let c := frameCaller f x
    (∀ r : Response, let t := finish a n f.seq r
      t.out = s.out ++ [.odp f.port n f.seq f.seq r] ∧ t.regions = s.regions ∧ t.orders = s.orders ∧ t.hoods = s.hoods ∧ t.regs = s.regs ∧
      ∃ y, sessionOf t n = some y ∧ y.started = [] ∧ y.received = f.seq ∧ (f.seq, r) ∈ y.cache) ∧
    (∀ d : BitVec 64, Answers (.ping f d) s (settlePins (finish a n f.seq (response 0x03 0 (leBytes 8 d.toNat ++ leBytes 8 (now s)))))) ∧
    (∀ (i : Instr) (idx sub : Nat) (w : WindowFind), readOf i = some (f, idx, sub, w) →
      Replies i f s (readOne a c idx sub w).1 (response 0x10 (readOne a c idx sub w).2.1 (readOne a c idx sub w).2.2)) ∧
    (∀ (items : List ObjRef) (finds : List WindowFind), items.length ≤ 2000 →
      Replies (.readGroup ⟨f, finds⟩ items) f s (readGroup a c items finds).1 (response 0x12 (readGroup a c items finds).2.1 (readGroup a c items finds).2.2)) ∧
    (∀ (i : BitVec 16) (b : BitVec 8) (offset len : Nat) (w : WindowFind), let r := blockPiece a c i.toNat b.toNat offset len w
      Replies (.blockRead ⟨f, [w]⟩ i b offset len) f s r.1 (response 0x14 r.2.1 r.2.2)) ∧
    (∀ (mask : BitVec 32) (ws : List ObjRef), ws.length ≤ 2000 →
      Replies (.subscribe f mask ws) f s (subscribe a c mask ws).1 (response 0x20 (subscribe a c mask ws).2 [])) ∧
    (∀ (tag : BitVec 32) (rel : Bool) (offset len : Nat), let r := completeHeld a tag rel offset len
      (x.role = 2 → Replies (.complete f tag rel offset len) f s a (response 0x32 0xA601 [])) ∧
      (x.role ≠ 2 → Replies (.complete f tag rel offset len) f s r.1 (response 0x32 r.2.1 r.2.2))) ∧
    Answers (.sessionClose f) s (settlePins (closeSession (finish a n f.seq (response 0x02 0 [])) n))

/-- R20, R434, R436, R438, R439, R445: a write is checked first; one that fails changes nothing of its object and is answered with its status; one that passes takes effect and is answered OK, a journaled one after its WRITE record, at once in SOLO and else when the partner holds the record. A group takes effect whole or not at all. A value sent as one segment is a write. -/
def Obligations.WritesTakeEffectOrAreRefused : Prop :=
  ∀ (f : Frame) (s : State) (x : Session), FrameReady f s x →
    let a := arrived f s x
    let c := frameCaller f x
    (∀ (i : Instr) (idx sub : Nat) (v : List Byte) (aid : List JRecord), writeOf i = some (f, idx, sub, v, aid) → v.length ≤ 8252 →
      let k := writeChecked a c idx sub v aid
      let w := writeRecord k.1 idx sub v
      (k.2 ≠ 0 → Replies i f s k.1 (response 0x11 k.2 [])) ∧
      (k.2 = 0 → journaledObj idx sub = false → Replies i f s (writeApply k.1 c idx sub v aid) (response 0x11 0 [])) ∧
      (k.2 = 0 → journaledObj idx sub = true → twinSolo w = true →
        Replies i f s (writeApply w (callerOf w c.session) idx sub v aid) (response 0x11 0 [])) ∧
      (k.2 = 0 → journaledObj idx sub = true → twinSolo w = false → ∃ d : Deferred,
        d.session = c.session ∧ d.seq = f.seq ∧ d.upTo = w.journal.next ∧ d.response = response 0x11 0 [] ∧
        d.writes = [⟨BitVec.ofNat 16 idx, BitVec.ofNat 8 sub, v⟩] ∧
        exec i s = .next (settlePins (pump c.session 256 { w with deferred := w.deferred ++ [d] })))) ∧
    (∀ (ws : List ObjWrite) (aid : List JRecord), requestLength (.writeGroup ws aid) ≤ 8256 → ws ≠ [] → ws.length ≤ 32 →
      (∀ (i st : Nat), groupFails c aid ws [] 0 a = some (i, st) →
        Replies (.writeGroup ⟨f, aid⟩ ws) f s (groupTraces c aid (ws.take (i + 1)) a) ⟨0x13, BitVec.ofNat 16 st, leBytes 2 i⟩) ∧
      (groupFails c aid ws [] 0 a = none → (ws.all fun w => !journaledObj w.idx.toNat w.sub.toNat) = true →
        (∀ w ∈ ws, w.idx ≠ 0) →
        Replies (.writeGroup ⟨f, aid⟩ ws) f s
          (ws.foldl (fun s w => writeApply s (callerOf (groupTraces c aid ws a) c.session) w.idx.toNat w.sub.toNat w.value aid) (groupTraces c aid ws a))
          (response 0x13 0 []))) ∧
    ∀ (i : Instr) (g : Segment) (aid : List JRecord), segmentOf i = some (f, g, aid) → g.data.length ≤ 8192 →
      let st := firstOf [indexCheck g.idx.toNat g.sub.toNat, roleCheck c g.idx.toNat g.sub.toNat true, accessCheck a g.idx.toNat g.sub.toNat g.data]
      (st ≠ 0 → Replies i f s a (response 0x15 st [])) ∧
      (st = 0 → segmentFits g = true → g.first = true → g.last = true → x.transfers = [] →
        let k := writeCheck a c g.idx.toNat g.sub.toNat g.data aid
        (k.2 ≠ 0 → Replies i f s k.1 (response 0x15 k.2 [])) ∧
        (k.2 = 0 → journaledObj g.idx.toNat g.sub.toNat = false →
          Replies i f s (writeApply k.1 c g.idx.toNat g.sub.toNat g.data aid) (response 0x15 0 []))) ∧
      (st = 0 → segmentFits g = true → g.first = true → g.last = false → x.transfers = [] →
        Replies i f s (modSession a c.session fun y => { y with transfers := [⟨g.idx, g.sub, g.total, g.data, now s⟩] }) (response 0x15 0 []))

namespace Sys2Proof.Machine

/-- Every other region keeps its record. -/
abbrev OtherRegionsKept (s t : State) (r : Nat) : Prop := ∀ q, q ≠ r → regionOf t q = regionOf s q

end Sys2Proof.Machine

/-- R275, R276, R278: the commands of a region, which states take them and what they make of it; the write that carries one is answered as every write is. -/
def Obligations.RegionCommandsMoveTheRegion : Prop :=
  ∀ (r : RegionId) (s : State) (c : Caller),
    let st := (regionOf s r).state
    let go (cmd : Nat) : State := writeApply s c (0x3100 + r) 0x02 [BitVec.ofNat 8 cmd] []
    (commandCheck s r 3 = if st = .ready then 0 else 0xA401) ∧ (commandCheck s r 4 = if st = .serving then 0 else 0xA401) ∧
    (commandCheck s r 5 = if st = .free ∨ st = .scrub ∨ st = .held then 0xA401 else 0) ∧
    (commandCheck s r 6 = if st = .held then 0 else 0xA401) ∧
    (commandCheck s r 1 = 0 → (st = .free ∨ st = .holed) ∧ clusterSetOk s r = true) ∧
    (commandCheck s r 2 = 0 → st = .configured ∨ st = .ready ∨ st = .serving) ∧
    go 3 = setRegion s r { regionOf s r with state := .serving } ∧ go 4 = setRegion s r { regionOf s r with state := .draining } ∧
    (commandCheck s r 1 = 0 →
      (regionOf (go 1) r).state = .configured ∧ (regionOf (go 1) r).set = dget s (0x3100 + r) 0x03 ∧
      (regionOf (go 1) r).slotA = .empty ∧ (regionOf (go 1) r).slotB = .empty ∧ (regionOf (go 1) r).stepNo = 0 ∧
      poolFor s r = some (regionOf (go 1) r).kvRange ∧ OtherRegionsKept s (go 1) r ∧
      (∀ i, i < 4 → fmOwner (go 1) (setField s r) ((regionOf (go 1) r).fmBase + i) = r) ∧
      ∀ x ∈ regionSites (go 1) r, (tileOf (go 1) x).sems = [] ∧ (tileOf (go 1) x).keySlots = [] ∧ (tileOf (go 1) x).baseSlots = []) ∧
    (OtherRegionsKept s (go 2) r ∧ (regionOf (go 2) r).stageStatus = 0 ∧
      (regionOf (go 2) r).state = (if st = .serving then .serving else .staging) ∧
      ∀ i ∈ stageSlots s r, slotStateOf (regionOf (go 2) r) i = .staging ∧ slotHood (regionOf (go 2) r) i = namedHood s r i % 65536) ∧
    (st = .holed → regionOf (go 5) r = { Region.reset with killCause := (regionOf s r).killCause, params := writtenParams (go 5) r }) ∧
    (st ≠ .holed → (regionOf (go 5) r).state = (if dnum s (0x3100 + r) 0x10 = 1 then .held else .scrub) ∧
      (regionOf (go 5) r).killCause = 1 ∧ (regionOf (go 5) r).batch = none ∧ (∀ o ∈ (go 5).orders, o.region ≠ r) ∧
      (∀ x ∈ regionSites s r, (tileOf (go 5) x).core0.status = .halted ∧ (tileOf (go 5) x).core1.status = .halted ∧ (tileOf (go 5) x).sems = []) ∧
      ∀ n : Fin 64, bgRegion s n = r.val → bgEn (go 5) n = false) ∧
    (regionOf (go 6) r).state = .scrub ∧ OtherRegionsKept s (go 6) r

/-- R165 to R168, R276, R281: a slot whose staging ends well is ready to run and one that fails empties it with its cause; a drained region is READY; a scrubbed region leaves its tiles clean and is FREE, or HOLED when its set is no longer whole. -/
def Sys2Proof.Machine.RegionWorkEndsAsItsStateSays : Prop :=
  ∀ (r : RegionId) (s : State),
    let g := regionOf s r
    (∀ i : Fin 2, g.state = .staging → g.stageMask = BitVec.ofNat 2 (2 ^ i.val) → g.adopted = false →
      slotStateOf g i = .staging → slotStateOf g (1 - i.val) = .empty → stagingHeld s r i = false →
      ∃ t, Answers (.stagingComplete r i) s t ∧ OtherRegionsKept s t r ∧ t.orders = s.orders ∧
        (slotVerdict s r i = 0 → (regionOf t r).state = .ready ∧ slotStateOf (regionOf t r) i = .active ∧
          slotHood (regionOf t r) i = slotHood g i ∧ (regionOf t r).stageMask = 0 ∧ (regionOf t r).stagingLeft = 0) ∧
        (slotVerdict s r i ≠ 0 → (regionOf t r).state = .configured ∧ slotStateOf (regionOf t r) i = .empty ∧
          (regionOf t r).stageStatus = slotVerdict s r i ∧ t.spad = s.spad ∧ t.imem = s.imem)) ∧
    (g.state = .draining → regionOrders s r = [] → g.batch = none →
      Answers (.drainComplete r) s (settlePins (setRegion s r { g with state := .ready }))) ∧
    (g.state = .scrub → g.fmBase ≤ 124 → ∃ t, Answers (.scrubDone r) s t ∧ OtherRegionsKept s t r ∧
      (∀ x ∈ regionSites s r, (tileOf t x).unscrubbed = false ∧ (tileOf t x).keySlots = [] ∧
        (∀ b, x * 65536 ≤ b → b < (x + 1) * 65536 → mget 0 t.imem b = 0) ∧ ∀ k b, k < 8 → InBank x k b → mget 0 t.spad b = 0) ∧
      ((∀ lc ∈ regionLcs s r, (clusterOfLc s lc).isSome = true) → regionOf t r = { Region.reset with killCause := g.killCause, params := writtenParams t r }) ∧
      ((∃ lc ∈ regionLcs s r, clusterOfLc s lc = none) → regionOf t r = { Region.reset with state := .holed, killCause := g.killCause, set := g.set, params := g.params }))

/-- R272 to R274, R285 to R288: what a load takes, how an image lands or is dropped with its status, and what an unload gives back. -/
def Sys2Proof.Machine.HoodsAndAdaptersAreLoadedAndUnloaded : Prop :=
  ∀ (s : State) (c : Caller),
    (∀ (given : List Byte) (aid : List JRecord), let v := takenValue 0x3200 0x01 given
      let id := leAt v 0 2
      ((hoodOf s id).state ≠ 0 → writeApply s c 0x3200 0x01 given aid = setLast s 0x3200 id 2) ∧
      ((hoodOf s id).state = 0 → 128 ≤ s.hoods.length → writeApply s c 0x3200 0x01 given aid = setLast s 0x3200 id 3) ∧
      (∀ (p : Range) (qp : Nat), (hoodOf s id).state = 0 → s.hoods.length < 128 →
        hbmFree s (decide (leAt v 2 1 = 1)) (leAt v 3 1) (leAt v 8 8) = some p → dataQp s c.session = some qp → qpOk s qp = true →
        let t := writeApply s c 0x3200 0x01 given aid
        hoodOf t id = { HoodRec.none with state := 1, request := v, base := p.1, len := p.2, qp := some qp } ∧ t.hbmAlloc = s.hbmAlloc ++ [p] ∧
        t.out = s.out ++ [.rdmaRead qp (BitVec.ofNat 64 (leAt v 16 8)) (BitVec.ofNat 32 (leAt v 24 4)) (leAt v 8 8)] ∧
        dget t 0x3200 0x03 = leBytes 2 id ++ leBytes 1 1 ++ [0] ∧ ∀ j, j ≠ id → hoodOf t j = hoodOf s j)) ∧
    (∀ (id : BitVec 16) (b : Option (List Byte)), (hoodOf s id.toNat).state = 1 →
      rangeHolds s ((hoodOf s id.toNat).base, (hoodOf s id.toNat).len) = false →
      ∃ t, Answers (.hoodImageFetched id b) s t ∧ ((hoodOf s id.toNat).image = [] → t.regions = s.regions) ∧ t.orders = s.orders ∧ (∀ j, j ≠ id.toNat → hoodOf t j = hoodOf s j) ∧
        match b with
        | none => hoodOf t id.toNat = HoodRec.none ∧ dget t 0x3200 0x03 = leBytes 2 id.toNat ++ leBytes 1 4 ++ [0]
        | some image => dget t 0x3200 0x03 = leBytes 2 id.toNat ++ leBytes 1 (imageVerdict s image).1 ++ [0] ∧
          ((imageVerdict s image).1 ≠ 0 → hoodOf t id.toNat = HoodRec.none) ∧
          ((imageVerdict s image).1 = 0 → (hoodOf t id.toNat).state = 2 ∧ (hoodOf t id.toNat).image = image ∧
            (hoodOf t id.toNat).base = (hoodOf s id.toNat).base)) ∧
    (∀ (id : BitVec 16) (b : Option (List Byte)), (adapterOf s id.toNat).state = 1 →
      rangeHolds s ((adapterOf s id.toNat).base, (adapterOf s id.toNat).len) = false →
      ∃ t, Answers (.adapterImageFetched id b) s t ∧ t.regions = s.regions ∧ t.hoods = s.hoods ∧ (∀ j, j ≠ id.toNat → adapterOf t j = adapterOf s j) ∧
        match b with
        | none => adapterOf t id.toNat = AdapterRec.none ∧ dget t 0x3300 0x03 = leBytes 2 id.toNat ++ leBytes 1 4 ++ [0]
        | some image =>
          let v := adapterVerdict s (adapterOf s id.toNat).hood.toNat image
          dget t 0x3300 0x03 = leBytes 2 id.toNat ++ leBytes 1 v ++ [0] ∧ (v ≠ 0 → adapterOf t id.toNat = AdapterRec.none) ∧
          (v = 0 → adapterOf t id.toNat = { adapterOf s id.toNat with state := 2, image := image })) ∧
    (∀ (v : List Byte) (aid : List JRecord), (hoodUnloadCheck s (leNat v) = 0 → hoodRegions s (leNat v) = [] ∧ hoodOrders s (leNat v) = []) ∧
      hoodOf (writeApply s c 0x3200 0x02 v aid) (leNat v) = HoodRec.none ∧
      ∀ j, j ≠ leNat v → hoodOf (writeApply s c 0x3200 0x02 v aid) j = hoodOf s j) ∧
    ∀ (v : List Byte) (aid : List JRecord), (adapterUnloadCheck s (leNat v) = 0 → adapterOrders s (leNat v) = []) ∧
      adapterOf (writeApply s c 0x3300 0x02 v aid) (leNat v) = AdapterRec.none ∧
      (∀ e ∈ (writeApply s c 0x3300 0x02 v aid).caches, e.adapter.toNat ≠ leNat v) ∧
      ∀ j, j ≠ leNat v → adapterOf (writeApply s c 0x3300 0x02 v aid) j = adapterOf s j

/-- Staging, draining and scrubbing end in the states of R276; hoods and adapters load, land with their status, and unload: the two statements named here. -/
def Obligations.RegionsAndImagesReachTheirStates : Prop := Sys2Proof.Machine.RegionWorkEndsAsItsStateSays ∧ Sys2Proof.Machine.HoodsAndAdaptersAreLoadedAndUnloaded

/-- R20, R287, R296, R297, R300: a SUBMIT is refused with the first failing check and nothing entered, or its order is journaled and entered as PENDING with its context read; CANCEL closes an order that has not started, marks one that runs, and leaves all else; a context or adapter copy that lands makes the order ELIGIBLE, and one that fails closes it. -/
def Obligations.OrdersAreAcceptedLandAndAreCancelled : Prop :=
  ∀ (s : State),
    (∀ (f : Frame) (x : Session), FrameReady f s x → x.role ≠ 2 →
      let n := f.session.toNat
      let a := arrived f s x
      (∀ b : List Byte, b.length = 128 → resentOrder a b = none → submitCheck a n b ≠ 0 →
        ∃ t, Answers (.submit f b) s t ∧ t.orders = s.orders ∧ t.regions = s.regions ∧ t.journal = s.journal ∧
          .odp f.port n f.seq f.seq (response 0x30 (submitCheck a n b) []) ∈ t.out) ∧
      (∀ (b : List Byte) (r qp : Nat), b.length = 128 → resentOrder a b = none → submitCheck a n b = 0 → recKind b ≠ 6 → twinSolo s = true →
        chooseRegion a b = some r → recContext b + recCont b ≠ 0 → dataQp s n = some qp → qpOk s qp = true →
        ∃ t o, Answers (.submit f b) s t ∧ findOrder t (BitVec.ofNat 32 (leAt b 0 4)) = some o ∧
          o.record = withRegion b r ∧ o.region = r ∧ o.session = n ∧ o.state = .pending ∧ o.landed = false ∧ o.accepted = now s ∧
          (regionOf t r).kvCommitted = (regionOf s r).kvCommitted + rangeBytes ((kvSlots s r b).getD []) ∧
          o.slots = (kvSlots s r b).getD [] ∧ o.processed = 0 ∧
          (∃ e ∈ t.journal.entries, e.record.type = 1 ∧ e.record.payload = withRegion b r) ∧
          (∀ p ∈ s.orders, p ∈ t.orders) ∧
          .rdmaRead qp (BitVec.ofNat 64 (leAt b 16 8)) (BitVec.ofNat 32 (leAt b 24 4)) (4 * (recContext b + recCont b)) ∈ t.out) ∧
      (∀ target : BitVec 32, jRoom a 5 false = true → twinSolo s = true →
        (findOrder s target = none → ∃ t, Answers (.cancel f target) s t ∧ t.orders = s.orders ∧ t.regions = s.regions) ∧
        (∀ o, findOrder s target = some o → (o.state = .pending ∨ o.state = .eligible) →
          ∃ t, Answers (.cancel f target) s t ∧ findOrder t target = none ∧ (∀ p ∈ s.orders, p.tag ≠ target → p ∈ t.orders) ∧
            (o.shadowOnly = false → dnum t 0x3400 0x05 = (dnum s 0x3400 0x05 + 1) % 2 ^ 64)) ∧
        (∀ o, findOrder s target = some o → o.state = .running →
          ∃ t, Answers (.cancel f target) s t ∧ findOrder t target = some { o with cancelPending := true } ∧ t.regions = s.regions))) ∧
    (∀ (tag : BitVec 32) (o : Order) (ts : List (BitVec 32)), findOrder s tag = some o → o.state = .pending → o.landed = false →
      (∃ t, Answers (.contextLanded tag none) s t ∧ findOrder t tag = none ∧ ∀ p ∈ s.orders, p.tag ≠ tag → p ∈ t.orders) ∧
      (ts.length = recContext o.record + recCont o.record → landingHeld s o ts.length = false →
        ∃ t o', Answers (.contextLanded tag (some ts)) s t ∧ findOrder t tag = some o' ∧ o'.context = o.prefixTokens ++ ts ∧ o'.landed = true ∧
          o'.processed = o.prefixTokens.length ∧ o'.record = o.record ∧ o'.state = (if o.fieldsLeft = [] then .eligible else .pending))) ∧
    ∀ (tag : BitVec 32) (n : Field) (o : Order), findOrder s tag = some o → n.val ∈ o.fieldsLeft →
      rangeHolds s ((adapterOf s (recAdapter o.record)).base, (adapterOf s (recAdapter o.record)).len) = false →
      ∃ t o', Answers (.adapterCopied tag n) s t ∧ findOrder t tag = some o' ∧ o'.fieldsLeft = o.fieldsLeft.filter (fun k => decide (k ≠ n.val)) ∧
        o'.context = o.context ∧ (∀ e, cacheEntry s (recAdapter o.record) n = some e → { e with ready := true } ∈ t.caches) ∧ t.regions = s.regions

/-- R277, R282, R283, R298, R301, R302, R528 to R534: a close puts the written step values in force and fixes the batch with its allotments inside the budget; a release comes at an epoch at least the close lead later and goes to every tile; a step that ends clean ends its batch and journals its digest; a recovery step writes nothing; a step past its limit loses the region. -/
def Obligations.StepsCloseReleaseAndEnd : Prop :=
  ∀ (r : RegionId) (s : State),
    let g := regionOf s r
    (∀ (at_ i : Nat), closeInstant s r = some at_ → at_ ≤ now s → steppable s r = true → g.batch = none → g.recovering = [] →
      (∀ o ∈ regionOrders s r, o.cancelPending = false) → nextSlot s r = some i → batchMembers s r i ≠ [] →
      ∃ t b, Answers (.batchClose r) s t ∧ (regionOf t r).batch = some b ∧ b.slot = i ∧ b.closedAt = at_ ∧ b.releaseAt = none ∧
        b.members.map (·.1) = (batchMembers s r i).map (·.tag) ∧
        (b.members.map (·.2)).foldl (· + ·) 0 ≤ max b.members.length (dnum s (0x3100 + r) 0x0C) ∧
        (regionOf t r).params = writtenParams s r ∧
        (∀ m ∈ batchMembers s r i, m.state = .eligible → ∀ o ∈ t.orders, o.tag = m.tag → o.state = .running) ∧ OtherRegionsKept s t r) ∧
    (∀ b : Batch, g.batch = some b → b.releaseAt = none → steppable s r = true → g.pounceHold = false → jRoom s 512 true = true → admitsAcked s r = true →
      ∃ t trel k, Answers (.stepRelease r) s t ∧ trel = epochBase s r + k * stepPeriod s r ∧ b.closedAt + closeLead s r ≤ trel ∧ now s ≤ trel ∧
        (regionOf t r).batch = some { b with releaseAt := some trel, switching := false } ∧ (regionOf t r).lastRelease = trel ∧
        (regionOf t r).stepNo = (if b.recovery then g.stepNo else g.stepNo + 1) ∧ (regionOf t r).params = g.params ∧
        (∀ q, q ≠ r.val → { regionOf t q with marks := 0 } = { regionOf s q with marks := 0 }) ∧ t.orders = s.orders ∧
        (b.switching = false → (regionOf t r).tileNotices = noticeDsts (regionSites s r)) ∧
        (b.switching = true → slotStateOf (regionOf t r) b.slot = .active ∧ (regionOf t r).lastSwitch ≤ 28800)) ∧
    (∀ (b : Batch) (trel : Nat) (outs : List MemberOut), g.batch = some b → b.releaseAt = some trel → trel ≤ now s → allHalted s r = true → g.trapSeen = false →
      rangeHolds s g.kvRange = false →
      (b.recovery = false → g.cmdFault = false →
        (∀ o ∈ outs, o.logitsPoison = false ∧ o.bytesPoison = false ∧ o.pagesPoison = [] ∧ o.adapterPoison = false) →
        (∀ m ∈ b.members, ∀ o, findOrder s m.1 = some o → adapterLost s o = false ∧
          openPoisoned s o (memberStep s o m.2 (outOf outs m.1)).order.processed (outOf outs m.1) = false) →
        ∃ t, Answers (.stepEnd r outs) s t ∧ (regionOf t r).batch = none ∧ (regionOf t r).lastEnd = now s ∧ (regionOf t r).lastStep = now s - trel ∧
          (regionOf t r).stepNo = g.stepNo ∧ (regionOf t r).state = g.state ∧
          (∀ o ∈ t.orders, o.tag ∈ b.members.map (·.1) → o.tag ∉ g.recovering → o.latestStep = g.stepNo) ∧
          (∀ tag ∈ g.recovering, ∀ o, findOrder s tag = some o → findOrder t tag = some o) ∧
          ∀ q, q ≠ r.val → (regionOf t q).state = (regionOf s q).state ∧ (regionOf t q).batch = (regionOf s q).batch) ∧
      (b.recovery = true → ∃ t, Answers (.stepEnd r outs) s t ∧ (regionOf t r).batch = none ∧ (regionOf t r).heldUntil = now s ∧
        (regionOf t r).stepNo = g.stepNo ∧ t.journal = s.journal ∧
        t.orders.map (fun o => (o.tag, o.state, o.generated, o.resultBytes)) = s.orders.map fun o => (o.tag, o.state, o.generated, o.resultBytes))) ∧
    (steppable s r = true → g.recovering ≠ [] → g.batch = none → g.pounceHold = false → jRoom s 512 true = true →
      ∃ t b trel k, Answers (.recoveryStep r) s t ∧ (regionOf t r).batch = some b ∧ b.recovery = true ∧ b.releaseAt = some trel ∧
        trel = epochBase s r + k * max 1 (dnum s (0x3100 + r) 0x08) ∧ (regionOf t r).params = writtenParams s r ∧ now s ≤ trel ∧ (regionOf t r).stepNo = g.stepNo ∧ t.journal = s.journal ∧ t.orders = s.orders) ∧
    ∀ (b : Batch) (trel : Nat), g.batch = some b → b.releaseAt = some trel → trel + dnum s (0x3100 + r) 0x1B ≤ now s → steppable s r = true →
      ∃ t, Answers (.stepLimitExpiry r) s t ∧ (regionOf t r).killCause = 6 ∧ (regionOf t r).batch = none ∧
        ((regionOf t r).state = .scrub ∨ (regionOf t r).state = .held)

/-- R325, R328, R330, R331: a record's bytes and size; a new epoch opens at its multiple with a record of its own; compaction keeps every record not retired; the host stream writes the oldest record not yet streamed, whole, into the host's ring. -/
def Sys2Proof.Machine.JournalKeepsItsRecords : Prop :=
  (∀ r : JRecord, (jBytes r).length = jSize r ∧ jSize r % 8 = 0 ∧ leAt (jBytes r) 0 8 = r.time % 2 ^ 64 ∧ leAt (jBytes r) 8 8 = r.seq % 2 ^ 64) ∧
  (∀ s : State, s.journal.started = true → 0 < s.journal.period → (s.journal.epochAt / s.journal.period + 1) * s.journal.period ≤ unitTime s 11000 →
    jRoom s 16 true = true →
    ∃ t e, Answers .epochOpen s t ∧ t.journal.epoch = s.journal.epoch + 1 ∧ t.journal.epochAt = max (unitTime s 11000) (now s) ∧ t.journal.next = s.journal.next + 1 ∧
      t.journal.entries = s.journal.entries.dropWhile (jRetired s) ++ [e] ∧ e.record.type = 9 ∧ e.record.seq = s.journal.next ∧
      e.record.time = now s ∧ e.record.payload = leBytes 8 (s.journal.epoch + 1) ++ leBytes 8 s.journal.next ∧ t.orders = s.orders ∧ t.regions = s.regions) ∧
  (∀ s : State, jCap s - jUsed s < jCap s / 8 →
    ∃ t, Answers .journalCompaction s t ∧ (∀ e ∈ s.journal.entries, jRetired s e = false → e ∈ t.journal.entries) ∧
      (∀ e ∈ t.journal.entries, e ∈ s.journal.entries ∧ jRetired s e = false) ∧ t.journal.next = s.journal.next ∧ t.orders = s.orders) ∧
  ∀ (s : State) (e : JEntry) (qp : Nat), let cfg := dget s 0x3600 0x0D
    s.journal.entries.find? (fun x => !x.streamed) = some e → streamQp s = some qp → qpOk s qp = true → cfg.getD 16 0 = 1 → 0 < leAt cfg 12 4 →
    (((s.journal.entries.filter fun x => decide (x.record.seq ≤ e.record.seq) &&
      !(s.journal.hostAcked && decide (x.record.seq ≤ dnum s 0x3600 0x0E))).map fun x => jSize x.record).foldl (· + ·) 0 ≤ leAt cfg 12 4) →
    ∃ t, Answers .hostStreamWrite s t ∧ t.journal.streamedTo = s.journal.streamedTo + jSize e.record ∧
      t.out = s.out ++ (ringWrites (leAt cfg 0 8) (leAt cfg 12 4) s.journal.streamedTo (jBytes e.record)).map (fun w =>
        .rdmaWrite qp (BitVec.ofNat 64 w.1) (BitVec.ofNat 32 (leAt cfg 8 4)) w.2) ∧
      (ringWrites (leAt cfg 0 8) (leAt cfg 12 4) s.journal.streamedTo (jBytes e.record)).flatMap (·.2) = jBytes e.record ∧
      (∀ x ∈ t.journal.entries, x.record.seq = e.record.seq → x.streamed = true) ∧
      t.journal.entries.map (·.record) = s.journal.entries.map (·.record)

/-- R332 to R335: a VERIFY step leaves the device's orders and journal as they are, stops with the key's mismatch in state 4, compares the recorded digest, and goes on, matches or shows both digests. -/
def Sys2Proof.Machine.ReplayComparesEveryStep : Prop :=
  ∀ (s : State) (outs : List MemberOut) (d : JRecord) (pre later : List JRecord),
    s.replay.state = 1 → rpMode s.replay.request = 0 → s.replay.records.drop s.replay.at_ = pre ++ d :: later →
    (∀ r ∈ pre, isStepDigest r = false) → isStepDigest d = true → alignUp (s.replay.lastEnd + 6400) 2048 ≤ now s →
    ∃ t, Answers (.replayStep outs) s t ∧ t.orders = s.orders ∧ t.journal = s.journal ∧
      (profileExtended s = true → (∃ k ∈ s.replay.keys, k ≠ dget s 0x3600 0x03) → t.replay.state = 4 ∧ dnum t 0x3600 0x10 = 4) ∧
      ((profileExtended s = false ∨ ∀ k ∈ s.replay.keys, k = dget s 0x3600 0x03) →
        (rpFold pre (rpEnter s) = none → t.replay.state = 4) ∧
        ∀ (s1 s2 : State) (dig : List Byte), rpFold pre (rpEnter s) = some s1 → rpStep s1 d outs = (s2, dig) →
          (dig ≠ slice d.payload 20 32 → t.replay.state = 3 ∧
            dget t 0x3600 0x11 = leBytes 8 (leAt d.payload 0 8) ++ slice d.payload 20 32 ++ dig ++ leBytes 8 d.seq) ∧
          (dig = slice d.payload 20 32 → t.replay.state = if later.any isStepDigest then 1 else 2))

/-- Records are appended, compacted and streamed whole; a VERIFY replay step changes no order or journal and ends by its digest: the two statements named here. -/
def Obligations.JournalAndReplayKeepTheirRecords : Prop := Sys2Proof.Machine.JournalKeepsItsRecords ∧ Sys2Proof.Machine.ReplayComparesEveryStep

/-- R337 to R348, R453: device time is loaded once and never moves back; a discipline takes FREE to ACQUIRING and 16 good offsets to LOCKED; losses lead to HOLDOVER and UNTRUSTED; a reference that is lost is left when the other is there; time packets go out at their grid and correct local counters. -/
def Obligations.TimeFollowsItsReferences : Prop :=
  ∀ s : State,
    (∀ (p : Fin 2) (off interval : Int), s.time.enabled = true → timeSource s = 0 → (dnum s 0x1140 0x03).testBit p = true →
      Answers (.ptpSync p off false interval) s (settlePins (dcount s 0x1140 0x0E 4 1)) ∧
      (ownSource s 0 = true → dnum s 0x1140 0x06 = p.val →
        ∃ t, Answers (.ptpSync p off true interval) s t ∧ t.time.lastDiscipline = now t ∧ (s.time.loaded = true → now t = now s) ∧ now s ≤ now t ∧
          (s.time.st = .free → t.time.st = .acquiring ∧ t.time.good = 0 ∧ t.time.loaded = true ∧
            (s.time.loaded = false → (now t : Int) = now s + max 0 off)) ∧
          (s.time.st = .acquiring → s.time.loaded = true → t.time.good = (if off.natAbs ≤ 1600 then s.time.good + 1 else 0) ∧
            t.time.st = (if 16 ≤ t.time.good then .locked else .acquiring)) ∧
          (s.time.st = .locked → t.time.st = .locked ∧ t.time.rate.natAbs ≤ 50000 ∧ (off = 0 → t.time.rate = 0)))) ∧
    (∀ (d : Int), ∃ t, Answers (.ppsEdge d) s t ∧ t.time.ppsPresent = true ∧ t.time.ppsSecond = s.time.ppsSecond.map (· + 1)) ∧
    (∀ b : Bool, (if b then s.time.refB else s.time.refA) = true →
      ∃ t, Answers (.referenceLoss b) s t ∧ (if b then t.time.refB else t.time.refA) = false ∧
        (if b then t.time.refA else t.time.refB) = (if b then s.time.refA else s.time.refB) ∧ now t = now s ∧
        (s.time.st = .locked → (if b then s.time.refA else s.time.refB) = false → t.time.st = .holdover ∧ t.time.holdStart = some (now s)) ∧
        (refSelect s = 0 → s.time.useB = b → (if b then s.time.refA else s.time.refB) = true → t.time.useB = !b ∧
          dnum t 0x2200 0x12 = (dnum s 0x2200 0x12 + 1) % 2 ^ 32)) ∧
    (∀ (b : Bool) (since : Nat), (if b then s.time.refBGoodSince else s.time.refAGoodSince) = some since → since + 16000000000 ≤ now s →
      ∃ t, Answers (.referencePresent b) s t ∧ (if b then t.time.refB else t.time.refA) = true ∧ now t = now s ∧
        (s.time.st = .holdover ∨ s.time.st = .untrusted → now s < s.time.lastDiscipline + 48000000000 → t.time.st = .acquiring)) ∧
    (s.time.lastDiscipline + 48000000000 ≤ now s → timeSource s ≠ 2 →
      ∃ t, Answers .disciplineLoss s t ∧ t.time.st = (if s.time.st = .locked then .holdover else s.time.st) ∧ t.time.twinDiscipline = false) ∧
    (s.time.st = .holdover → dnum s 0x2200 0x0A ≤ holdoverElapsed s → ∃ t, Answers .holdoverExpiry s t ∧ t.time.st = .untrusted ∧ now t = now s) ∧
    (∀ (p : Fin 2) (m : AnnounceMsg), s.time.enabled = true → timeSource s = 0 → (dnum s 0x1140 0x03).testBit p = true →
      ∃ t, Answers (.announce p m true) s t ∧ dnum t 0x1140 0x06 = p.val ∧ dget t 0x1140 0x08 = slice m.grandmaster 0 8 ∧
        dint t 0x1140 0x0F = leInt (leIntBytes 4 m.utcOffset) ∧ t.time = s.time) ∧
    (∀ p : Fin 2, s.time.enabled = true → dnum s 0x1140 0x06 = p.val → Answers (.announceReceiptTimeout p) s
      (settlePins (dputNum s 0x1140 0x06 1 (if (dnum s 0x1140 0x03).testBit (1 - p.val) then 1 - p.val else 0xFF)))) ∧
    (∀ d : Int, s.time.enabled = true → timeSource s = 0 → dnum s 0x1140 0x06 ≠ 0xFF → Answers (.delayResp d) s (settlePins (dputInt s 0x1140 0x0B 8 d))) ∧
    (s.time.lastPacket + 16384 ≤ now s → s.boot.inReset = false → ∃ t k, Answers .timePacketSend s t ∧ k * 16384 ≤ now s ∧ now s < k * 16384 + 16384 ∧
      t.time.lastPacket = k * 16384 ∧ t.out = s.out ++ [.timePacket (k * 16384)]) ∧
    (∀ (u : TimeUnitId) (carried corr : Nat), unitAnswers s u = true → packetCame s u carried corr = true →
      let e : Int := ((carried + corr + linkDelayOf s u : Nat) : Int) - (unitTime s (unitKey u) : Nat)
      ∃ t, Answers (.timePacketReceive u carried corr) s t ∧ now t = now s ∧ (unitClock t u).missed = 0 ∧
        (unitTime t (unitKey u) : Int) = (if 64 < e then ((carried + corr + linkDelayOf s u : Nat) : Int) else (unitTime s (unitKey u) : Nat)) ∧
        (unitClock t u).held = decide (e < -64) ∧
        (e.natAbs ≤ 64 → ∀ n, 2048 ≤ n → ((unitClock t u).read (s.time.ticks + n) : Int) = (unitTime s (unitKey u) : Nat) + 8 * n + e) ∧
        dnum t 0x2200 0x10 = (if 64 < e.natAbs then (dnum s 0x2200 0x10 + 1) % 2 ^ 32 else dnum s 0x2200 0x10) ∧
        ∀ k, k ≠ unitKey u → unitTime t k = unitTime s k) ∧
    ∀ u : TimeUnitId, unitAnswers s u = true →
      ∃ t, Answers (.timePacketMissed u) s t ∧ unitClock t u = { unitClock s u with missed := (unitClock s u).missed + 1 } ∧ now t = now s ∧
        (∀ k, unitTime t k = unitTime s k) ∧ ((unitClock s u).missed ≠ 3 → t.errBuf = s.errBuf)

/-- R354, R358 to R360, R381, R389 to R392: a requested point takes effect at an aligned instant at least 100 µs ahead; setpoints rise before it; at the instant slower clusters change at once and faster ones when confirmed; a confirmed laggard follows; a droop only stretches the clock. -/
def Obligations.ClocksChangeAtTheirInstant : Prop :=
  ∀ s : State,
    (∀ (c : Caller) (v : List Byte) (aid : List JRecord), ∃ at_, (writeApply s c 0x2200 0x0B v aid).power.nextPoint = some (leAt v 0 1, at_) ∧
      at_ % 16384 = 0 ∧ now s + 1600000 ≤ at_ ∧ leAt v 8 8 ≤ at_ ∧ at_ < max (leAt v 8 8) (now s + 1600000) + 16384) ∧
    ((∃ i ∈ changeInstants s, i ≤ now s + 1600000) →
      ∃ t, Answers .voltageRaiseStart s t ∧ ∀ c, c < 192 →
        (clusterRec t c).code = (clusterRec s c).code ∧
        (clusterRec t c).raised = (if (clusterRec s c).power = .on ∧ codeAt s c (now s + 1600000) < (clusterRec s c).code
          then some (codeAt s c (now s + 1600000)) else (clusterRec s c).raised)) ∧
    (∀ lag : List Cluster, (∃ i ∈ changeInstants s, tilesReach s i = true) →
      ∃ t, Answers (.frequencyChange lag) s t ∧ ∀ c : Cluster,
        let r := takeRises (clusterRec s c) (now s)
        let want := max (max (pointAt s (now s)) (if r.derated then 2 else 0)) (max r.fastThermal r.fastZone)
        (r.code < want → (clusterRec t c).code = want) ∧
        (want < r.code → r.power = .on → (c ∈ lag ∨ r.raised = none) → (clusterRec t c).code = r.code ∧ (clusterRec t c).lagging = true) ∧
        (want < r.code → r.power = .on → c ∉ lag → r.raised ≠ none →
          (clusterRec t c).code = want ∧ (clusterRec t c).lagging = false ∧ (clusterRec t c).raised = none)) ∧
    (∀ c : Cluster, (clusterRec s c).lagging = true →
      ∃ t, Answers (.freqLagConfirm c) s t ∧ (clusterRec t c).code = targetCode s c s.power.appliedCode ∧ (clusterRec t c).lagging = false ∧
        dnum t 0x2200 0x14 = (dnum s 0x2200 0x14 + 1) % 2 ^ 32 ∧ ∀ d, d ≠ c.val → clusterRec t d = clusterRec s d) ∧
    ∀ (x : Site) (mv : Nat), clusterOn s (siteCluster x) = true →
      (mv < 30 → Answers (.droopDetect x mv) s s) ∧
      (30 ≤ mv → ∃ q, q = (if mv < 45 then 1 else if mv < 60 then 2 else 4) ∧ Answers (.droopDetect x mv) s
        (settlePins (dcount (modTile s x fun t => { t with slip := t.slip + q, stretched := t.stretched + q }) (0x2010 + x.val / 128) 0x0E 8 1)))

/-- R365 to R383, R607: what a lost phase, a trip, an open fuse or a failed input takes; how a cluster powers up and down; and when trims and boosts take effect. -/
def Obligations.PowerIsDeliveredAndLost : Prop :=
  ∀ (s : State) (c : Cluster),
    (∀ (p : Fin 8) (cause : PhaseCause), regulatorRuns s c = true → phaseDisabled s c p = false →
      ∃ t, Answers (.phaseDisable c p cause) s t ∧ phaseDisabled t c p = true ∧ workingPhases t c + 1 = workingPhases s c ∧
        (workingPhases t c = 6 → (clusterRec t c).power = (clusterRec s c).power ∧
          ∃ i, (clusterRec t c).derateAt = some i ∧ i % 16384 = 0 ∧ now s < i ∧ i ≤ now s + 16384) ∧
        (workingPhases t c = 7 → (clusterRec t c).power = (clusterRec s c).power ∧ (clusterRec t c).derateAt = (clusterRec s c).derateAt) ∧
        (workingPhases t c < 6 → (clusterRec t c).power = .dark ∧ (clusterRec t c).holed = true) ∧
        ∀ d, d ≠ c.val → clusterRec t d = clusterRec s d) ∧
    (∀ i, (clusterRec s c).derateAt = some i → i ≤ now s →
      ∃ t, Answers (.derateCapApply c) s t ∧ (clusterRec t c).derated = true ∧ (clusterRec t c).derateAt = none ∧ 2 ≤ (clusterRec t c).code ∧
        (clusterRec s c).code ≤ (clusterRec t c).code ∧ ∀ d, d ≠ c.val → clusterRec t d = clusterRec s d) ∧
    (regulatorRuns s c = true → ∃ t, Answers (.regulatorTrip c) s t ∧ (clusterRec t c).tripped = true ∧ (clusterRec t c).power = .dark ∧
      (clusterRec t c).holed = true ∧ ∀ d, d ≠ c.val → clusterRec t d = clusterRec s d) ∧
    (∀ (z : Zone) (cause : FuseCause), (zoneRec s z).fuseOpen = false →
      ∃ t, Answers (.zoneFuseOpen z cause) s t ∧ (zoneRec t z).fuseOpen = true ∧ dnum t (0x2010 + z) 0x01 = 2 ∧
        (∀ d, clusterZone d = z.val → (clusterRec t d).power = .dark) ∧ ∀ d, clusterZone d ≠ z.val → clusterRec t d = clusterRec s d) ∧
    (∀ (z : Zone) (cause : RailFault), s.pins.powerGood = true → (zoneRec s z).inputFault = false →
      ∃ t, Answers (.zoneInputFault z cause) s t ∧ (zoneRec t z).inputFault = true ∧
        (∀ d, clusterZone d = z.val → (clusterRec t d).power = .dark) ∧ ∀ d, clusterZone d ≠ z.val → clusterRec t d = clusterRec s d) ∧
    (∀ (z : Zone) (stage die : Int) (ma : Nat), ∃ t, Answers (.pathResistanceCheck z stage die ma) s t ∧ t.clusters = s.clusters ∧
      dnum t (0x2010 + z) 0x04 = f32Ratio die 1000000 % 2 ^ 32 ∧
      (ma < 40000 → zoneRec t z = zoneRec s z) ∧
      (40000 ≤ ma → dnum t (0x2010 + z) 0x05 = f32Ratio (stage - die) ma % 2 ^ 32 ∧
        (gtFP32 (f32Ratio (stage - die) ma) (mulFP32 (Config.fusedBaseline z).toNat (f32Ratio 115 100)) = false → (zoneRec t z).suspectSince = none) ∧
        (gtFP32 (f32Ratio (stage - die) ma) (mulFP32 (Config.fusedBaseline z).toNat (f32Ratio 115 100)) = true →
          (zoneRec t z).suspectSince = some ((zoneRec s z).suspectSince.getD (now s)) ∧
          ((zoneRec s z).suspectSince.getD (now s) + 160000000000 ≤ now s → dnum s (0x2010 + z) 0x07 = 0 → dnum t (0x2010 + z) 0x07 = 1)))) ∧
    (powerWaits s c = true → zonePowers s (clusterZone c) = true → ((clusterRec s c).since / 160000 + 1) * 160000 ≤ now s →
      (∀ d ∈ zoneClusters (clusterZone c), (clusterRec s d).power ≠ .softStart ∧ (d < c.val → powerWaits s d = false)) →
      ∃ t, Answers (.powerUpAttempt c) s t ∧ ((clusterRec t c).power = .softStart ∨ (clusterRec t c).power = .deferred) ∧ (clusterRec t c).since = now s ∧
        (100 * (zoneRec s (clusterZone c)).milliAmps > 85 * 1000 * dnum s (0x2010 + clusterZone c) 0x02 → (clusterRec t c).power = .deferred) ∧
        ∀ d, d ≠ c.val → clusterRec t d = clusterRec s d) ∧
    ((clusterRec s c).power = .softStart → (clusterRec s c).since + 800000 ≤ now s →
      ∃ t, Answers (.softStartDone c) s t ∧ (clusterRec t c).power = .on ∧ (∀ x, siteCluster x = c.val → ∀ b, b < 8 → bankState t x b = .off) ∧
        ∀ d, d ≠ c.val → clusterRec t d = clusterRec s d) ∧
    ((clusterRec s c).power = .poweringDown → (clusterRec s c).since + 160000 ≤ now s →
      ∃ t, Answers (.powerDownDone c) s t ∧ (clusterRec t c).power = .off ∧ (∀ x, siteCluster x = c.val → (tileOf t x).core0.status = .halted) ∧
        ∀ d, d ≠ c.val → clusterRec t d = clusterRec s d) ∧
    (∀ b e, (clusterRec s c).warnBoost = some (b, e) → e ≤ now s →
      Answers (.loadBoostEnd c) s (settlePins (setCluster s c { clusterRec s c with warnBoost := none }))) ∧
    (∀ b, (clusterRec s c).relBoosts.find? (fun b => decide (b.1 ≤ now s)) = some b →
      ∃ t, Answers (.releaseBoostStart c) s t ∧ (clusterRec t c).relBoosts = (clusterRec s c).relBoosts.erase b ∧
        (∃ e, (clusterRec t c).relActive = some e ∧ b.2 ≤ e) ∧ ∀ d, d ≠ c.val → clusterRec t d = clusterRec s d) ∧
    (∀ e, (clusterRec s c).relActive = some e → e ≤ now s →
      Answers (.releaseBoostEnd c) s (settlePins (setCluster s c { clusterRec s c with relActive := none }))) ∧
    (∀ half : Nat, (clusterRec s c).power = .on → let v := min 60 (half / 5 * 5)
      ∃ t, Answers (.marginTrim c half) s t ∧ (∀ d, d ≠ c.val → clusterRec t d = clusterRec s d) ∧
        (v ≤ max (clusterRec s c).trim ((clusterRec s c).trimPending.getD 0) → clusterRec t c = clusterRec s c) ∧
        (max (clusterRec s c).trim ((clusterRec s c).trimPending.getD 0) < v →
          (clusterHeld s c = true → (clusterRec t c).trimPending = some v ∧ (clusterRec t c).trim = (clusterRec s c).trim) ∧
          (clusterHeld s c = false → (clusterRec t c).trim = v ∧ (clusterRec t c).trimPending = none)))

/-- R384 to R397: estimates and averages, gains and the offset, fast caps, the cap code, and the shares of a group. -/
def Obligations.PowerIsCappedAndShared : Prop :=
  ∀ s : State,
    (∀ (zs : List Nat) (fixed : Nat), ∃ t, Answers (.powerEstimate zs fixed) s t ∧ t.power.epochSum = s.power.epochSum + calibrated s zs fixed ∧
      t.power.epochCount = s.power.epochCount + 1 ∧ t.clusters = s.clusters ∧
      (s.power.bucketCount < 99 → t.power.buckets = s.power.buckets ∧ t.power.bucketSum = s.power.bucketSum + calibrated s zs fixed) ∧
      (99 ≤ s.power.bucketCount → t.power.bucketCount = 0 ∧ t.power.buckets.getLast? = some ((s.power.bucketSum + calibrated s zs fixed) / 100) ∧
        t.power.a1 = bucketMean 1000 t.power.buckets ∧ t.power.a10 = bucketMean 10000 t.power.buckets ∧ t.power.buckets.length ≤ 10000)) ∧
    (∀ (z : Zone) (m e : Nat), 0 < e → (zoneRec s z).replaced = false →
      let g := (((zoneRec s z).gainQ : Int) + ((m * 1048576 / e : Nat) - ((zoneRec s z).gainQ : Int)) / 8).toNat
      ∃ t, Answers (.zoneGainUpdate z m e) s t ∧ (zoneRec t z).measured = m ∧
        (zoneRec t z).replaced = decide (g < 524288 ∨ 2097152 < g) ∧ (zoneRec t z).gainQ = (if g < 524288 ∨ 2097152 < g then (zoneRec s z).gainQ else g)) ∧
    (∀ m e : Nat, ∃ t, Answers (.deviceOffsetUpdate m e) s t ∧ t.power.offset = s.power.offset + ((m : Int) - e) / 8 ∧ t.clusters = s.clusters) ∧
    (∀ (c : Cluster) (deg : Int), (clusterRec s c).power = .on →
      ∃ t, Answers (.thermalReading c deg) s t ∧ (clusterRec t c).celsius = deg ∧ (clusterRec t c).code = (clusterRec s c).code ∧
        (thermalLimit s ≤ deg → (clusterRec s c).fastDropAt = none → (clusterRec s c).lastDrop = none →
          ∃ i, (clusterRec t c).fastDropAt = some i ∧ i % 16384 = 0 ∧ now s < i ∧ i ≤ now s + 16384) ∧
        ∀ d, d ≠ c.val → clusterRec t d = clusterRec s d) ∧
    (∀ (z : Zone) (ma : Nat), ∃ t, Answers (.zoneCurrentCheck z ma) s t ∧ (zoneRec t z).milliAmps = ma ∧
      ∀ d, (clusterRec t d).code = (clusterRec s d).code ∧ (clusterZone d ≠ z.val → clusterRec t d = clusterRec s d) ∧
        (clusterZone d = z.val → clusterOn s d = true → 1000 * dnum s (0x2010 + z) 0x02 < ma → ((clusterRec t d).zoneDropAt).isSome = true)) ∧
    (∀ c : Cluster, clusterOn s c = true → due s (clusterRec s c).fastDropAt = true → due s (clusterRec s c).zoneDropAt = false →
      ∃ t, Answers (.fastCapDrop c) s t ∧ (clusterRec t c).fastThermal = min 6 ((clusterRec s c).code + 1) ∧ (clusterRec t c).fastDropAt = none ∧
        (clusterRec t c).lastDrop = some (now s) ∧ min 6 ((clusterRec s c).code + 1) ≤ (clusterRec t c).code ∧ ∀ d, d ≠ c.val → clusterRec t d = clusterRec s d) ∧
    ((s.power.capAt / capPeriod s + 1) * capPeriod s ≤ crownTime s → due s (s.power.nextCap.map (·.2)) = false →
      ∃ t k, Answers .capEpoch s t ∧ t.power.capAt = k * capPeriod s ∧ k * capPeriod s ≤ crownTime s ∧ crownTime s < (k + 1) * capPeriod s ∧
        t.power.capCode = s.power.capCode ∧ t.power.epochCount = 0 ∧
        (nextCapCode s s.power.capCode = s.power.capCode → t.power.nextCap = s.power.nextCap) ∧
        (nextCapCode s s.power.capCode ≠ s.power.capCode → t.power.nextCap = some (nextCapCode s s.power.capCode, (k + 1) * capPeriod s) ∧
          dnum t 0x2000 0x0E = (dnum s 0x2000 0x0E + 1) % 2 ^ 32)) ∧
    (∀ slack : Nat, groupRuns s = true → s.budget.epoch < now s / groupPeriod s →
      ∃ t, Answers (.groupEpoch slack) s t ∧ t.budget.epoch = now s / groupPeriod s ∧ t.budget.computed = false ∧ t.budget.shares = s.budget.shares ∧
        ownReport s (now s / groupPeriod s) slack ∈ t.budget.reports ∧
        t.out = s.out ++ ((groupMembers s).filter fun m => decide (m.2 ≠ fabricId s)).map fun m =>
          .fabricControl m.2 1 (slackBytes (ownReport s (now s / groupPeriod s) slack))) ∧
    (∀ rep : SlackReport, groupRuns s = true → s.budget.epoch ≤ rep.epoch →
      (rep.groupId.toNat = dnum s 0x2100 0x02 ∧ rep.budget = dnum s 0x2100 0x05 ∧ rep.period = groupPeriod s →
        ∃ t, Answers (.slack rep) s t ∧ rep ∈ t.budget.reports ∧ t.budget.shares = s.budget.shares ∧
          ∀ q ∈ t.budget.reports, q.rank = rep.rank → q.epoch = rep.epoch → q = rep) ∧
      (¬ (rep.groupId.toNat = dnum s 0x2100 0x02 ∧ rep.budget = dnum s 0x2100 0x05 ∧ rep.period = groupPeriod s) → Answers (.slack rep) s s)) ∧
    (groupRuns s = true → s.budget.computed = false → s.budget.epoch * groupPeriod s + groupPeriod s / 2 ≤ now s →
      let reps := (groupMembers s).filterMap fun m => s.budget.reports.find? fun q => decide (q.rank.val = m.1 ∧ q.epoch = s.budget.epoch)
      ∃ t, Answers .shareCompute s t ∧ t.budget.computed = true ∧
        (reps.length = (groupMembers s).length → t.budget.shares = (List.range 64).map fun i =>
          (((newShares (dnum s 0x2100 0x05) (dnum s 0x2100 0x07) reps).find? fun p => decide (p.1.rank.val = i)).map (·.2)).getD 0) ∧
        (reps.length ≠ (groupMembers s).length → t.budget.shares = s.budget.shares ∧ dnum t 0x2100 0x0D = (dnum s 0x2100 0x0D + 1) % 2 ^ 32))

namespace Sys2Proof.Machine

/-- Every session but one keeps its record. -/
abbrev OtherSessionsKept (s t : State) (n : Nat) : Prop := ∀ m, m ≠ n → sessionOf t m = sessionOf s m

/-- What the close of a session leaves of it: no record, no ring, no queue pair. -/
abbrev SessionGone (s t : State) (n : Nat) : Prop :=
  sessionOf t n = none ∧ (∀ q ∈ t.qps, q.2.session ≠ n) ∧ (∀ r ∈ t.rings, r.1 / 16 + 1 ≠ n) ∧ OtherSessionsKept s t n

end Sys2Proof.Machine

/-- R412 to R415, R422, R427 to R430, R443, R452: how a session opens, what it keeps for its host and until when, and how it ends. -/
def Obligations.SessionsOpenLiveAndEnd : Prop :=
  ∀ s : State,
    (∀ (f : Frame) (q : OpenReq) (n : Nat), portUp s (portNo f.port) = true → f.dport = openPort s → f.toPair = false → f.session = 0 →
      ((portOf s (portNo f.port)).looseAt ≠ now s / 16000000000 ∨ (portOf s (portNo f.port)).loose < 1000) →
      ((q.role = 2 ∨ (q.role = 0 ∧ owned s = false)) → q.rings.length ≤ 16 → q.rings.all descOk = true → 100 ≤ q.keepalive → q.keepalive ≤ 60000 →
        freeSession s = some n →
        ∃ t x v, Answers (.sessionOpen f q) s t ∧ sessionOf t n = some x ∧ x.role = q.role.toNat ∧ x.ip = f.ip ∧ x.udp = f.udp ∧ x.odpPort = f.dport ∧
          x.altIp = q.altIp ∧ x.keepalive = q.keepalive ∧ x.rings = q.rings ∧ x.low = 0 ∧ x.received = 0 ∧ x.held = [] ∧ x.bucket = 4096 ∧
          OtherSessionsKept s t n ∧ (∀ i d, q.rings[i]? = some d → (ringOf t (16 * (n - 1) + i)).desc = d ∧ (ringOf t (16 * (n - 1) + i)).written = 0) ∧
          t.out = s.out ++ [.odp f.port 0 f.seq 0 (response 0x01 0 v)]) ∧
      (q.role = 1 → owned s = false → managementFrom s f = false →
        ∃ t, Answers (.sessionOpen f q) s t ∧ t.sessions = s.sessions ∧ t.out = s.out ++ [.odp f.port 0 f.seq 0 (response 0x01 0xA601 [])])) ∧
    (∀ (f : Frame) (x : Session), FrameReady f s x →
      (∃ t, Answers (.abort f) s t ∧ SessionGone s t f.session.toNat) ∧
      ∃ t y, Answers (.eventResponse f) s t ∧ sessionOf t f.session.toNat = some y ∧ y.events = x.events.filter (fun e => decide (e.seq ≠ f.seq)) ∧
        t.out = s.out ∧ OtherSessionsKept s t f.session.toNat) ∧
    (∀ (n : Fin 17) (x : Session), sessionOf s n = some x →
      (x.lastFrame + x.keepalive * 16000000 ≤ now s → ∃ t, Answers (.keepaliveExpiry n) s t ∧ SessionGone s t n) ∧
      (now s < x.lastFrame + x.keepalive * 16000000 → Answers (.keepaliveExpiry n) s s) ∧
      Answers (.blockWriteTimeout n) s (settlePins (setSession s n { x with transfers := x.transfers.filter fun d => decide (now s < d.last + 16000000000) })) ∧
      (∀ p, x.snapshot = some p → p.used + 16000000000 ≤ now s → Answers (.snapshotExpiry n) s (settlePins (setSession s n { x with snapshot := none }))) ∧
      (∀ (cls code : BitVec 16) (data : List Byte), cls.toNat < 7 → x.mask.toNat.testBit cls.toNat = true →
        ∃ t y e, Answers (.eventSend n cls code data) s t ∧ sessionOf t n = some y ∧ y.events = x.events ++ [e] ∧ e.seq = x.eventSeq + 1 ∧ y.eventSeq = x.eventSeq + 1 ∧
          e.payload = eventBytes s cls.toNat code.toNat data ∧ t.out = s.out ++ [.odpEvent n (x.eventSeq + 1) e.payload]) ∧
      (∀ e, x.events.find? (fun v => decide (v.seq = e.seq)) = some e → e.sentAt + 160000000 ≤ now s →
        (e.tries < 8 → ∃ t y, Answers (.eventResend n e.seq) s t ∧ sessionOf t n = some y ∧ t.out = s.out ++ [.odpEvent n e.seq e.payload] ∧
          y.events = x.events.map fun v => if v.seq = e.seq then { v with sentAt := now s, tries := v.tries + 1 } else v) ∧
        (8 ≤ e.tries → ∃ t y, Answers (.eventResend n e.seq) s t ∧ sessionOf t n = some y ∧ y.lost = x.lost + 1 ∧ t.out = s.out ∧
          y.events = x.events.filter fun v => decide (v.seq ≠ e.seq)))) ∧
    ∀ (p : HostPort) (mac : BitVec 48) (ip : BitVec 128) (udp : UdpPorts) (raw : List Byte), portUp s (portNo p) = true → udpOpen s udp.dst = true →
      (raw.length < 4 ∨ crc32c (raw.take (raw.length - 4)) ≠ leAt raw (raw.length - 4) 4 ∨ leAt raw 0 2 ≠ 0x4F44) →
      ∃ t, Answers (.odpFrameReject p mac ip udp raw) s t ∧ t.vlog.total = s.vlog.total + 1 ∧ t.sessions = s.sessions ∧ t.out = s.out ∧
        dnum t (0x1100 + portNo p) 0x0E = (dnum s (0x1100 + portNo p) 0x0E + 1) % 2 ^ 64

/-- R401 to R405, R417 to R425: ports fail over and come back, queue pairs bind, retry and fail, doorbells and SENDs submit orders, and rings are written while the host has room. -/
def Obligations.PortsQueuePairsAndRingsServeTheHost : Prop :=
  ∀ s : State,
    (∀ p : Fin 2, (portOf s p).up = true → ∃ t, Answers (.portDown p) s t ∧ (portOf t p).up = false ∧ (portOf t p).faultSince = some (now s) ∧
      (portUp s (1 - p.val) = true → (portOf t (1 - p.val)).carries = true ∧ (portOf t p).movedAway = true) ∧
      (portUp s (1 - p.val) = false → (portOf t (1 - p.val)).up = (portOf s (1 - p.val)).up ∧ t.out = s.out) ∧ t.sessions = s.sessions) ∧
    (∀ (p : Fin 2) (i : Nat), (portOf s p).up = true → (portOf s p).movedAway = true → (portOf s p).upSince = some i → i + 16000000000 ≤ now s →
      ∃ t, Answers (.portRestore p) s t ∧ (portOf t p).movedAway = false ∧ (portOf t p).faultSince = none ∧ (portOf t (1 - p.val)).carries = false ∧
        t.out = s.out ++ [.announceAddr p (dget s (0x1100 + p) 0x04) (dget s (0x1100 + p) 0x05)]) ∧
    (∀ p : Fin 3, portOn s p = true → (portOf s p).up = false → ((portOf s p).training = true ∨ (portOf s p).faultSince.isSome = true) →
      ∃ t, Answers (.hostPortUp p) s t ∧ (portOf t p).up = true ∧ (portOf t p).training = false ∧ (portOf t p).upSince = some (now s) ∧
        (portOf t p).movedAway = (portOf s p).movedAway ∧ t.sessions = s.sessions) ∧
    (∀ (p : Fin 2) (pr : BitVec 8), portUp s p = true → Answers (.pfcPauseFrame p pr) s
      (settlePins (dcount (setPort s p { portOf s p with paused := pr }) (0x1100 + p) 0x13 8 1))) ∧
    (∀ (qp : BitVec 24) (n : BitVec 16) (tok : BitVec 32),
      (∀ x, sessionOf s n.toNat = some x → x.token = tok → (sessionQps s n.toNat).length < 64 → s.qps.length < 1024 → qpOf s qp.toNat = QueuePair.none →
        Answers (.connectionRequest qp n tok) s (settlePins (setQp s qp.toNat ⟨n.toNat, false, 0⟩))) ∧
      ((∀ x, sessionOf s n.toNat = some x → x.token ≠ tok) → Answers (.connectionRequest qp n tok) s (settlePins (emit s (.roceReject qp.toNat))))) ∧
    (∀ qp : BitVec 24, qpOf s qp.toNat ≠ QueuePair.none → (qpOf s qp.toNat).error = false →
      ((qpOf s qp.toNat).retries < 7 → Answers (.rdmaRetryTimeout qp) s
        (settlePins (setQp s qp.toNat { qpOf s qp.toNat with retries := (qpOf s qp.toNat).retries + 1 }))) ∧
      (7 ≤ (qpOf s qp.toNat).retries → ∃ t, Answers (.rdmaRetryTimeout qp) s t ∧ (qpOf t qp.toNat).error = true) ∧
      ∃ t, Answers (.rdmaErrorNak qp) s t ∧ (qpOf t qp.toNat).error = true ∧ (∀ q, q ≠ qp.toNat → qpOf t q = qpOf s q) ∧
        (∀ r ∈ qpRings s qp.toNat, (ringOf t r).bad = true ∧ (ringOf t r).due = []) ∧ t.sessions = s.sessions ∧
        (∀ h ∈ t.hoods, h.2.state = 1 → h.2.qp ≠ some qp.toNat) ∧ ∀ a ∈ t.adapters, a.2.state = 1 → a.2.qp ≠ some qp.toNat) ∧
    (∀ (qp : BitVec 24) (data : List Byte), qpOf s qp.toNat ≠ QueuePair.none → (qpOf s qp.toNat).error = false →
      (data.length ≠ 128 → ∃ t, Answers (.inboundSend qp data) s t ∧ t.orders = s.orders ∧ t.out = s.out ++ [.roceNak qp.toNat 1]) ∧
      (∀ x, data.length = 128 → sessionOf s (qpOf s qp.toNat).session = some x → x.role = 2 →
        ∃ t, Answers (.inboundSend qp data) s t ∧ t.orders = s.orders ∧ t.journal = s.journal) ∧
      (∀ (x : Session) (r : Nat), let n := (qpOf s qp.toNat).session
        data.length = 128 → sessionOf s n = some x → x.role ≠ 2 → resentOrder s data = none → submitCheck s n data = 0 → recKind data ≠ 6 → twinSolo s = true →
        chooseRegion s data = some r → recContext data + recCont data ≠ 0 → (∃ d, dataQp s n = some d ∧ qpOk s d = true) →
        ∃ t o, Answers (.inboundSend qp data) s t ∧ findOrder t (BitVec.ofNat 32 (leAt data 0 4)) = some o ∧ o.record = withRegion data r ∧ o.state = .pending)) ∧
    (∀ (n : Fin 17) (word : BitVec 64) (entries : List (List Byte)) (x : Session), 0 < n.val → mbIsSender s (47 + n) 0x094 = true → mbIsReceiver s (47 + n) 0x010 = true →
      mbFull s (47 + n) = false → sessionOf s n = some x → fld word.toNat 0 16 = n.val - 1 →
      1 ≤ (BitVec.ofNat 32 (fld word.toNat 16 32) - x.consumer).toNat → (BitVec.ofNat 32 (fld word.toNat 16 32) - x.consumer).toNat ≤ 4096 →
      entries.length = (BitVec.ofNat 32 (fld word.toNat 16 32) - x.consumer).toNat → (∀ b ∈ entries, b.length = 128) →
      ∃ t y, Answers (.doorbell n word entries) s t ∧ sessionOf t n = some y ∧ y.consumer = BitVec.ofNat 32 (fld word.toNat 16 32) ∧ y.producer = y.consumer ∧
        mbFull t (47 + n) = false ∧ (x.role = 2 → t.orders = s.orders)) ∧
    (∀ (ring : Nat) (entry : List Byte) (data : List (Nat × Nat × List Byte)) (rest : List (List Byte × List (Nat × Nat × List Byte))), let r := ringOf s ring
      r.due = (entry, data) :: rest → r.written - r.consumer < r.desc.entries → r.bad = false → qpOk s r.desc.qp.toNat = true → twinSolo s = true →
      ∃ t, Answers (.resultWrite ring) s t ∧ ringOf t ring = { r with due := rest, written := r.written + 1 } ∧
        t.out = s.out ++ data.map (fun d => .rdmaWrite r.desc.qp.toNat (BitVec.ofNat 64 d.1) (BitVec.ofNat 32 d.2.1) d.2.2) ++
          [.rdmaWrite r.desc.qp.toNat (r.desc.addr + BitVec.ofNat 64 (32 * (r.written % r.desc.entries))) r.desc.key
            (splice entry 31 [if r.written / r.desc.entries % 2 = 0 then 0x80 else 0])]) ∧
    ∀ (ring : Nat) (count : BitVec 32), let r := ringOf s ring
      r.due ≠ [] → r.desc.entries ≤ r.written - r.consumer → r.lastRead = none → r.bad = false → qpOk s r.desc.qp.toNat = true →
      ∃ t, Answers (.consumerCountRead ring count) s t ∧ (ringOf t ring).lastRead = some (now s) ∧ (ringOf t ring).due = r.due ∧
        r.consumer ≤ (ringOf t ring).consumer ∧ (r.consumer ≤ r.written → (ringOf t ring).consumer ≤ r.written) ∧
        t.out = s.out ++ [.rdmaRead r.desc.qp.toNat r.desc.consumer r.desc.key 4]

namespace Sys2Proof.Machine

/-- Blocks whose registers have no effect of their own beside their fields. -/
def plainBlock : RegBlock → Nat → Bool
  | .sync _, _ => true
  | .err, _ => true
  | .vr _, _ => true
  | .array _, off => decide (off ≠ 0)
  | _, _ => false

/-- What a write of `v` makes of a register's bits (R468, R469): a written 1 clears a W1C bit, RW bits are taken, RWD bits are taken while the block is off, and every other bit is kept. -/
def bitAfter (sp : RegSpec) (en : Bool) (old v : Word32) (i : Nat) : Bool :=
  if sp.w1c.testBit i && rbit v i then false
  else if sp.rw.testBit i || (sp.rwd.testBit i && !en) then rbit v i
  else rbit old i

end Sys2Proof.Machine

/-- R464, R468 to R473, R475, R478: a register takes a write field by field against the enable of its block; what no map lists changes nothing; pairs go through their shadows; an enable that checks a map is refused with its flag when the map is bad. -/
def Obligations.RegistersAreWrittenByField : Prop :=
  ∀ (m : Master) (s : State),
    (∀ (a : BitVec 48) (v : BitVec 32), regTarget s a.toNat m.toNat = none → Answers (.registerWrite m a v) s (settlePins s)) ∧
    (∀ (a : BitVec 48) (v : BitVec 32) (b : RegBlock) (off : Nat) (sp : RegSpec), regTarget s a.toNat m.toNat = some (b, off) → plainBlock b off = true →
      reachesField b off m.toNat = true → isPairLo b off = false → isPairHi b off = false → regSpec b off = some sp → sp.wm = false →
      let r := b.base + off
      let en := regBit s (regEnable b off).1 (regEnable b off).2
      let clash := en = true ∧ (regGet s r ^^^ v) &&& BitVec.ofNat 32 sp.rwd ≠ 0
      ∃ t, Answers (.registerWrite m a v) s t ∧
        (¬ clash → (∀ i, i < 32 → rbit (regGet t r) i = bitAfter sp en (regGet s r) v i) ∧ ∀ q, q ≠ r → regGet t q = regGet s q) ∧
        (clash → regBit t (regIgnoredFlag b off).1 (regIgnoredFlag b off).2 = true ∧
          (anyIgnored s b = true → ∀ q, q ≠ r → q ≠ (regIgnoredFlag b off).1 → q ≠ b.base + 0xFFC → regGet t q = regGet s q)) ∧
        t.tiles = s.tiles ∧ t.regions = s.regions) ∧
    (∀ (a : BitVec 48) (b : RegBlock) (off : Nat), regTarget s a.toNat m.toNat = some (b, off) → b ≠ .mbox → isPairLo b off = true →
      ∃ t, Answers (.lohiLowRead m a) s t ∧ shadowGet t (b.base + off) m.toNat false = regGet s (b.base + off + 4) ∧ t.regs = s.regs) ∧
    (∀ (a : BitVec 48) (b : RegBlock) (off : Nat) (v : BitVec 32), regTarget s a.toNat m.toNat = some (b, off) → b ≠ .mbox → b ≠ .barrier →
      isPairHi b off = true → isPairLo b off = false → reachesField b off m.toNat = true →
      Answers (.lohiHighWrite m a v) s (settlePins (fieldWrite (fieldWrite s b (off - 4) a.toNat m.toNat
        (shadowGet s (b.base + off - 4) m.toNat true)) b (off - 4 + 4) a.toNat m.toNat v))) ∧
    (∀ (c : Cluster) (v : BitVec 32), regTarget s (hubReg c 0) m.toNat = some (.hub c, 0) → rbit v 0 = true → regBit s (hubReg c 0) 0 = false →
      ∃ t, Answers (.hubEnSet m c v) s t ∧ regBit t (hubReg c 0) 0 = hubMapOk s c ∧ regBit t (hubReg c 4) 0 = !hubMapOk s c ∧
        ∀ q, q ≠ hubReg c 0 → q ≠ hubReg c 4 → regGet t q = regGet s q) ∧
    ∀ (n : Field) (v : BitVec 32), regTarget s (fieldReg n 0) m.toNat = some (.field n, 0) → rbit v 0 = true → regBit s (fieldReg n 0) 0 = false →
      let ok := fieldMapOk s n (decide (dnum s 0x3600 0x02 = 2))
      ∃ t, Answers (.fhEnSet m n v) s t ∧ regBit t (fieldReg n 0) 0 = ok ∧ regBit t (fieldReg n 0x3040) 0 = !ok ∧
        ∀ q, q ≠ fieldReg n 0 → q ≠ fieldReg n 0x3040 → regGet t q = regGet s q

/-- R480 to R490, R546, R547: a mailbox holds one word from its sender until its receiver takes it; a second commit is refused with OVERRUN unless it is a newer doorbell; timeouts and resets flag; the lock holds. The error block counts, keeps and hands on its records. -/
def Obligations.MailboxesAndErrorRecordsAreKept : Prop :=
  ∀ (m : Master) (s : State),
    (∀ (ch : Fin 64) (hi : BitVec 32), mbIsSender s ch m.toNat = true →
      let word := (shadowGet s (mbReg ch 0) m.toNat true).toNat + hi.toNat * 2 ^ 32
      (mbFull s ch = false → ∃ t, Answers (.mbCommit m ch hi) s t ∧ mbFull t ch = true ∧ reg64 t (mbReg ch 0) = word ∧
        regGet t (mbReg ch 0x0C) = regGet s (mbReg ch 0x0C) + 1 ∧ ∀ k : Fin 64, k ≠ ch → mbFull t k = mbFull s k ∧ reg64 t (mbReg k 0) = reg64 s (mbReg k 0)) ∧
      (mbFull s ch = true → mbDoorbell s ch = false → ∃ t, Answers (.mbCommit m ch hi) s t ∧ mbFull t ch = true ∧
        reg64 t (mbReg ch 0) = reg64 s (mbReg ch 0) ∧ regBit t (mbReg ch 8) 3 = true)) ∧
    (∀ ch : Fin 64, mbIsReceiver s ch m.toNat = true → s.boot.answers = [] →
      (mbFull s ch = true → ∃ t, Answers (.mbTake m ch) s t ∧ mbFull t ch = false ∧ reg64 t (mbReg ch 0) = 0) ∧
      (mbFull s ch = false → Answers (.mbTake m ch) s (settlePins s))) ∧
    (∀ ch : Fin 64, mbFull s ch = true → (regGet s (mboxReg (0x1004 + 8 * ch))).toNat ≠ 0 →
      mget 0 s.mbSince ch + (regGet s (mboxReg (0x1004 + 8 * ch))).toNat * 16000 ≤ now s + 1 →
      ∃ t, Answers (.mbTimeout ch) s t ∧ regBit t (mbReg ch 8) 1 = true ∧ mbFull t ch = true ∧ reg64 t (mbReg ch 0) = reg64 s (mbReg ch 0)) ∧
    ((isCrown m.toNat || isEngine m.toNat || decide (m.toNat = 3)) = true → s.boot.answers = [] →
      ∃ t, Answers (.receiverReset m) s t ∧ ∀ ch : Fin 64,
        (mbIsReceiver s ch m.toNat = true → mbIsSender s ch m.toNat = false → mbFull s ch = true → mbFull t ch = false ∧ regBit t (mbReg ch 8) 2 = true) ∧
        (mbIsReceiver s ch m.toNat = false → mbFull t ch = mbFull s ch ∧ reg64 t (mbReg ch 0) = reg64 s (mbReg ch 0))) ∧
    (m.toNat = 0 → ∀ v : BitVec 32,
      (regBit s (mboxReg 0x1800) 0 = false → ∃ t, Answers (.mbLockWrite m v) s t ∧ regBit t (mboxReg 0x1800) 0 = rbit v 0 ∧ ∀ q, q ≠ mboxReg 0x1800 → regGet t q = regGet s q) ∧
      (regBit s (mboxReg 0x1800) 0 = true → ∃ t, Answers (.mbLockWrite m v) s t ∧ regBit t (mboxReg 0x1800) 0 = true)) ∧
    (∀ r : ErrRecord,
      (regBit s (errReg 0) 0 = true → s.errBuf.length < 256 →
        ∃ t, Answers (.errorRecordArrival r) s t ∧ t.errBuf = s.errBuf ++ [{ r with body := slice r.body 0 32 }] ∧
          reg64 t (errReg 0x010) = (reg64 s (errReg 0x010) + 1) % 2 ^ 64 ∧ regGet t (errReg 0x018) = regGet s (errReg 0x018) ∧
          regGet t (errReg 0x00C) = regGet s (errReg 0x00C) ||| BitVec.ofNat 32 (recordClasses r.kind.toNat (slice r.body 0 32))) ∧
      (regBit s (errReg 0) 0 = true → 256 ≤ s.errBuf.length →
        ∃ t, Answers (.errorRecordArrival r) s t ∧ t.errBuf = s.errBuf ∧ regGet t (errReg 0x018) = regGet s (errReg 0x018) + 1 ∧ regBit t (errReg 0x004) 1 = true) ∧
      (regBit s (errReg 0) 0 = false → ∃ t, Answers (.errorRecordArrival r) s t ∧ t.errBuf = s.errBuf ∧ regGet t (errReg 0x018) = regGet s (errReg 0x018) + 1 ∧
        regGet t (errReg 0x00C) = regGet s (errReg 0x00C))) ∧
    ∀ (r : ErrRecord) (rest : List ErrRecord), s.errBuf = r :: rest →
      ∃ t, Answers .errorLogMove s t ∧ t.errBuf = rest ∧ t.errLog = logPut s.errLog r ∧ t.regs = s.regs

namespace Sys2Proof.Machine

/-- The state that a training gives a link by its number of good lanes (R493): DOWN, UP or DEGRADED, and the lanes in use. -/
def trainedState (good : Nat) : Nat × Nat := if 4 ≤ good then (2, 4) else if 2 ≤ good then (3, 2) else (0, 0)

/-- A packet goes to the port of its destination: it has left there, only its link sequence and acknowledge the link's own, or it waits. -/
abbrev SendsOn (s t : State) (p : FabPacket) : Prop := ∀ j, relayPort s p.dst.toNat = some j → Leaves s t j p

/-- A port that takes a packet to a destination at once: the local one, or one where nothing waits, with a place and credits, and no link that is DOWN holds packets to that destination. -/
abbrev TakesAtOnce (s : State) (j : Nat) (p : FabPacket) : Prop :=
  relayPort s p.dst.toNat = some j ∧ heldFor s p.dst = false ∧ (j = 18 ∨ ((linkOf s j).queue = [] ∧ portReady (linkOf s j) p = true))

/-- A request is answered to its source with a status and a payload, where a port leads there. -/
abbrev FabAnswers (s t : State) (p : FabPacket) (kind : BitVec 8) (status : BitVec 8) (payload : List Byte) (poison : BitVec 64) : Prop :=
  ∀ j, relayPort s p.src.toNat = some j → ∃ r, Leaves s t j r ∧ r.dst = p.src ∧ r.kind = kind ∧ r.status = status ∧
    r.transaction = p.transaction ∧ r.payload = payload ∧ r.poison = poison

/-- No scratchpad, field memory or HBM byte changes. -/
abbrev KeepsMemory (s t : State) : Prop := t.spad = s.spad ∧ t.fmem = s.fmem ∧ t.hbm = s.hbm

/-- One row of a tree as a contribution leaves it. -/
abbrev withContribution (r : Reduction) (port : Nat) (p : FabPacket) : Reduction :=
  { r with contributions := r.contributions ++ [(port, p.payload, p.poison)] }

end Sys2Proof.Machine

/-- R493, R494, R496 to R499, R596: a training ends in the state of its good lanes; an error discards, a timeout goes back to the oldest packet; eight failed frames take a link down; the relay takes packets in link order, passes them unchanged to their port, and reroutes those of a dead link. -/
def Obligations.FabricLinksKeepTheirPackets : Prop :=
  ∀ (i : LinkId) (s : State),
    (∀ good : Nat, (linkOf s i).st = 1 → ∃ t, Answers (.linkTrainingDone i good) s t ∧ (linkOf t i).st = (trainedState good).1 ∧
      laneCount (linkOf t i) = (trainedState good).2 ∧ KeepsMemory s t ∧ ∀ j, j ≠ i.val → linkOf t j = linkOf s j) ∧
    (linkUsable s i = true → ∃ t, Answers (.linkRetrain i) s t ∧ t.links = s.links ∧
      ((∃ m ∈ t.maint, m.activity = 7 ∧ m.scope = i) ∨ 256 ≤ s.maint.length)) ∧
    Answers (.fabricCrcError i) s (settlePins s) ∧
    (∀ (p : FabPacket) (q : Nat) (rest : List (FabPacket × Nat)), (linkOf s i).replay = (p, q) :: rest → linkUsable s i = true → q + 32000 ≤ now s →
      ∃ t, Answers (.fabricResendTimeout i) s t ∧ t.out = s.out ++ [.fabricResend i p.linkSeq] ∧
        (linkOf t i).replay.map (·.1) = (linkOf s i).replay.map (·.1) ∧ (∀ x ∈ (linkOf t i).replay, x.2 = now s) ∧
        (linkOf t i).resends = (linkOf s i).resends + 1 ∧
        dnum t (0x4400 + i) 0x0A = (dnum s (0x4400 + i) 0x0A + 1) % 2 ^ 64) ∧
    (linkUsable s i = true → keyed s (2 + i) = true →
      let n := mget 0 s.sec.authFails i + 1
      ∃ t, Answers (.frameAuthFail i) s t ∧ mget 0 t.sec.authFails i = n ∧ (n < 8 → t.links = s.links) ∧
        (8 ≤ n → (linkOf t i).st = 0 ∧ (linkOf t i).lanes = 0 ∧ (linkOf t i).replay = (linkOf s i).replay)) ∧
    (linkUsable s i = false → (linkOf s i).replay ≠ [] ∨ (linkOf s i).queue ≠ [] →
      ∃ t, Answers (.fabricLinkReroute i) s t ∧ (linkOf t i).replay = [] ∧ (linkOf t i).queue = [] ∧ KeepsMemory s t ∧
        ∀ p ∈ (linkOf s i).replay.map (·.1) ++ (linkOf s i).queue, SendsOn s t p) ∧
    (∀ p : FabPacket, linkUsable s i = true → p.linkSeq = ((linkOf s i).expectSeq + 1) % 2 ^ 32 →
      ∃ t, Answers (.relayForward ⟨i.val, Nat.lt_succ_of_lt i.isLt⟩ p) s t ∧ (linkOf t i).expectSeq = p.linkSeq ∧ SendsOn s t p ∧
        dnum t (0x4400 + i) 0x0C = (dnum s (0x4400 + i) 0x0C + 1) % 2 ^ 64 ∧ KeepsMemory s t ∧
        ((linkOf s i).queue = [] → heldFor s p.dst = false → relayPort s p.dst.toNat = none → p.kind ≠ 0 → p.kind ≠ 1 → p.kind ≠ 4 →
          t.out = s.out ∧ dnum t 0x4400 0x27 = (dnum s 0x4400 0x27 + 1) % 2 ^ 64) ∧
        ∀ j, (linkOf s i).queue = [] → TakesAtOnce s j p → ∃ a b, t.out = s.out ++ [.fabric j { p with linkSeq := a, linkAck := b }]) ∧
    (∀ p : FabPacket, ∃ t, Answers (.relayForward 18 p) s t ∧ SendsOn s t p ∧ KeepsMemory s t ∧
      (∀ j, TakesAtOnce s j p → ∃ a b, t.out = s.out ++ [.fabric j { p with linkSeq := a, linkAck := b }]) ∧
      ∀ j, relayPort s p.dst.toNat = some j → j ≠ 18 → heldFor s p.dst = false → 64 ≤ (linkOf s j).replay.length →
        t.out = s.out ∧ (linkOf t j).queue = (linkOf s j).queue ++ [p]) ∧
    ∀ (l : Link) (p : FabPacket), portPick l = some p → p ∈ l.queue ∧ portReady l p = true ∧
      ∀ q, vcHead l (packetVc q) = some q → (packetVc q = 0 → packetVc p = 0) ∧ (packetVc q = 3 → packetVc p = 0 ∨ packetVc p = 3)

/-- R500 to R505: a write or read that its aperture admits reaches exactly its row and is answered; one that is refused is counted and touches nothing; answers complete the move that awaits them; a tree's row is summed in the order of its entry and passed to the parent; a SCHEDULE is checked in order and answered. -/
def Obligations.FabricRequestsPassTheirApertures : Prop :=
  ∀ (p : FabPacket) (s : State),
    (p.kind = 0 → p.dst.toNat = fabricId s → p.payload.length ≠ 0 → p.payload.length % 64 = 0 → p.payload.length ≤ 4096 →
      apAdmits s (apEntry s p) p.src p.offset p.payload.length 1 = false →
      ∃ t, Answers (.fabricWrite ⟨p, [], []⟩) s t ∧ KeepsMemory s t ∧ dnum t 0x4400 0x28 = (dnum s 0x4400 0x28 + 1) % 2 ^ 64 ∧ FabAnswers s t p 3 0x0B [] 0) ∧
    (∀ h off : Nat, p.kind = 0 → p.dst.toNat = fabricId s → p.payload.length = 512 → apKind (apEntry s p) = 1 →
      apAdmits s (apEntry s p) p.src p.offset 512 1 = true → p.sem = 0x3F → p.poison = 0 →
      let a := apBase (apEntry s p) + p.offset
      a % 512 = 0 → targetOf s a = .hbm → hbmPlace s a = some (h, off) → (stackRec s h).st ≠ .failed → (stackRec s h).retraining = false →
      ∃ t, Answers (.fabricWrite ⟨p, [], []⟩) s t ∧ memRead t.hbm (hbmKey h off) 512 = p.payload ∧ FabAnswers s t p 3 0 [] 0 ∧
        (∀ b, ¬ (hbmKey h off ≤ b ∧ b < hbmKey h off + 512) → mget 0 t.hbm b = mget 0 s.hbm b) ∧ t.spad = s.spad ∧ t.fmem = s.fmem) ∧
    (p.kind = 1 → p.dst.toNat = fabricId s → apAdmits s (apEntry s p) p.src p.offset 512 0 = false →
      ∃ t, Answers (.readReq ⟨p, [], []⟩) s t ∧ KeepsMemory s t ∧ dnum t 0x4400 0x28 = (dnum s 0x4400 0x28 + 1) % 2 ^ 64 ∧ FabAnswers s t p 2 0x0B [] 0) ∧
    (∀ h off : Nat, p.kind = 1 → p.dst.toNat = fabricId s → apKind (apEntry s p) = 1 → apAdmits s (apEntry s p) p.src p.offset 512 0 = true →
      let a := apBase (apEntry s p) + p.offset
      a % 512 = 0 → targetOf s a = .hbm → hbmPlace s a = some (h, off) → (stackRec s h).st ≠ .failed → (stackRec s h).retraining = false → hbmZeroing s a 512 = false →
      ∃ t, Answers (.readReq ⟨p, [], []⟩) s t ∧ KeepsMemory s t ∧
        FabAnswers s t p 2 0 (memRead s.hbm (hbmKey h off) 512) ((hbmTags s (hbmKey h off)).zeroExtend 64)) ∧
    (∀ (site : Site) (m : MoveExec) (e : QEntry), p.dst.toNat = fabricId s → transactionSite s p.transaction = some site →
      let seq := BitVec.ofNat 16 p.transaction.toNat
      let k := p.transaction.toNat / 2 ^ 32
      findMove s site seq = some m → moveEntry s site seq = some e → m.seq = seq → m.pending = [k] → m.status = 0 → m.windowRefused = false →
      m.otherError = false → m.abandoned = false → addrRange (moveAddr s site e.desc) = some 4 → moveVc2 e.desc = false →
      (p.kind = 3 → dOp e.desc = 2 → ∃ t, Answers (.fabricAck p) s t ∧ KeepsMemory s t ∧ ∃ x ∈ (tileOf t site).moveQ.entries, x.seq = e.seq ∧
        x.prog = .done (if p.status = 0 then 0 else if p.status = 0x0A then 0x0A else 0x0B)) ∧
      (p.kind = 2 → dOp e.desc = 1 → p.status = 0 → p.payload.length = 512 → k < 8192 → bankServes s site (moveLocal e.desc + k) 5 = true →
        ∃ t, Answers (.readResp ⟨p, [], []⟩) s t ∧ rowBytes t site (moveLocal e.desc + k) = p.payload ∧ OnlyRow s t site (moveLocal e.desc + k) ∧
          ∃ x ∈ (tileOf t site).moveQ.entries, x.seq = e.seq ∧ x.prog = .done 0)) ∧
    (∀ (tree : Fin 16) (port : Fin 19), p.kind = 4 →
      let e := treeEntry s tree
      let here := fun r : Reduction => decide (r.tree = tree.val ∧ r.offset = p.offset ∧ r.gen = p.generation)
      (profileExtended s = false ∨ treeValid e = false ∨ (treeChildren e).contains port.val = false →
        ∃ t, Answers (.reduce tree port ⟨p, [], []⟩) s t ∧ KeepsMemory s t ∧ t.reductions = s.reductions ∧ dnum t 0x4400 0x28 = (dnum s 0x4400 0x28 + 1) % 2 ^ 64) ∧
      (profileExtended s = true → treeValid e = true → (treeChildren e).contains port.val = true → port ≠ 18 → s.reductions.find? here = none →
        Answers (.reduce tree port ⟨p, [], []⟩) s (settlePins { s with reductions := s.reductions.filter (fun x => !here x) ++
          [{ tree := tree, offset := p.offset, gen := p.generation, contributions := [(port.val, p.payload, p.poison)], since := now s }] })) ∧
      ∀ r : Reduction, profileExtended s = true → treeValid e = true → (treeChildren e).contains port.val = true → s.reductions.find? here = some r →
        (r.contributions.any fun c => decide (c.1 = port.val)) = false → treeComplete e (withContribution r port p) = true →
        treeParent e < 18 → linkUsable s (treeParent e) = true →
        ∃ t q, Answers (.reduce tree port ⟨p, [], []⟩) s t ∧ Leaves s t (treeParent e) q ∧ q.kind = 4 ∧ q.offset = r.offset ∧ q.generation = r.gen ∧
          q.payload = (treeSum e (withContribution r port p)).1 ∧ q.poison = (treeSum e (withContribution r port p)).2 ∧
          t.reductions = s.reductions.filter (fun x => !here x) ∧ KeepsMemory s t) ∧
    (∀ (e : List Byte) (r r' : Reduction), (r.contributions.map (·.1)).Nodup → r.contributions.Perm r'.contributions → treeSum e r = treeSum e r') ∧
    (∀ (tree : Fin 16) (offset : Nat) (gen : BitVec 16) (r : Reduction),
      let here := fun x : Reduction => decide (x.tree = tree.val ∧ x.offset = offset ∧ x.gen = gen)
      s.reductions.find? here = some r → r.since + dnum s 0x4400 0x25 ≤ now s →
      ∃ t, Answers (.reductionTimeout tree offset gen) s t ∧ t.reductions = s.reductions.filter (fun x => !here x) ∧
        dnum t 0x4400 0x29 = (dnum s 0x4400 0x29 + 1) % 2 ^ 64 ∧ KeepsMemory s t) ∧
    (∀ (sender : BitVec 10) (id : BitVec 32) (kind : BitVec 8) (instant argument : BitVec 64), ∃ t code,
      Answers (.schedule sender id kind instant argument) s t ∧ t.out = s.out ++ [.fabricControl sender.toNat 0x03 (leBytes 4 id.toNat ++ leBytes 1 code)] ∧
      (timeRefused s = true → code = 1) ∧
      (timeRefused s = false → kind = 0 ∨ 3 < kind.toNat → code = 4) ∧
      (timeRefused s = false → kind ≠ 0 → kind.toNat ≤ 3 → instant.toNat < now s + 6400 → code = 2) ∧
      (timeRefused s = false → now s + 6400 ≤ instant.toNat →
        (kind = 1 → code = if argument.toNat < 64 ∧ bitAt (dget s 0x4400 0x26) argument.toNat = true then 0 else 3) ∧
        (kind = 2 → code = if argument.toNat = dnum s 0x2100 0x02 then 0 else 3) ∧
        (kind = 3 → code = if fromPartner s sender = true then 0 else 3)) ∧
      (code ≠ 0 → t.schedules = s.schedules ∧ t.regs = s.regs) ∧
      (code = 0 → kind ≠ 1 → t.schedules = s.schedules ++ [⟨id, kind.toNat, instant.toNat, argument⟩])) ∧
    (∀ (id : BitVec 32) (code : BitVec 8), Answers (.scheduleAnswer id code) s (settlePins s)) ∧
    (∀ (id : BitVec 32) (x : Scheduled), (s.schedules.find? fun x => decide (x.id = id)) = some x → x.instant ≤ now s →
      ∃ t, Answers (.scheduledInstant id) s t ∧ t.schedules = s.schedules.erase x ∧
        (x.kind = 2 → groupCheck s [1] = 0 → dnum t 0x2100 0x01 = 1 ∧ t.budget.running = true) ∧
        (x.kind = 3 → 160000 ≤ x.argument.toNat → dnum t 0x3600 0x0C = x.argument.toNat)) ∧
    ∀ (sender : BitVec 10) (nonce : BitVec 64),
      Answers (.probe sender nonce) s (settlePins { s with out := s.out ++ [.fabricControl sender.toNat 0x05 (leBytes 8 nonce.toNat ++ serial24)] })

/-- R350, R592, R595, R596: a pending key takes effect at its instant and replaces its slot's, an all-zero one removes it; a previous key ends 1 ms after a switch; a report is finished by the identity key over the body that the nonce fixed. -/
def Obligations.KeysAndReportsTakeEffect : Prop :=
  ∀ s : State,
    (∀ (target : Fin 20) (slot : Fin 3) (k : KeyRec),
      s.sec.keys.find? (fun k => decide (k.target = target.val ∧ k.slot = slot.val) && !k.active) = some k → k.activeAt ≤ keyTime s target →
      ∃ t, Answers (.keyActivation target slot) s t ∧
        (∀ x : KeyRec, x.target = target.val → x.slot = slot.val →
          (x ∈ t.sec.keys ↔ slice k.material 40 32 ≠ zeros 32 ∧ x = { k with active := true })) ∧
        (∀ x : KeyRec, ¬ (x.target = target.val ∧ x.slot = slot.val) → (x ∈ t.sec.keys ↔ x ∈ s.sec.keys)) ∧
        t.otp = s.otp ∧ t.sessions = s.sessions ∧ t.links = s.links ∧ KeepsMemory s t) ∧
    (∀ link : LinkId, mget 0 s.sec.previous link ≠ 0 → mget 0 s.sec.previous link - 1 + 16000000 ≤ now s →
      ∃ t, Answers (.previousKeyExpiry link) s t ∧ mget 0 t.sec.previous link = 0 ∧ t.sec.keys = s.sec.keys ∧
        ∀ j, j ≠ link.val → mget 0 t.sec.previous j = mget 0 s.sec.previous j) ∧
    (∀ (at_ : Nat) (body : List Byte), s.sec.reportTime = some (at_, body) → s.sec.identityOk = true →
      ∃ t r, Answers .attestationReportReady s t ∧ t.sec.report = some r ∧ r.take body.length = body ∧ r.length = body.length + 4627 ∧
        t.sec.reportTime = none ∧ t.sec.reports = s.sec.reports + 1 ∧ t.sec.keys = s.sec.keys ∧ t.otp = s.otp) ∧
    (s.sec.reportTime = none → Answers .attestationReportReady s (settlePins s)) ∧
    ∀ nonce : List Byte, nonce.length = 64 →
      let b := reportBody s nonce
      leAt b 0 4 = 0x54535441 ∧ leAt b 4 2 = 1 ∧ leAt b 6 2 = (s.hoods.filter fun h => decide (h.2.state = 2)).length % 2 ^ 16 ∧
      leAt b 8 8 = now s % 2 ^ 64 ∧ slice b 16 64 = nonce ∧ slice b 80 24 = serial24

namespace Sys2Proof.Machine

/-- A message is taken from a twin link: the link is up and in the pair, and the epoch is not more than one below (R512, R518). -/
abbrev TwinTakes (s : State) (h : TwinHdr) : Prop := twinArrives s h = true ∧ s.journal.epoch ≤ h.epoch + 1

/-- A message of the stream is taken: the state also exchanges the stream. -/
abbrev StreamTakes (s : State) (h : TwinHdr) : Prop := TwinTakes s h ∧ streaming s = true

/-- A violation leaves the pair as it was: a REJECT goes out and 0x4800:14 advances (R522). -/
abbrev TwinRejects (s t : State) (code arg : Nat) : Prop :=
  t.out = s.out ++ [.twin 0x7F s.journal.epoch (leBytes 1 code ++ leBytes 8 arg)] ∧
  dnum t 0x4800 0x14 = (dnum s 0x4800 0x14 + 1) % 2 ^ 32 ∧ t.twin = s.twin ∧ t.orders = s.orders ∧ KeepsMemory s t

/-- The twin links that carry this member's messages. -/
def twinLinks (s : State) : List Nat := [0, 1].filter fun l => linkUsable s (16 + l) && !s.twin.excluded.contains l

end Sys2Proof.Machine

/-- R506, R507, R510 to R512, R518, R522: HELLO forms a pair, or excludes the cable or the build; HEARTBEAT keeps it; loss leads to SUSPECT and a probe, and its end to ALONE or, cut off and answered, to ISOLATED; member 1 takes member 0's time; a mode takes effect at its epoch. -/
def Obligations.TwinPairFormsAndIsLost : Prop :=
  ∀ s : State,
    (∀ (h : TwinHdr) (m : HelloMsg), twinArrives s h = false ∨ dget s 0x4800 0x04 = [] → Answers (.hello h m) s (settlePins s)) ∧
    (∀ (h : TwinHdr) (m : HelloMsg), twinArrives s h = true → dget s 0x4800 0x04 ≠ [] →
      (3 < m.modeRequest.toNat ∨ 2 < m.profile.toNat → ∃ t, Answers (.hello h m) s t ∧ TwinRejects s t 0x13 0) ∧
      (m.modeRequest.toNat ≤ 3 → m.profile.toNat ≤ 2 →
      (m.serial ≠ dget s 0x4800 0x04 → ∃ t, Answers (.hello h m) s t ∧ h.link.val ∈ t.twin.excluded ∧ t.twin.st = s.twin.st ∧
        dnum t 0x4800 0x14 = (dnum s 0x4800 0x14 + 1) % 2 ^ 32) ∧
      (m.serial = dget s 0x4800 0x04 → (∀ p, otherPeer s h.link = some p → p = m.serial) →
        (m.build ≠ slice (dget s 0x1000 0x07) 0 72 → ∃ t, Answers (.hello h m) s t ∧ t.twin.st = .mismatch ∧ t.twin.mode = 0) ∧
        (m.build = slice (dget s 0x1000 0x07) 0 72 → s.twin.mode = 0 →
          s.twin.st = .solo ∨ s.twin.st = .alone ∨ s.twin.st = .isolated →
          ∃ t, Answers (.hello h m) s t ∧ t.twin.st = .forming ∧ t.twin.partnerSerial = m.serial ∧
            t.twin.member = some (if serialLower (Config.fusedSerial.take 24) m.serial then 0 else 1) ∧
            (s.twin.st = .solo → m.front = false → t.twin.front = serialLower (Config.fusedSerial.take 24) m.serial) ∧
            (s.twin.st = .alone → t.twin.front = true) ∧ (s.twin.st = .isolated → t.twin.front = false))))) ∧
    (streaming s = true ∨ s.twin.st = .forming → s.twin.beatSent + dnum s 0x4800 0x0B ≤ now s →
      ∃ t b, Answers .heartbeatSend s t ∧ t.out = s.out ++ List.replicate (twinLinks s).length (.twin 0x02 s.journal.epoch b) ∧
        leAt b 0 8 = now s % 2 ^ 64 ∧ leAt b 8 1 = pairCode s.twin.st ∧ t.twin = { s.twin with beatSent := now s }) ∧
    (∀ (h : TwinHdr) (m : BeatMsg), TwinTakes s h →
      (streaming s = true ∨ s.twin.st = .forming → ∃ t, Answers (.heartbeat h m) s t ∧ t.twin.lastBeat = now s ∧
        t.twin.st = (if s.twin.st = .suspect then s.twin.before else s.twin.st) ∧ t.twin.partnerFabric = m.fabricId ∧ t.twin.suspectSince = none ∧
        t.orders = s.orders ∧ t.out = s.out) ∧
      (s.twin.st = .solo ∨ s.twin.st = .mismatch ∨ s.twin.st = .isolated → ∃ t, Answers (.heartbeat h m) s t ∧ TwinRejects s t 0x14 0)) ∧
    (∀ (h : TwinHdr) (m : BeatMsg), twinArrives s h = true → streaming s = true → h.epoch + 1 < s.journal.epoch →
      ∃ t, Answers (.heartbeat h m) s t ∧ TwinRejects s t 0x11 s.journal.epoch) ∧
    (s.twin.st = .paired ∨ s.twin.st = .syncing → s.twin.lastBeat + dnum s 0x4800 0x0B * dnum s 0x4800 0x0C ≤ now s →
      ∃ t w, Answers .heartbeatLoss s t ∧ t.twin.st = .suspect ∧ t.twin.before = s.twin.st ∧ t.twin.suspectSince = some (now s) ∧
        t.twin.probeNonce = some w ∧ t.twin.answered = false ∧
        t.out = s.out ++ .fabricControl s.twin.partnerFabric.toNat 0x04 (leBytes 8 w.toNat) :: (if s.twin.front then [] else [.hostPing])) ∧
    (∀ (nonce : BitVec 64) (serial : List Byte), s.twin.st = .suspect → s.twin.probeNonce = some nonce →
      slice serial 0 24 = slice s.twin.partnerSerial 0 24 →
      Answers (.probeAnswer nonce serial) s (settlePins { s with twin := { s.twin with answered := true } })) ∧
    (∀ since : Nat, s.twin.suspectSince = some since → s.twin.st = .suspect → since + dnum s 0x4800 0x0D ≤ now s → s.deferred = [] →
      (s.twin.front = true ∨ s.twin.answered = false → ∃ t, Answers .probeWindowExpiry s t ∧ t.twin.st = .alone ∧ t.twin.front = true) ∧
      (s.twin.front = false → s.twin.answered = true → ∃ t, Answers .probeWindowExpiry s t ∧ t.twin.st = .isolated ∧ t.twin.front = false)) ∧
    (∀ (h : TwinHdr) (off : Int), StreamTakes s h → s.twin.mode ≠ 0 → s.twin.member = some 1 → h.link = 0 ∨ linkUsable s 16 = false →
      -2 ^ 63 ≤ off → off < 2 ^ 63 →
      ∃ t, Answers (.twinTime h off) s t ∧ dint t 0x4800 0x13 = off ∧ t.time.twinDiscipline = true ∧ now s ≤ now t ∧ t.twin = s.twin) ∧
    ∀ m at_ : Nat, s.twin.modeAt = some (m, at_) → at_ ≤ s.journal.epochAt →
      ∃ t, Answers .twinModeEffect s t ∧ t.twin.mode = m ∧ t.twin.modeAt = none ∧
        (s.twin.mode < m → t.twin.st = .syncing ∨ t.twin.st = .paired) ∧ (m ≤ s.twin.mode → t.twin.st = s.twin.st)

/-- R508, R509, R511 to R517, R520, R522, R536: records are held in order and acknowledged, a gap is reported; what the partner holds is retired; tokens, pages, digests and copies are kept for the regions held; two digests that differ are counted; a weight digest settles the orders that wait for it, or brings the partner a copy. -/
def Obligations.TwinStreamIsHeldAndCompared : Prop :=
  ∀ (h : TwinHdr) (s : State), StreamTakes s h →
    (∀ (x : JRecord) (rest : List JRecord),
      let next := if s.twin.shadowNext = 0 then x.seq else s.twin.shadowNext
      ((∃ y ∈ x :: rest, y.type = 0 ∨ 9 < y.type.toNat) → ∃ t, Answers (.journal h (x :: rest)) s t ∧ TwinRejects s t 0x13 0) ∧
      ((∀ y ∈ x :: rest, 1 ≤ y.type.toNat ∧ y.type.toNat ≤ 9) →
        (next < x.seq → ∃ t, Answers (.journal h (x :: rest)) s t ∧ TwinRejects s t 0x10 next) ∧
        (rest = [] → x.seq = next → ∃ t, Answers (.journal h [x]) s t ∧ t.twin.shadowNext = next + 1 ∧
          .twin 0x11 s.journal.epoch (leBytes 8 next) ∈ t.out ∧
          (x.type ≠ 6 → x.type ≠ 7 → x.type ≠ 9 → homed s x.region.toNat = false → x ∈ t.twin.shadowRecords)) ∧
        (rest = [] → x.seq < next → ∃ t, Answers (.journal h [x]) s t ∧ t.twin = s.twin ∧ t.orders = s.orders ∧
          t.out = s.out ++ [.twin 0x11 s.journal.epoch (leBytes 8 (next - 1))]))) ∧
    (∀ upTo : Nat, s.deferred = [] → ∃ t, Answers (.jack h upTo) s t ∧
      t.journal.partnerAcked = max s.journal.partnerAcked (min (upTo + 1) s.journal.next) ∧ t.orders = s.orders ∧ t.twin = s.twin) ∧
    (∀ (r : RegionId) (step : Nat) (ts : List TokenMsg), shadowHeld s r = true → ∃ t, Answers (.tokens h r step ts) s t ∧
      t.twin.shadowTokens = s.twin.shadowTokens ++ ts.map (fun x => (r.val, step, x)) ∧ t.orders = s.orders ∧ KeepsMemory s t) ∧
    (∀ (r : RegionId) (step : Nat) (ts : List TokenMsg), shadowHeld s r = false → ∃ t, Answers (.tokens h r step ts) s t ∧
      TwinRejects s t 0x12 r ∧ (regionOf t r).protected_ = false ∧ (regionOf t r).resync = true) ∧
    (∀ (r : RegionId) (tag : BitVec 32) (page : Nat) (data : List Byte), shadowHeld s r = true → ∃ t, Answers (.kvPage h r tag page data) s t ∧
      t.orders = s.orders ∧ KeepsMemory s t ∧
      (∀ d, (r.val, tag, page, d) ∈ t.twin.shadowPages ↔ d = data) ∧
      ∀ q, (q.1, q.2.1, q.2.2.1) ≠ (r.val, tag, page) → (q ∈ t.twin.shadowPages ↔ q ∈ s.twin.shadowPages)) ∧
    (∀ (r : RegionId) (step : Nat) (tag : BitVec 32) (d d' : BitVec 64), regionUsed s r = true → s.twin.digests = [] → (regionOf s r).cover = false →
      (homed s r = true → (regionOf s r).coverStep < step) →
      (s.twin.ownDigests = [] → ∃ t, Answers (.digest h r step [(tag, d', false)]) s t ∧ t.twin.digests = [(r.val, step, tag, d', false)] ∧ t.orders = s.orders) ∧
      (s.twin.ownDigests = [(r.val, step, tag, d, false)] →
        ∃ t, Answers (.digest h r step [(tag, d', false)]) s t ∧ t.twin.digests = [] ∧ t.twin.ownDigests = [] ∧
          (d = d' → dnum t 0x4800 0x10 = dnum s 0x4800 0x10 ∧ (awaitsReferee s r tag = false → (r.val, tag) ∉ t.twin.mismatched) ∧
            (awaitsReferee s r tag = true → t.twin.withheld = s.twin.withheld ∧ t.orders = s.orders)) ∧
          (d ≠ d' → dnum t 0x4800 0x10 = (dnum s 0x4800 0x10 + 1) % 2 ^ 64 ∧
            ((r.val, tag) ∉ s.twin.mismatched → (r.val, tag) ∈ t.twin.mismatched)))) ∧
    (∀ (hood : BitVec 16) (dig : List Byte) (at_ : Nat),
      (holdsCopy s hood.toNat = true → dig = (mfSection (manifest s hood.toNat) 4).2.2 → (hoodOf s hood.toNat).partnerBad = false →
        (s.twin.refereed = [] → Answers (.weightDigest h hood dig at_) s (settlePins s)) ∧
        ∀ x : Referee, s.twin.refereed = [x] → x.hood = hood.toNat →
          (x.own = none → ∃ t, Answers (.weightDigest h hood dig at_) s t ∧ t.twin.refereed = [{ x with partner := some true }] ∧ t.orders = s.orders ∧
            t.hoods = s.hoods ∧ t.twin.withheld = s.twin.withheld ∧ KeepsMemory s t) ∧
          (x.own = some true → Answers (.weightDigest h hood dig at_) s
            (settlePins (recompute { s with twin := { s.twin with refereed := [] } } x.region x.step x.tag)))) ∧
      (hoodLoaded s hood.toNat = true → dig ≠ (mfSection (manifest s hood.toNat) 4).2.2 → s.twin.mode ≠ 0 → s.twin.refereed = [] →
        (weightDigest s hood.toNat).2 = ((mfSection (manifest s hood.toNat) 4).2.2, false) → ∃ t, Answers (.weightDigest h hood dig at_) s t ∧
        (hoodOf t hood.toNat).partnerBad = true ∧ t.orders = s.orders ∧ t.regions = s.regions ∧
        .twin 0x22 s.journal.epoch (leBytes 1 0 ++ leBytes 2 hood.toNat ++ (hoodOf s hood.toNat).image) ∈ t.out) ∧
      (holdsCopy s hood.toNat = false → ∃ t, Answers (.weightDigest h hood dig at_) s t ∧ TwinRejects s t 0x12 0xFF)) ∧
    (∀ (hood : BitVec 16) (rows : List SiteRows), hoodLoaded s hood.toNat = true → rangeHolds s ((hoodOf s hood.toNat).base, (hoodOf s hood.toNat).len) = false →
      ((weightDigest s hood.toNat).2 = ((mfSection (manifest s hood.toNat) 4).2.2, false) → (∀ r ∈ hoodStaged s hood.toNat, (regionOf s r).pins = []) → s.twin.refereed = [] →
        ∃ t, Answers (.weightDigestCheck hood rows) s t ∧ t.regions = s.regions ∧ t.hoods = s.hoods ∧ t.orders = s.orders ∧ KeepsMemory s t) ∧
      ((weightDigest s hood.toNat).2 ≠ ((mfSection (manifest s hood.toNat) 4).2.2, false) → s.twin.mode ≠ 0 → hoodStaged s hood.toNat = [] →
        (hoodOf s hood.toNat).partnerBad = false → ∃ t, Answers (.weightDigestCheck hood rows) s t ∧ (hoodOf t hood.toNat).state = 1)) ∧
    (∀ (a : Bool) (id : BitVec 16) (data : List Byte), ∃ t, Answers (.hoodCopy h a id 0 data false) s t ∧
      (∀ d, (a, id, d) ∈ t.twin.incoming ↔ d = data) ∧ t.hoods = s.hoods ∧ KeepsMemory s t) ∧
    (∀ (a : Bool) (id : BitVec 16) (off : Nat) (data : List Byte) (last : Bool), s.twin.incoming = [] → off ≠ 0 →
      ∃ t, Answers (.hoodCopy h a id off data last) s t ∧ TwinRejects s t 0x13 0) ∧
    (∀ (k : Byte) (b : List Byte),
      (k = 0 → s.twin.front = false → Answers (.forward h (k :: b)) s (settlePins s)) ∧
      (k = 0 → s.twin.front = true → Answers (.forward h (k :: b)) s (settlePins (ringPush (entrySeen s (slice b 2 32)) (leAt b 0 2) (slice b 2 32) (parsePieces 8 (b.drop 34))))) ∧
      (5 < k.toNat → ∃ t, Answers (.forward h (k :: b)) s t ∧ TwinRejects s t 0x13 0)) ∧
    (∀ m : SessionMsg, (m.number.val = 0 ∨ 2 < m.role.toNat → ∃ t, Answers (.twinSession h m) s t ∧ TwinRejects s t 0x13 0) ∧
      (m.number.val ≠ 0 → m.role.toNat ≤ 2 → s.twin.front = true → Answers (.twinSession h m) s (settlePins s)) ∧
      (m.number.val ≠ 0 → m.role.toNat ≤ 2 → s.twin.front = false → ∃ t, Answers (.twinSession h m) s t ∧
        (∀ x : SessionMsg, x.number = m.number → (x ∈ t.twin.shadowSessions ↔ m.opened = true ∧ x = m)) ∧
        ∀ x : SessionMsg, x.number ≠ m.number → (x ∈ t.twin.shadowSessions ↔ x ∈ s.twin.shadowSessions))) ∧
    (∀ arg : Nat,
      (∃ t, Answers (.reject h 0x01 arg) s t ∧ h.link.val ∈ t.twin.excluded ∧ t.orders = s.orders) ∧
      (∃ t, Answers (.reject h 0x10 arg) s t ∧ t.twin = s.twin ∧ t.journal = s.journal ∧
        t.out = s.out ++ (s.journal.entries.filter fun e => decide (arg ≤ e.record.seq)).map fun e => .twin 0x10 s.journal.epoch (jBytes e.record)) ∧
      (arg < 64 → ∃ t, Answers (.reject h 0x12 arg) s t ∧ (regionOf t arg).protected_ = false ∧ (regionOf t arg).resync = true ∧ t.orders = s.orders)) ∧
    ∀ r : RegionId, s.twin.mode ≠ 0 → regionUsed s r = true → ∃ t, Answers (.regionProtected r) s t ∧ (regionOf t r).protected_ = true ∧
      (regionOf t r).resync = false ∧ (t.twin.st = s.twin.st ∨ t.twin.st = .paired) ∧ ∀ q, q ≠ r.val → regionOf t q = regionOf s q

namespace Sys2Proof.Machine

/-- The commands on MB00 and their codes (R558). -/
def bringRows : List (Instr × Nat) :=
  [(.readIdentity, 2), (.trainHbm, 3), (.powerClusters, 4), (.lockTime, 5), (.quickPounce, 6), (.loadTables, 7), (.trainLinks, 8), (.enterService, 9),
   (.auto, 10), (.warmRestart, 11), (.status, 15)]

/-- The word of an answer on MB01 (R559): code, tag, status, the last completed step, detail. -/
abbrev bringWord (s : State) (code : Nat) (tag : BitVec 8) (status detail : Nat) : Word64 :=
  BitVec.ofNat 64 (code + tag.toNat * 2 ^ 8 + status * 2 ^ 16 + s.boot.lastStep * 2 ^ 24 + detail * 2 ^ 32)

/-- An answer is given: it stands in MB01, or waits for it. -/
abbrev BringAnswers (t : State) (w : Word64) : Prop := (mbFull t 1 = true ∧ reg64 t (mbReg 1 0) = w.toNat) ∨ w ∈ t.boot.answers

/-- A bring-up step is running, apart from AUTO and a restart. -/
abbrev StepRuns (s : State) (step : Nat) (tag : BitVec 8) (arg : BitVec 48) : Prop :=
  s.boot.restart = false ∧ s.boot.running = some (step, tag, arg) ∧ s.boot.auto = none

/-- The running step has completed. -/
abbrev StepCompletes (s t : State) (obs : BringObs) (step : Nat) : Prop :=
  Answers (.bringupWorkDone obs) s t ∧ t.boot.lastStep = step ∧ t.boot.running = none

end Sys2Proof.Machine

/-- R557 to R560, R576: the word of MB00 is answered BUSY while a step runs, OUT_OF_ORDER out of the sequence, BAD_ARGUMENT for a reserved bit or a unit without an entry; else its step begins. The order of the three checks and the argument of STATUS are the model's reading (log entry 52). -/
def Obligations.BringUpCommandsKeepTheirOrder : Prop :=
  ∀ row ∈ bringRows, ∀ s : State, s.boot.firmware = true → mbFull s 0 = true → reg64 s (mbReg 0 0) % 256 = row.2 → s.boot.answers.length < 16 →
    let w := reg64 s (mbReg 0 0)
    let tag := BitVec.ofNat 8 (w / 256)
    let arg := w / 65536
    let busy := s.boot.running.isSome = true ∨ s.boot.auto.isSome = true
    ∃ t, Answers row.1 s t ∧ mbFull t 0 = false ∧ KeepsMemory s t ∧
      (row.2 = 0x0F → arg = 0 → t.boot.running = s.boot.running ∧
        BringAnswers t (bringWord s row.2 tag 0 (match s.boot.running with
          | some x => x.1
          | none => 0xFF))) ∧
      (row.2 ≠ 0x0F → busy → t.boot.running = s.boot.running ∧ BringAnswers t (bringWord s row.2 tag 3 0)) ∧
      (row.2 ≠ 0x0F → ¬ busy → bringAccepted s row.2 = false → t.boot.running = none ∧ BringAnswers t (bringWord s row.2 tag 2 0)) ∧
      (row.2 ≠ 0x0F → ¬ busy → bringAccepted s row.2 = true → bringBadArg s row.2 arg = true →
        t.boot.running = none ∧ BringAnswers t (bringWord s row.2 tag 4 0)) ∧
      (row.2 ≤ 9 → ¬ busy → bringAccepted s row.2 = true → bringBadArg s row.2 arg = false →
        t.boot.running = some (row.2, tag, BitVec.ofNat 48 arg) ∧ t.boot.lastStep = s.boot.lastStep) ∧
      (row.2 = 10 → ¬ busy → bringAccepted s row.2 = true → arg = 0 → t.boot.running = some (s.boot.lastStep + 1, tag, 0) ∧ t.boot.auto = some tag) ∧
      (row.2 = 11 → ¬ busy → bringAccepted s row.2 = true → arg = 0 → t.boot.restart = true ∧ BringAnswers t (bringWord s row.2 tag 0 0))

/-- R555, R560, R561, R574, R576, R577: the ROM starts with a reference; each step ends as its work does, a failed one is the one to repeat, and an accepted restart keeps HBM, the count of time and OTP. -/
def Obligations.BringUpStepsEndAsTheirWorkDoes : Prop :=
  ∀ (obs : BringObs) (s : State),
    (∀ eeprom, s.boot.inReset = true → s.time.refA = true ∨ s.time.refB = true → ∃ t, Answers (.bringupStart eeprom) s t ∧ t.boot.inReset = false ∧
      t.pins.powerGood = true ∧ regBit t (errReg 0) 0 = true ∧ (portOf t 2).up = true ∧ t.boot.lastStep = s.boot.lastStep ∧ KeepsMemory s t) ∧
    (s.boot.restart = true → s.otp.appending = [] → ∃ t, Answers (.bringupWorkDone obs) s t ∧ t.hbm = s.hbm ∧ t.hbmTag = s.hbmTag ∧ t.otp = s.otp ∧
      now t = now s ∧ t.spad = [] ∧ t.fmem = [] ∧ t.orders = [] ∧ t.sessions = [] ∧ t.boot.restart = false ∧ t.boot.firmware = false ∧
      ∀ h : Stack, (stackRec t h).st = .selfRefresh) ∧
    (∀ (tag : BitVec 8) (arg : BitVec 48),
      (StepRuns s 2 tag arg → ∃ t, StepCompletes s t obs 2 ∧ dnum t 0x7000 0x01 = eepState obs.eeprom) ∧
      (StepRuns s 3 tag arg → s.boot.warm = false → obs.hbmStacks = [] → ∃ t, Answers (.bringupWorkDone obs) s t ∧ t.boot.lastStep = s.boot.lastStep ∧
        t.boot.running = none ∧ t.hbm = [] ∧ ∀ h : Stack, (stackRec t h).st = .failed) ∧
      (StepRuns s 3 tag arg → s.boot.warm = false → dnum s 0x4000 0x12 ≠ 1 →
        let why (h : Stack) : Nat := trainCause false (obs.hbmStacks.find? fun x => decide (x.stack.val = h.val))
        ∃ t, Answers (.bringupWorkDone obs) s t ∧ t.hbm = [] ∧ t.boot.running = none ∧
          (∀ h : Stack, dnum t (0x4000 + h) 0x02 = 6400 ∧ (stackRec t h).st = if why h = 0 then .up else .failed) ∧
          t.boot.lastStep = if ∃ h, why h = 0 then 3 else s.boot.lastStep) ∧
      (StepRuns s 4 tag arg → clustersSettled s = true → ∃ t, StepCompletes s t obs 4) ∧
      (StepRuns s 4 tag arg → clustersSettled s = false → Answers (.bringupWorkDone obs) s (settlePins s)) ∧
      (StepRuns s 5 tag arg → timeDone s arg.toNat = true → ∃ t, StepCompletes s t obs 5) ∧
      (StepRuns s 5 tag arg → timeDone s arg.toNat = false → Answers (.bringupWorkDone obs) s (settlePins s)) ∧
      (∀ since : Nat, StepRuns s 6 tag arg → s.boot.lockWait = some since → since + 32000000 ≤ now s → ∃ t, StepCompletes s t obs 6 ∧
        ∀ x : Site, bitAt (dget t 0x5100 0x08) x = true ↔ x ∈ obs.pounceFails ∧ clusterOn s (siteCluster x) = true) ∧
      (StepRuns s 7 tag arg → ∃ t, Answers (.bringupWorkDone obs) s t ∧ t.boot.running = none ∧
        t.boot.lastStep = (if (loadTables s obs).2 then 7 else s.boot.lastStep) ∧
        ((loadTables s obs).2 = true → dget t 0x3010 0x03 = wholeMap t ∧ dget t 0x3010 0x04 = remapMap t)) ∧
      (StepRuns s 8 tag arg → ∃ t, StepCompletes s t obs 8) ∧
      (StepRuns s 9 tag arg → ∃ t, StepCompletes s t obs 9 ∧ t.boot.orderEngines = true)) ∧
    ∀ (tag : BitVec 8) (arg : BitVec 48) (since : Nat), s.boot.running = some (5, tag, arg) → s.boot.lockWait = some since →
      since + 80000000000 ≤ now s → timeDone s arg.toNat = false →
      (s.boot.auto = none → ∃ t, Answers .lockWaitExpiry s t ∧ t.boot.running = none ∧ t.boot.lastStep = s.boot.lastStep ∧
        BringAnswers t (bringWord s 5 tag 5 0)) ∧
      (∀ a, s.boot.auto = some a → ∃ t, Answers .lockWaitExpiry s t ∧ t.boot.running = some (6, a, 0) ∧ t.boot.lastStep = 5 ∧ t.boot.auto = some a)

namespace Sys2Proof.Machine

/-- What a reset of every block leaves: OTP alone, with a cut append read as kind 0xFF (R550, R554). -/
abbrev IsReset (s t : State) : Prop :=
  t.regs = State.reset.regs ∧ t.dict = State.reset.dict ∧ t.tiles = State.reset.tiles ∧ t.spad = [] ∧ t.imem = [] ∧ t.fmem = [] ∧ t.hbm = [] ∧
  t.regions = State.reset.regions ∧ t.orders = [] ∧ t.sessions = State.reset.sessions ∧ t.journal = State.reset.journal ∧ t.boot = State.reset.boot ∧
  t.sec = State.reset.sec ∧ now t = 0 ∧ t.otp.ownerState = s.otp.ownerState ∧ t.otp.ownerHash = s.otp.ownerHash ∧ t.otp.rollback = s.otp.rollback ∧
  t.otp.appending = [] ∧ t.otp.field = s.otp.field ++ s.otp.appending.map fun d => (0xFF, d.1)

/-- The running entry of a Pounce test in the maintenance list. -/
abbrev TestRuns (s : State) (m : Maint) : Prop :=
  (s.maint.find? fun x => decide (x.id = m.id ∧ x.activity = 2) && x.running) = some m

/-- An activity that waits in the maintenance list, the only one under its number. -/
abbrev ActivityWaits (s : State) (m : Maint) : Prop :=
  (s.maint.find? fun x => decide (x.id = m.id) && !x.running) = some m ∧ ∀ x ∈ s.maint, x.id = m.id → x = m

end Sys2Proof.Machine

/-- R550, R554, R565, R567, R597, R607, R615, R616: a reset keeps OTP alone; a trip darkens every cluster and puts every stack into self-refresh; an inserted module is read; a locked JTAG executes its three open instructions alone. -/
def Obligations.ResetsAndTripsKeepWhatTheyMust : Prop :=
  ∀ s : State,
    (∃ t, Answers .powerGoodReset s t ∧ IsReset s t) ∧
    (s.pins.powerGood = true → ∃ t, Answers .railExcursion s t ∧ IsReset s t) ∧
    (∀ (stack : Bool) (unit : Nat) (celsius : Int), s.pins.thermTrip = false →
      (if stack then unit < 24 ∧ 100 ≤ celsius else unit < 204 ∧ 105 ≤ celsius) →
      ∃ t, Answers (.thermalTrip stack unit celsius) s t ∧ t.pins.thermTrip = true ∧ t.boot.warm = false ∧
        (∀ c : Cluster, (clusterRec t c).power = .off ∨ (clusterRec t c).power = .dark) ∧
        ∀ h : Stack, (stackRec s h).st = .up ∨ (stackRec s h).st = .training → (stackRec t h).st = .selfRefresh) ∧
    (∀ r : ModuleReading, s.boot.inReset = false → linkMedia s r.link = 3 → ∃ t, Answers (.moduleInserted r) s t ∧
      dnum t (0x7020 + r.link) 0x01 = (if r.suitable then 2 else 3) ∧ dget t (0x7020 + r.link) 0x02 = slice r.lower 0 128 ∧
      dget t (0x7020 + r.link) 0x03 = slice r.upper 0 128 ∧ KeepsMemory s t) ∧
    ∀ name : List Byte, ∃ t, Answers (.jtagInstruction name) s t ∧ t.pins.jtag = name ∧
      (s.sec.debugScope.toNat.testBit 2 = true → t.pins.jtagRun = true) ∧
      (s.sec.debugScope = 0 → (t.pins.jtagRun = true ↔
        name ∈ ([[0x42, 0x59, 0x50, 0x41, 0x53, 0x53], [0x49, 0x44, 0x43, 0x4F, 0x44, 0x45], [0x45, 0x58, 0x54, 0x45, 0x53, 0x54]] : List (List Byte)))) ∧
      t.sec = s.sec ∧ t.regs = s.regs

/-- R538, R540, R543 to R545, R550: an activity starts once its condition holds and nothing that runs or stands before it conflicts; a test ends at its time with its outcome entered first; a failed site becomes bad; the oldest append is made. -/
def Obligations.MaintenanceRunsWithoutConflict : Prop :=
  ∀ s : State,
    (∀ (m : Maint) (c : Instr), ActivityWaits s m →
      ((m.activity = 2 ∧ c = .pounceTestStart m.id) ∨ (m.activity ≠ 2 ∧ c = .maintenanceStart m.id)) →
      (startCondition s m = false → Answers c s (settlePins s)) ∧
      (startCondition s m = true → (∃ y ∈ s.maint, y.running = true ∧ conflicts s m y = true) →
        ∃ t, Answers c s t ∧ (∀ x ∈ t.maint, x.id = m.id → x.running = false ∧ x.waits = true) ∧
          (m.waits = false → dnum t 0x5200 0x06 = (dnum s 0x5200 0x06 + 1) % 2 ^ 64)) ∧
      (startCondition s m = true → blocked s m = false → targetDark s m = false →
        ∃ t, Answers c s t ∧ (∃ x ∈ t.maint, x.id = m.id ∧ x.running = true ∧ x.started = now s) ∧ KeepsMemory s t ∧
          ∀ x ∈ s.maint, x.id ≠ m.id → x ∈ t.maint) ∧
      (startCondition s m = true → blocked s m = false → targetDark s m = true → ∃ t, Answers c s t ∧ (∀ x ∈ t.maint, x.id ≠ m.id) ∧
        (m.activity = 2 → dnum t 0x5100 0x07 = (dnum s 0x5100 0x07 + 1) % 2 ^ 64))) ∧
    (inWindow s (crownTime s) = false → Answers .maintenanceWindowOpen s s) ∧
    (∀ m : Maint, inWindow s (crownTime s) = true → ActivityWaits s m → m.activity = 6 ∨ (m.activity = 2 ∧ m.urgency = 2) →
      (s.maint.filter fun m => decide (m.activity = 6 ∨ (m.activity = 2 ∧ m.urgency = 2))) = [m] →
      startCondition s m = true → blocked s m = false → targetDark s m = false →
      ∃ t, Answers .maintenanceWindowOpen s t ∧ ∃ x ∈ t.maint, x.id = m.id ∧ x.running = true) ∧
    (∀ (m : Maint) (d : BitVec 32), TestRuns s m →
      (now s < m.started + testTime m.test → Answers (.pounceTestEnd m.id .pass) s (settlePins s) ∧ Answers (.pounceTestEnd m.id (.fail d)) s (settlePins s)) ∧
      (m.started + testTime m.test ≤ now s →
        (∃ t, Answers (.pounceTestEnd m.id .pass) s t ∧ (∀ x ∈ t.maint, x.id ≠ m.id) ∧ dnum t 0x5100 0x05 = (dnum s 0x5100 0x05 + 1) % 2 ^ 64 ∧
          leAt (dget t 0x5100 0x03) 0 4 = m.id % 2 ^ 32 ∧ leAt (dget t 0x5100 0x03) 7 1 = 0) ∧
        (∃ t, Answers (.pounceTestEnd m.id (.fail d)) s t ∧ dnum t 0x5100 0x06 = (dnum s 0x5100 0x06 + 1) % 2 ^ 64 ∧
          ∀ x : Nat, m.test < 4 → targetSite s m.scope = some x → regBit t (hubReg (siteCluster x) 0x00C) (x % 16) = true)) ∧
      (targetDark s m = true → ∃ t, Answers (.pounceTestEnd m.id .aborted) s t ∧ (∀ x ∈ t.maint, x.id ≠ m.id) ∧
        dnum t 0x5100 0x07 = (dnum s 0x5100 0x07 + 1) % 2 ^ 64)) ∧
    ∀ (d : Defect) (since : Nat) (rest : List (Defect × Nat)), s.otp.appending = (d, since) :: rest → since + 32000000 ≤ now s →
      Answers .otpAppendDone s (settlePins { s with otp := { s.otp with appending := rest, field := s.otp.field ++ [(d.kind, d)] } })

namespace Sys2Proof.Machine

/-- One round of the generator on numbers below 2^64 (R317). -/
def generatorRound (h w : Nat) : Nat :=
  let a := (h + w) % 2 ^ 64
  (a ^^^ (a >>> 32)) * 0x1000010000100001 % 2 ^ 64

/-- The generator of R317, written out: c0, c1 and k1 enter in turn. -/
def generatorWord (k0 k1 c0 c1 : Nat) : Nat :=
  let h := [c0, c1, k1, c0, c1, k1, c0, c1, k1, c0].foldl generatorRound (k0 ^^^ 0x4F5353494C4C3132)
  h ^^^ (h >>> 32)

end Sys2Proof.Machine

/-- R317, R318: 0x3600:12 takes k0, k1, c0 and c1, and 0x3600:13 then reads the generator's output word. -/
def Obligations.GeneratorIsReadBack : Prop :=
  ∀ (s : State) (c : Caller) (v : List Byte), v.length = 32 →
    objValue (writeApply s c 0x3600 0x12 v []) 0x3600 0x13 =
      leBytes 8 (generatorWord (leAt v 0 8) (leAt v 8 8) (leAt v 16 8) (leAt v 24 8))

/-- R154: a row write sets each of the row's eight tags from the data's poison, and a clean write clears a poisoned sector's tag; the row's bytes are the data's, and every other row keeps its bytes and tags. -/
def Obligations.RowWritesTakeTheTagsOfTheirData : Prop :=
  ∀ (s : State) (x row req : Nat) (events : List RowEvent) (data : List Byte) (tags : BitVec 8), data.length = 512 →
    let t := rowWrite s x row req events data tags
    (∀ i, i < 8 → (rowTags t (rowKey s x row)).toNat.testBit i = tags.toNat.testBit i) ∧
    (∀ i, i < 8 → (rowTags s (rowKey s x row)).toNat.testBit i = true → tags.toNat.testBit i = false →
      (rowTags t (rowKey s x row)).toNat.testBit i = false) ∧
    memRead t.spad (rowKey s x row * 512) 512 = data ∧
    ∀ key, key ≠ rowKey s x row → rowTags t key = rowTags s key ∧ memRead t.spad (key * 512) 512 = memRead s.spad (key * 512) 512

/-- R33, R53: a value of an array format that is no NaN passes through FP32 unchanged, subnormals and zeros with it. -/
def Obligations.ArrayFormatsSurviveFP32 : Prop :=
  ∀ (code : Nat) (f : Format), formatOf code = some f → code < 0xA → ∀ w, w < 2 ^ f.bits → decodeVal f w ≠ .nan →
    (convert f false .nearest (ofFP32 (toFP32 (decodeVal f w)))).bits = w

/-- R481: ALERT_N is driven while a received class passes the mask of an enabled error block; every step keeps it so. -/
def Obligations.EveryStepKeepsAlertOnTheErrorBlock : Prop :=
  ∀ s t : State, s.alertFollows = true → step s = .next t → t.alertFollows = true

/-- After reset no command waits, ALERT_N follows the disabled error block, every memory is in its canonical form, the boot ROM has not started and no bring-up step is complete, and the model's registers without a stated value are zero (log entry 2). -/
def Obligations.ResetIsQuietAndCanonical : Prop :=
  State.reset.pending = [] ∧ State.reset.alertFollows = true ∧ State.reset.memoriesWf = true ∧ State.reset.boot.inReset = true ∧
  State.reset.boot.firmware = false ∧ State.reset.boot.lastStep = 0 ∧ now State.reset = 0 ∧ State.reset.time.st = .free ∧ State.reset.twin.st = .solo ∧
  State.reset.sessions = [] ∧ State.reset.orders = [] ∧ (∀ r : RegionId, (regionOf State.reset r).state = .free) ∧
  (∀ c : Cluster, (clusterRec State.reset c).power = .off) ∧ State.reset.sec.debugScope = 0

end
end

