-- ==== Sys2Proof/Laws/Map.lean ====
section
/-! SUPPORT. The laws of the sparse map and of memory: a read after a write, and the canonical form kept by every operation. -/
namespace Sys2Proof.Machine
open Sys2Proof

variable {α : Type}

theorem mget_mput_other (d : α) (m : List (Nat × α)) (a b : Nat) (v : α) (h : b ≠ a) :
    mget d (mput m a v) b = mget d m b := by
  induction m with
  | nil => simp [mput, mget, h]
  | cons e m ih =>
    obtain ⟨k, w⟩ := e
    simp only [mput]
    split
    · simp [mget, h]
    · simp [mget, ih]

theorem mget_mput_same (d : α) (m : List (Nat × α)) (a : Nat) (v : α) (hm : ∀ e ∈ m, e.1 ≠ a) : mget d (mput m a v) a = v := by
  induction m with
  | nil => simp [mput, mget]
  | cons e m ih =>
    obtain ⟨k, w⟩ := e
    have hk : a ≠ k := Ne.symm (hm (k, w) List.mem_cons_self)
    simp only [mput]
    split
    · simp [mget]
    · simp [mget, hk, ih fun e he => hm e (List.mem_cons_of_mem _ he)]

theorem mdel_absent (m : List (Nat × α)) (a : Nat) : ∀ e ∈ mdel m a, e.1 ≠ a := fun e he => by
  simpa using (List.mem_filter.1 he).2

theorem mget_mdel_other (d : α) (m : List (Nat × α)) (a b : Nat) (h : b ≠ a) : mget d (mdel m a) b = mget d m b := by
  induction m with
  | nil => rfl
  | cons e m ih =>
    obtain ⟨k, w⟩ := e
    by_cases hk : k = a
    · subst hk
      simpa [mdel, mget, h] using ih
    · rw [mdel, List.filter_cons_of_pos (by simpa using hk)]
      simp only [mget]
      rw [← ih, mdel]

theorem mget_absent (d : α) (m : List (Nat × α)) (a : Nat) (hm : ∀ e ∈ m, e.1 ≠ a) : mget d m a = d := by
  induction m with
  | nil => rfl
  | cons e m ih =>
    obtain ⟨k, w⟩ := e
    have hk : a ≠ k := Ne.symm (hm (k, w) List.mem_cons_self)
    simp [mget, hk, ih fun e he => hm e (List.mem_cons_of_mem _ he)]

/-- A read after a write to the same key gives the value written. -/
@[simp] theorem mget_mset_same [DecidableEq α] (d : α) (m : List (Nat × α)) (a : Nat) (v : α) :
    mget d (mset d m a v) a = v := by
  unfold mset
  split
  · rename_i h
    rw [mget_absent d _ a (mdel_absent m a), h]
  · exact mget_mput_same d _ a v (mdel_absent m a)

/-- A write leaves every other key alone, whatever default it is read with. -/
theorem mget_mset_other [DecidableEq α] (d d' : α) (m : List (Nat × α)) (a b : Nat) (v : α) (h : b ≠ a) :
    mget d' (mset d m a v) b = mget d' m b := by
  unfold mset
  split
  · exact mget_mdel_other d' m a b h
  · rw [mget_mput_other d' _ a b v h, mget_mdel_other d' m a b h]

theorem mdel_mput (m : List (Nat × α)) (a : Nat) (v : α) : mdel (mput m a v) a = mdel m a := by
  induction m with
  | nil => simp [mput, mdel]
  | cons e m ih =>
    obtain ⟨k, w⟩ := e
    simp only [mput]
    split
    · simp [mdel]
    · simp only [mdel] at ih ⊢
      rw [List.filter_cons, List.filter_cons, ih]

@[simp] theorem mdel_mdel (m : List (Nat × α)) (a : Nat) : mdel (mdel m a) a = mdel m a := by
  simp [mdel, List.filter_filter]

/-- Of two writes to one key the later stands. -/
@[simp] theorem mset_mset [DecidableEq α] (d : α) (m : List (Nat × α)) (a : Nat) (v w : α) :
    mset d (mset d m a v) a w = mset d m a w := by
  have h : mdel (mset d m a v) a = mdel m a := by
    unfold mset
    split
    · exact mdel_mdel m a
    · rw [mdel_mput, mdel_mdel]
  calc mset d (mset d m a v) a w
      = if w = d then mdel (mset d m a v) a else mput (mdel (mset d m a v) a) a w := rfl
    _ = mset d m a w := by rw [h]; rfl

theorem mwf_iff [DecidableEq α] (d : α) (m : List (Nat × α)) :
    mwf d m = true ↔ m.Pairwise (fun a b => a.1 < b.1) ∧ ∀ e ∈ m, e.2 ≠ d := by
  induction m with
  | nil => simp [mwf]
  | cons e m ih =>
    obtain ⟨k, v⟩ := e
    cases m with
    | nil => simp [mwf]
    | cons e' m =>
      obtain ⟨k', v'⟩ := e'
      have hu : mwf d ((k, v) :: (k', v') :: m) = true ↔ (v ≠ d ∧ k < k') ∧ mwf d ((k', v') :: m) = true := by
        simp [mwf]
      rw [hu, ih]
      constructor
      · rintro ⟨⟨hv, hk⟩, hp, he⟩
        refine ⟨List.pairwise_cons.2 ⟨?_, hp⟩, ?_⟩
        · intro x hx
          rcases List.mem_cons.1 hx with rfl | hx
          · exact hk
          · exact Nat.lt_trans hk ((List.pairwise_cons.1 hp).1 x hx)
        · intro x hx
          rcases List.mem_cons.1 hx with rfl | hx
          · exact hv
          · exact he x hx
      · rintro ⟨hp, he⟩
        obtain ⟨h1, h2⟩ := List.pairwise_cons.1 hp
        exact ⟨⟨he _ List.mem_cons_self, h1 _ List.mem_cons_self⟩, h2, fun x hx => he x (List.mem_cons_of_mem _ hx)⟩

theorem mem_mput (m : List (Nat × α)) (a : Nat) (v : α) (e : Nat × α) (h : e ∈ mput m a v) : e = (a, v) ∨ e ∈ m := by
  induction m with
  | nil => simpa [mput] using h
  | cons x m ih =>
    obtain ⟨k, w⟩ := x
    simp only [mput] at h
    split at h
    · exact List.mem_cons.1 h
    · rcases List.mem_cons.1 h with h | h
      · exact .inr (h ▸ List.mem_cons_self)
      · rcases ih h with h | h
        · exact .inl h
        · exact .inr (List.mem_cons_of_mem _ h)

theorem mput_pairwise (m : List (Nat × α)) (a : Nat) (v : α) (h : m.Pairwise (fun a b => a.1 < b.1)) (hm : ∀ e ∈ m, e.1 ≠ a) :
    (mput m a v).Pairwise (fun a b => a.1 < b.1) := by
  induction m with
  | nil => simp [mput]
  | cons x m ih =>
    obtain ⟨k, w⟩ := x
    obtain ⟨h1, h2⟩ := List.pairwise_cons.1 h
    have hk := hm (k, w) List.mem_cons_self
    simp only [mput]
    split
    · rename_i hk
      refine List.pairwise_cons.2 ⟨?_, h⟩
      intro e he
      rcases List.mem_cons.1 he with rfl | he
      · exact hk
      · exact Nat.lt_trans hk (h1 e he)
    · refine List.pairwise_cons.2 ⟨?_, ih h2 fun e he => hm e (List.mem_cons_of_mem _ he)⟩
      intro e he
      rcases mem_mput m a v e he with rfl | he
      · simp only at hk ⊢; omega
      · exact h1 e he

theorem mwf_filter [DecidableEq α] (d : α) (m : List (Nat × α)) (p : Nat × α → Bool) (h : mwf d m = true) :
    mwf d (m.filter p) = true := by
  rw [mwf_iff] at h ⊢
  exact ⟨h.1.filter _, fun e he => h.2 e (List.mem_filter.1 he).1⟩

/-- A write keeps the canonical form. -/
theorem mwf_mset [DecidableEq α] (d : α) (m : List (Nat × α)) (a : Nat) (v : α) (h : mwf d m = true) :
    mwf d (mset d m a v) = true := by
  have hd : mwf d (mdel m a) = true := mwf_filter d m _ h
  unfold mset
  split
  · exact hd
  · rename_i hv
    rw [mwf_iff] at hd ⊢
    refine ⟨mput_pairwise _ a v hd.1 (mdel_absent m a), fun e he => ?_⟩
    rcases mem_mput _ a v e he with rfl | he
    · exact hv
    · exact hd.2 e he

/-- A store of bytes keeps memory's canonical form. -/
theorem mwf_memWrite (m : List (Nat × Byte)) (a : Nat) (bs : List Byte) (h : mwf 0 m = true) :
    mwf 0 (memWrite m a bs) = true := by
  induction bs generalizing m a with
  | nil => exact h
  | cons b bs ih => exact ih _ _ (mwf_mset 0 m a b h)

/-- Zeroing a range keeps memory's canonical form. -/
theorem mwf_memZero (m : List (Nat × Byte)) (a n : Nat) (h : mwf 0 m = true) : mwf 0 (memZero m a n) = true :=
  mwf_filter 0 m _ h

/-- Dropping a range of keys keeps the canonical form. -/
theorem mwf_mdrop [DecidableEq α] (d : α) (m : List (Nat × α)) (a n : Nat) (h : mwf d m = true) :
    mwf d (mdrop m a n) = true := mwf_filter d m _ h

/-- A store leaves every byte outside it alone. -/
theorem mget_memWrite_outside (m : List (Nat × Byte)) (a : Nat) (bs : List Byte) (b : Nat) (h : b < a ∨ a + bs.length ≤ b) :
    mget 0 (memWrite m a bs) b = mget 0 m b := by
  induction bs generalizing m a with
  | nil => rfl
  | cons x bs ih =>
    have h' : b < a + 1 ∨ a + 1 + bs.length ≤ b := by simp at h; omega
    simp only [memWrite]
    rw [ih _ _ h', mget_mset_other]
    simp at h
    omega

/-- A store puts its bytes in order from its address. -/
theorem mget_memWrite_inside (m : List (Nat × Byte)) (a : Nat) (bs : List Byte) (i : Nat) (h : i < bs.length) :
    mget 0 (memWrite m a bs) (a + i) = bs[i] := by
  induction bs generalizing m a i with
  | nil => simp at h
  | cons x bs ih =>
    simp only [memWrite]
    cases i with
    | zero => rw [mget_memWrite_outside _ _ _ _ (by omega)]; simp
    | succ i =>
      have := ih (mset 0 m a x) (a + 1) i (by simpa using h)
      rw [show a + (i + 1) = a + 1 + i by omega, this]
      simp

@[simp] theorem memRead_length (m : List (Nat × Byte)) (a n : Nat) : (memRead m a n).length = n := by
  induction n generalizing a with
  | zero => rfl
  | succ n ih => simp [memRead, ih]

theorem memRead_congr (m m' : List (Nat × Byte)) (a n : Nat) (h : ∀ i, i < n → mget 0 m (a + i) = mget 0 m' (a + i)) :
    memRead m a n = memRead m' a n := by
  induction n generalizing a with
  | zero => rfl
  | succ n ih =>
    simp only [memRead]
    rw [show mget 0 m a = mget 0 m' a from h 0 (by omega), ih (a + 1) fun i hi => ?_]
    have := h (i + 1) (by omega)
    rwa [show a + (i + 1) = a + 1 + i by omega] at this

/-- A read of what was stored gives it back. -/
theorem memRead_memWrite (m : List (Nat × Byte)) (a : Nat) (bs : List Byte) :
    memRead (memWrite m a bs) a bs.length = bs := by
  induction bs generalizing m a with
  | nil => rfl
  | cons x bs ih =>
    simp only [List.length_cons, memRead]
    rw [show memWrite m a (x :: bs) = memWrite (mset 0 m a x) (a + 1) bs from rfl, ih,
      mget_memWrite_outside _ _ _ _ (by omega), mget_mset_same]

end Sys2Proof.Machine
end

