-- ==== Sys2Proof/Laws/Odp.lean ====
section
/-! SUPPORT. What a request frame in order does: the sessions' list, and the arrival of a frame up to the request's performance. -/
namespace Sys2Proof.Machine
open Sys2Proof

/-- The record of session n after it is replaced. -/
@[simp] theorem sessionOf_setSession_same (s : State) (n : Nat) (x : Session) : sessionOf (setSession s n x) n = some x := by
  have h : (s.sessions.filter fun y => decide (y.1 < n)).find? (fun y => decide (y.1 = n)) = none := by
    rw [List.find?_eq_none]
    intro y hy
    have := (List.mem_filter.mp hy).2
    simp at this
    simp; omega
  simp [sessionOf, setSession, List.find?_append, h]

/-- A session replaced twice holds the second record. -/
@[simp] theorem setSession_setSession (s : State) (n : Nat) (x y : Session) : setSession (setSession s n x) n y = setSession s n y := by
  have h1 : ∀ l : List (Nat × Session), (l.filter fun y => decide (y.1 < n)).filter (fun y => decide (n < y.1)) = [] := by
    intro l; rw [List.filter_filter, List.filter_eq_nil_iff]; intro a _; simp; omega
  have h2 : ∀ l : List (Nat × Session), (l.filter fun y => decide (n < y.1)).filter (fun y => decide (y.1 < n)) = [] := by
    intro l; rw [List.filter_filter, List.filter_eq_nil_iff]; intro a _; simp; omega
  simp [setSession, List.filter_append, List.filter_filter, h1, h2]

theorem sessionOf_dcount (s : State) (i b w k n : Nat) : sessionOf (dcount s i b w k) n = sessionOf s n := rfl

theorem now_dcount (s : State) (i b w k : Nat) : now (dcount s i b w k) = now s := rfl

theorem deferred_setSession (s : State) (n : Nat) (x : Session) : (setSession s n x).deferred = s.deferred := rfl

/-- Nothing lies after itself (R408). -/
@[simp] theorem seqAfter_self (a : BitVec 32) : seqAfter a a = false := by simp [seqAfter]

/-- Whether a source is a session's depends on the session's addresses alone. -/
theorem sourceOk_congr (x y : Session) (f : Frame) (h1 : y.ip = x.ip) (h2 : y.udp = x.udp) (h3 : y.altIp = x.altIp) (h4 : y.altUdp = x.altUdp) :
    sourceOk y f = sourceOk x f := by simp [sourceOk, h1, h2, h3, h4]

/-- A session after one of its frames: one frame less in its bucket, filled up by what time has added (R429). -/
def bucketTaken (s : State) (x : Session) : Session :=
  { x with bucket := min 4096 (x.bucket + (now s - x.bucketAt) / 8000) - 1,
           bucketAt := if 4096 ≤ x.bucket + (now s - x.bucketAt) / 8000 then now s else x.bucketAt + (now s - x.bucketAt) / 8000 * 8000 }

/-- A session with frames left in its bucket passes a frame. -/
theorem bucketPass_ready (s : State) (n : Nat) (x : Session) (f : Frame) (op : BitVec 8) (h : 0 < x.bucket) :
    bucketPass s n x f op = (setSession s n (bucketTaken s x), true) := by
  have hpos : 0 < min 4096 (x.bucket + (now s - x.bucketAt) / 8000) := by omega
  unfold bucketPass
  simp only [decide_eq_true_eq]
  exact if_pos hpos

/-- The frame of a ready session passes, with one frame less in its bucket and its instant noted. -/
theorem frameIn_ready (f : Frame) (s : State) (x : Session) (op : BitVec 8) (detail : Nat) (h : FrameReady f s x) :
    frameIn s f op detail = (setSession (dcount s (0x1100 + portNo f.port) 0x0E 8 1) f.session.toNat { bucketTaken s x with lastFrame := now s },
      some { bucketTaken s x with lastFrame := now s }) := by
  obtain ⟨hp, ht, -, hs, ha, hso, hb, -⟩ := h
  have hip : ¬ ((bucketTaken s x).ip = 0 ∧ (bucketTaken s x).udp = 0) := by rintro ⟨h1, h2⟩; cases ha <;> contradiction
  have hso2 : sourceOk (bucketTaken s x) f = true := by rw [← hso]; exact sourceOk_congr x _ f rfl rfl rfl rfl
  have hg : (!frameReaches s f) = false := by simp [frameReaches, hp.1, hp.2, ht]
  have hk : bucketTaken (dcount s (0x1100 + portNo f.port) 0x0E 8 1) x = bucketTaken s x := rfl
  unfold frameIn
  rw [hg]
  simp only [Bool.false_eq_true, if_false, sessionOf_dcount, hs, bucketPass_ready _ _ _ _ _ hb, hk, sessionOf_setSession_same, hip, hso2,
    Bool.not_true, setSession_setSession]
  rfl

/-- A sequence number is not its own successor's successor. -/
theorem succ_succ_ne (r : BitVec 32) : ¬ (r + 1 = r + 1 + 1) := by
  intro h
  bv_omega

/-- One request held makes the sequences received reach it. -/
theorem contiguous_one (f : Frame) (req : OdpRequest) (r : BitVec 32) : contiguous [(r + 1, f, req)] 256 r = r + 1 := by
  have h1 : ([(r + 1, f, req)].any fun e => decide (e.1 = r + 1)) = true := by simp
  have h2 : ([(r + 1, f, req)].any fun e => decide (e.1 = r + 1 + 1)) = false := by simp
  rw [contiguous, if_pos h1, contiguous, h2]
  rfl

/-- With nothing waiting every request of a session may start. -/
theorem mayStart_ready (s : State) (n : Nat) (x : Session) (req : OdpRequest) (hd : s.deferred = []) (hx : x.started = []) : mayStart s n x req = true := by
  have hany : ((touches req).any (List.contains ([] : List Nat))) = false := by simp
  unfold mayStart
  rw [hd, hx]
  simp only [List.filter_nil, List.flatMap_nil, hany]
  cases req <;> rfl

/-- A request in order is performed at once. -/
theorem odpPass_ready (f : Frame) (req : OdpRequest) (s : State) (x : Session) (hlen : requestLength req ≤ 8256) (hd : s.deferred = [])
    (hh : x.held = []) (hst : x.started = []) (hack : f.ack = x.low) (han : seqAfter x.answered f.ack = false) (hseq : f.seq = x.received + 1)
    (h1 : 1 ≤ (f.seq - x.low).toNat) (h2 : (f.seq - x.low).toNat ≤ 256) (hc : (x.cache.any fun e => decide (e.1 = f.seq)) = false) :
    odpPass f req s x = pump f.session.toNat 256 (perform (setSession s f.session.toNat
      { x with cache := x.cache.filter (fun e => seqAfter x.low e.1), received := f.seq, held := [], started := [(f.seq, f.port)] })
      { session := f.session.toNat, role := x.role, ip := f.ip, port := f.port } f.seq req) := by
  have hlow : seqAfter x.low x.low = false := seqAfter_self _
  have hwin : ¬ ((f.seq - x.low).toNat = 0 ∨ 256 < (f.seq - x.low).toNat) := by omega
  have hfind : (x.cache.filter fun e => seqAfter x.low e.1).find? (fun e => decide (e.1 = f.seq)) = none := by
    rw [List.find?_eq_none]
    intro e he
    simp only [List.any_eq_false] at hc
    exact hc e (List.mem_filter.mp he).1
  have hlen' : ¬ 8256 < requestLength req := by omega
  have hcont : contiguous [(f.seq, f, req)] 256 x.received = f.seq := by rw [hseq]; exact contiguous_one f req x.received
  rw [hack] at han
  unfold odpPass
  simp only [hlen', if_false, hack, han, Bool.false_eq_true, hlow, hwin, hfind, hst, hh, List.any_nil, Bool.or_self,
    holdRequest, List.filter_nil, List.nil_append, hcont, if_true]
  rw [pumpAll, pump]
  simp only [sessionOf_setSession_same, seqAfter_self, Bool.false_or]
  rw [mayStart_ready _ _ _ _ (by exact hd) rfl]
  simp only [Bool.not_true, Bool.false_eq_true, if_false, setSession_setSession, List.nil_append]

/-- A frame in order starts its own request and nothing else before it. -/
theorem odpArrive_ready (f : Frame) (req : OdpRequest) (s : State) (x : Session) (h : FrameReady f s x) (hlen : requestLength req ≤ 8256) :
    odpArrive f req s = pump f.session.toNat 256 (perform (arrived f s x) (frameCaller f x) f.seq req) := by
  have hf := frameIn_ready f s x (opOf req) (requestDetail req) h
  obtain ⟨-, -, -, -, -, -, -, hh, hst, -, hd, hack, han, hseq, h1, h2, hc⟩ := h
  unfold odpArrive
  rw [hf]
  have hp := odpPass_ready f req (setSession (dcount s (0x1100 + portNo f.port) 0x0E 8 1) f.session.toNat { bucketTaken s x with lastFrame := now s })
    { bucketTaken s x with lastFrame := now s } hlen hd hh hst hack han hseq h1 h2 hc
  rw [setSession_setSession] at hp
  exact hp

end Sys2Proof.Machine
end

