-- ==== Sys2Proof/Laws/State.lean ====
section
/-! SUPPORT. For each update of the state, what every other field holds after it. -/
namespace Sys2Proof.Machine
open Sys2Proof

variable (s : State)

@[simp] theorem regPut_pending (a : Nat) (v : Word32) : (regPut s a v).pending = s.pending := rfl
@[simp] theorem regPut_out (a : Nat) (v : Word32) : (regPut s a v).out = s.out := rfl
@[simp] theorem regPut_freeCount (a : Nat) (v : Word32) : (regPut s a v).freeCount = s.freeCount := rfl
@[simp] theorem regPut_shadows (a : Nat) (v : Word32) : (regPut s a v).shadows = s.shadows := rfl
@[simp] theorem regPut_dict (a : Nat) (v : Word32) : (regPut s a v).dict = s.dict := rfl
@[simp] theorem regPut_spad (a : Nat) (v : Word32) : (regPut s a v).spad = s.spad := rfl
@[simp] theorem regPut_spadTag (a : Nat) (v : Word32) : (regPut s a v).spadTag = s.spadTag := rfl
@[simp] theorem regPut_spadErr (a : Nat) (v : Word32) : (regPut s a v).spadErr = s.spadErr := rfl
@[simp] theorem regPut_imem (a : Nat) (v : Word32) : (regPut s a v).imem = s.imem := rfl
@[simp] theorem regPut_fmem (a : Nat) (v : Word32) : (regPut s a v).fmem = s.fmem := rfl
@[simp] theorem regPut_fmemTag (a : Nat) (v : Word32) : (regPut s a v).fmemTag = s.fmemTag := rfl
@[simp] theorem regPut_fmemErr (a : Nat) (v : Word32) : (regPut s a v).fmemErr = s.fmemErr := rfl
@[simp] theorem regPut_hbm (a : Nat) (v : Word32) : (regPut s a v).hbm = s.hbm := rfl
@[simp] theorem regPut_hbmTag (a : Nat) (v : Word32) : (regPut s a v).hbmTag = s.hbmTag := rfl
@[simp] theorem regPut_tiles (a : Nat) (v : Word32) : (regPut s a v).tiles = s.tiles := rfl
@[simp] theorem regPut_net (a : Nat) (v : Word32) : (regPut s a v).net = s.net := rfl
@[simp] theorem regPut_netSeq (a : Nat) (v : Word32) : (regPut s a v).netSeq = s.netSeq := rfl
@[simp] theorem regPut_groups (a : Nat) (v : Word32) : (regPut s a v).groups = s.groups := rfl
@[simp] theorem regPut_gangs (a : Nat) (v : Word32) : (regPut s a v).gangs = s.gangs := rfl
@[simp] theorem regPut_mcast (a : Nat) (v : Word32) : (regPut s a v).mcast = s.mcast := rfl
@[simp] theorem regPut_fmUnits (a : Nat) (v : Word32) : (regPut s a v).fmUnits = s.fmUnits := rfl
@[simp] theorem regPut_fmCe (a : Nat) (v : Word32) : (regPut s a v).fmCe = s.fmCe := rfl
@[simp] theorem regPut_clusters (a : Nat) (v : Word32) : (regPut s a v).clusters = s.clusters := rfl
@[simp] theorem regPut_zones (a : Nat) (v : Word32) : (regPut s a v).zones = s.zones := rfl
@[simp] theorem regPut_power (a : Nat) (v : Word32) : (regPut s a v).power = s.power := rfl
@[simp] theorem regPut_budget (a : Nat) (v : Word32) : (regPut s a v).budget = s.budget := rfl
@[simp] theorem regPut_time (a : Nat) (v : Word32) : (regPut s a v).time = s.time := rfl
@[simp] theorem regPut_units (a : Nat) (v : Word32) : (regPut s a v).units = s.units := rfl
@[simp] theorem regPut_slides (a : Nat) (v : Word32) : (regPut s a v).slides = s.slides := rfl
@[simp] theorem regPut_hbmStacks (a : Nat) (v : Word32) : (regPut s a v).hbmStacks = s.hbmStacks := rfl
@[simp] theorem regPut_hbmAlloc (a : Nat) (v : Word32) : (regPut s a v).hbmAlloc = s.hbmAlloc := rfl
@[simp] theorem regPut_hbmZero (a : Nat) (v : Word32) : (regPut s a v).hbmZero = s.hbmZero := rfl
@[simp] theorem regPut_hoods (a : Nat) (v : Word32) : (regPut s a v).hoods = s.hoods := rfl
@[simp] theorem regPut_adapters (a : Nat) (v : Word32) : (regPut s a v).adapters = s.adapters := rfl
@[simp] theorem regPut_caches (a : Nat) (v : Word32) : (regPut s a v).caches = s.caches := rfl
@[simp] theorem regPut_regions (a : Nat) (v : Word32) : (regPut s a v).regions = s.regions := rfl
@[simp] theorem regPut_orders (a : Nat) (v : Word32) : (regPut s a v).orders = s.orders := rfl
@[simp] theorem regPut_heldResults (a : Nat) (v : Word32) : (regPut s a v).heldResults = s.heldResults := rfl
@[simp] theorem regPut_journal (a : Nat) (v : Word32) : (regPut s a v).journal = s.journal := rfl
@[simp] theorem regPut_replay (a : Nat) (v : Word32) : (regPut s a v).replay = s.replay := rfl
@[simp] theorem regPut_sessions (a : Nat) (v : Word32) : (regPut s a v).sessions = s.sessions := rfl
@[simp] theorem regPut_qps (a : Nat) (v : Word32) : (regPut s a v).qps = s.qps := rfl
@[simp] theorem regPut_rings (a : Nat) (v : Word32) : (regPut s a v).rings = s.rings := rfl
@[simp] theorem regPut_ports (a : Nat) (v : Word32) : (regPut s a v).ports = s.ports := rfl
@[simp] theorem regPut_vlog (a : Nat) (v : Word32) : (regPut s a v).vlog = s.vlog := rfl
@[simp] theorem regPut_errBuf (a : Nat) (v : Word32) : (regPut s a v).errBuf = s.errBuf := rfl
@[simp] theorem regPut_errLog (a : Nat) (v : Word32) : (regPut s a v).errLog = s.errLog := rfl
@[simp] theorem regPut_deferred (a : Nat) (v : Word32) : (regPut s a v).deferred = s.deferred := rfl
@[simp] theorem regPut_boot (a : Nat) (v : Word32) : (regPut s a v).boot = s.boot := rfl
@[simp] theorem regPut_otp (a : Nat) (v : Word32) : (regPut s a v).otp = s.otp := rfl
@[simp] theorem regPut_sec (a : Nat) (v : Word32) : (regPut s a v).sec = s.sec := rfl
@[simp] theorem regPut_links (a : Nat) (v : Word32) : (regPut s a v).links = s.links := rfl
@[simp] theorem regPut_reductions (a : Nat) (v : Word32) : (regPut s a v).reductions = s.reductions := rfl
@[simp] theorem regPut_twin (a : Nat) (v : Word32) : (regPut s a v).twin = s.twin := rfl
@[simp] theorem regPut_maint (a : Nat) (v : Word32) : (regPut s a v).maint = s.maint := rfl
@[simp] theorem regPut_maintNext (a : Nat) (v : Word32) : (regPut s a v).maintNext = s.maintNext := rfl
@[simp] theorem regPut_schedules (a : Nat) (v : Word32) : (regPut s a v).schedules = s.schedules := rfl
@[simp] theorem regPut_pins (a : Nat) (v : Word32) : (regPut s a v).pins = s.pins := rfl
@[simp] theorem regPut_mbSince (a : Nat) (v : Word32) : (regPut s a v).mbSince = s.mbSince := rfl
@[simp] theorem regPut_redGens (a : Nat) (v : Word32) : (regPut s a v).redGens = s.redGens := rfl

@[simp] theorem dput_pending (i j : Nat) (v : List Byte) : (dput s i j v).pending = s.pending := rfl
@[simp] theorem dput_out (i j : Nat) (v : List Byte) : (dput s i j v).out = s.out := rfl
@[simp] theorem dput_freeCount (i j : Nat) (v : List Byte) : (dput s i j v).freeCount = s.freeCount := rfl
@[simp] theorem dput_regs (i j : Nat) (v : List Byte) : (dput s i j v).regs = s.regs := rfl
@[simp] theorem dput_shadows (i j : Nat) (v : List Byte) : (dput s i j v).shadows = s.shadows := rfl
@[simp] theorem dput_spad (i j : Nat) (v : List Byte) : (dput s i j v).spad = s.spad := rfl
@[simp] theorem dput_spadTag (i j : Nat) (v : List Byte) : (dput s i j v).spadTag = s.spadTag := rfl
@[simp] theorem dput_spadErr (i j : Nat) (v : List Byte) : (dput s i j v).spadErr = s.spadErr := rfl
@[simp] theorem dput_imem (i j : Nat) (v : List Byte) : (dput s i j v).imem = s.imem := rfl
@[simp] theorem dput_fmem (i j : Nat) (v : List Byte) : (dput s i j v).fmem = s.fmem := rfl
@[simp] theorem dput_fmemTag (i j : Nat) (v : List Byte) : (dput s i j v).fmemTag = s.fmemTag := rfl
@[simp] theorem dput_fmemErr (i j : Nat) (v : List Byte) : (dput s i j v).fmemErr = s.fmemErr := rfl
@[simp] theorem dput_hbm (i j : Nat) (v : List Byte) : (dput s i j v).hbm = s.hbm := rfl
@[simp] theorem dput_hbmTag (i j : Nat) (v : List Byte) : (dput s i j v).hbmTag = s.hbmTag := rfl
@[simp] theorem dput_tiles (i j : Nat) (v : List Byte) : (dput s i j v).tiles = s.tiles := rfl
@[simp] theorem dput_net (i j : Nat) (v : List Byte) : (dput s i j v).net = s.net := rfl
@[simp] theorem dput_netSeq (i j : Nat) (v : List Byte) : (dput s i j v).netSeq = s.netSeq := rfl
@[simp] theorem dput_groups (i j : Nat) (v : List Byte) : (dput s i j v).groups = s.groups := rfl
@[simp] theorem dput_gangs (i j : Nat) (v : List Byte) : (dput s i j v).gangs = s.gangs := rfl
@[simp] theorem dput_mcast (i j : Nat) (v : List Byte) : (dput s i j v).mcast = s.mcast := rfl
@[simp] theorem dput_fmUnits (i j : Nat) (v : List Byte) : (dput s i j v).fmUnits = s.fmUnits := rfl
@[simp] theorem dput_fmCe (i j : Nat) (v : List Byte) : (dput s i j v).fmCe = s.fmCe := rfl
@[simp] theorem dput_clusters (i j : Nat) (v : List Byte) : (dput s i j v).clusters = s.clusters := rfl
@[simp] theorem dput_zones (i j : Nat) (v : List Byte) : (dput s i j v).zones = s.zones := rfl
@[simp] theorem dput_power (i j : Nat) (v : List Byte) : (dput s i j v).power = s.power := rfl
@[simp] theorem dput_budget (i j : Nat) (v : List Byte) : (dput s i j v).budget = s.budget := rfl
@[simp] theorem dput_time (i j : Nat) (v : List Byte) : (dput s i j v).time = s.time := rfl
@[simp] theorem dput_units (i j : Nat) (v : List Byte) : (dput s i j v).units = s.units := rfl
@[simp] theorem dput_slides (i j : Nat) (v : List Byte) : (dput s i j v).slides = s.slides := rfl
@[simp] theorem dput_hbmStacks (i j : Nat) (v : List Byte) : (dput s i j v).hbmStacks = s.hbmStacks := rfl
@[simp] theorem dput_hbmAlloc (i j : Nat) (v : List Byte) : (dput s i j v).hbmAlloc = s.hbmAlloc := rfl
@[simp] theorem dput_hbmZero (i j : Nat) (v : List Byte) : (dput s i j v).hbmZero = s.hbmZero := rfl
@[simp] theorem dput_hoods (i j : Nat) (v : List Byte) : (dput s i j v).hoods = s.hoods := rfl
@[simp] theorem dput_adapters (i j : Nat) (v : List Byte) : (dput s i j v).adapters = s.adapters := rfl
@[simp] theorem dput_caches (i j : Nat) (v : List Byte) : (dput s i j v).caches = s.caches := rfl
@[simp] theorem dput_regions (i j : Nat) (v : List Byte) : (dput s i j v).regions = s.regions := rfl
@[simp] theorem dput_orders (i j : Nat) (v : List Byte) : (dput s i j v).orders = s.orders := rfl
@[simp] theorem dput_heldResults (i j : Nat) (v : List Byte) : (dput s i j v).heldResults = s.heldResults := rfl
@[simp] theorem dput_journal (i j : Nat) (v : List Byte) : (dput s i j v).journal = s.journal := rfl
@[simp] theorem dput_replay (i j : Nat) (v : List Byte) : (dput s i j v).replay = s.replay := rfl
@[simp] theorem dput_sessions (i j : Nat) (v : List Byte) : (dput s i j v).sessions = s.sessions := rfl
@[simp] theorem dput_qps (i j : Nat) (v : List Byte) : (dput s i j v).qps = s.qps := rfl
@[simp] theorem dput_rings (i j : Nat) (v : List Byte) : (dput s i j v).rings = s.rings := rfl
@[simp] theorem dput_ports (i j : Nat) (v : List Byte) : (dput s i j v).ports = s.ports := rfl
@[simp] theorem dput_vlog (i j : Nat) (v : List Byte) : (dput s i j v).vlog = s.vlog := rfl
@[simp] theorem dput_errBuf (i j : Nat) (v : List Byte) : (dput s i j v).errBuf = s.errBuf := rfl
@[simp] theorem dput_errLog (i j : Nat) (v : List Byte) : (dput s i j v).errLog = s.errLog := rfl
@[simp] theorem dput_deferred (i j : Nat) (v : List Byte) : (dput s i j v).deferred = s.deferred := rfl
@[simp] theorem dput_boot (i j : Nat) (v : List Byte) : (dput s i j v).boot = s.boot := rfl
@[simp] theorem dput_otp (i j : Nat) (v : List Byte) : (dput s i j v).otp = s.otp := rfl
@[simp] theorem dput_sec (i j : Nat) (v : List Byte) : (dput s i j v).sec = s.sec := rfl
@[simp] theorem dput_links (i j : Nat) (v : List Byte) : (dput s i j v).links = s.links := rfl
@[simp] theorem dput_reductions (i j : Nat) (v : List Byte) : (dput s i j v).reductions = s.reductions := rfl
@[simp] theorem dput_twin (i j : Nat) (v : List Byte) : (dput s i j v).twin = s.twin := rfl
@[simp] theorem dput_maint (i j : Nat) (v : List Byte) : (dput s i j v).maint = s.maint := rfl
@[simp] theorem dput_maintNext (i j : Nat) (v : List Byte) : (dput s i j v).maintNext = s.maintNext := rfl
@[simp] theorem dput_schedules (i j : Nat) (v : List Byte) : (dput s i j v).schedules = s.schedules := rfl
@[simp] theorem dput_pins (i j : Nat) (v : List Byte) : (dput s i j v).pins = s.pins := rfl
@[simp] theorem dput_mbSince (i j : Nat) (v : List Byte) : (dput s i j v).mbSince = s.mbSince := rfl
@[simp] theorem dput_redGens (i j : Nat) (v : List Byte) : (dput s i j v).redGens = s.redGens := rfl

@[simp] theorem emit_pending (o : Output) : (emit s o).pending = s.pending := rfl
@[simp] theorem emit_freeCount (o : Output) : (emit s o).freeCount = s.freeCount := rfl
@[simp] theorem emit_regs (o : Output) : (emit s o).regs = s.regs := rfl
@[simp] theorem emit_shadows (o : Output) : (emit s o).shadows = s.shadows := rfl
@[simp] theorem emit_dict (o : Output) : (emit s o).dict = s.dict := rfl
@[simp] theorem emit_spad (o : Output) : (emit s o).spad = s.spad := rfl
@[simp] theorem emit_spadTag (o : Output) : (emit s o).spadTag = s.spadTag := rfl
@[simp] theorem emit_spadErr (o : Output) : (emit s o).spadErr = s.spadErr := rfl
@[simp] theorem emit_imem (o : Output) : (emit s o).imem = s.imem := rfl
@[simp] theorem emit_fmem (o : Output) : (emit s o).fmem = s.fmem := rfl
@[simp] theorem emit_fmemTag (o : Output) : (emit s o).fmemTag = s.fmemTag := rfl
@[simp] theorem emit_fmemErr (o : Output) : (emit s o).fmemErr = s.fmemErr := rfl
@[simp] theorem emit_hbm (o : Output) : (emit s o).hbm = s.hbm := rfl
@[simp] theorem emit_hbmTag (o : Output) : (emit s o).hbmTag = s.hbmTag := rfl
@[simp] theorem emit_tiles (o : Output) : (emit s o).tiles = s.tiles := rfl
@[simp] theorem emit_net (o : Output) : (emit s o).net = s.net := rfl
@[simp] theorem emit_netSeq (o : Output) : (emit s o).netSeq = s.netSeq := rfl
@[simp] theorem emit_groups (o : Output) : (emit s o).groups = s.groups := rfl
@[simp] theorem emit_gangs (o : Output) : (emit s o).gangs = s.gangs := rfl
@[simp] theorem emit_mcast (o : Output) : (emit s o).mcast = s.mcast := rfl
@[simp] theorem emit_fmUnits (o : Output) : (emit s o).fmUnits = s.fmUnits := rfl
@[simp] theorem emit_fmCe (o : Output) : (emit s o).fmCe = s.fmCe := rfl
@[simp] theorem emit_clusters (o : Output) : (emit s o).clusters = s.clusters := rfl
@[simp] theorem emit_zones (o : Output) : (emit s o).zones = s.zones := rfl
@[simp] theorem emit_power (o : Output) : (emit s o).power = s.power := rfl
@[simp] theorem emit_budget (o : Output) : (emit s o).budget = s.budget := rfl
@[simp] theorem emit_time (o : Output) : (emit s o).time = s.time := rfl
@[simp] theorem emit_units (o : Output) : (emit s o).units = s.units := rfl
@[simp] theorem emit_slides (o : Output) : (emit s o).slides = s.slides := rfl
@[simp] theorem emit_hbmStacks (o : Output) : (emit s o).hbmStacks = s.hbmStacks := rfl
@[simp] theorem emit_hbmAlloc (o : Output) : (emit s o).hbmAlloc = s.hbmAlloc := rfl
@[simp] theorem emit_hbmZero (o : Output) : (emit s o).hbmZero = s.hbmZero := rfl
@[simp] theorem emit_hoods (o : Output) : (emit s o).hoods = s.hoods := rfl
@[simp] theorem emit_adapters (o : Output) : (emit s o).adapters = s.adapters := rfl
@[simp] theorem emit_caches (o : Output) : (emit s o).caches = s.caches := rfl
@[simp] theorem emit_regions (o : Output) : (emit s o).regions = s.regions := rfl
@[simp] theorem emit_orders (o : Output) : (emit s o).orders = s.orders := rfl
@[simp] theorem emit_heldResults (o : Output) : (emit s o).heldResults = s.heldResults := rfl
@[simp] theorem emit_journal (o : Output) : (emit s o).journal = s.journal := rfl
@[simp] theorem emit_replay (o : Output) : (emit s o).replay = s.replay := rfl
@[simp] theorem emit_sessions (o : Output) : (emit s o).sessions = s.sessions := rfl
@[simp] theorem emit_qps (o : Output) : (emit s o).qps = s.qps := rfl
@[simp] theorem emit_rings (o : Output) : (emit s o).rings = s.rings := rfl
@[simp] theorem emit_ports (o : Output) : (emit s o).ports = s.ports := rfl
@[simp] theorem emit_vlog (o : Output) : (emit s o).vlog = s.vlog := rfl
@[simp] theorem emit_errBuf (o : Output) : (emit s o).errBuf = s.errBuf := rfl
@[simp] theorem emit_errLog (o : Output) : (emit s o).errLog = s.errLog := rfl
@[simp] theorem emit_deferred (o : Output) : (emit s o).deferred = s.deferred := rfl
@[simp] theorem emit_boot (o : Output) : (emit s o).boot = s.boot := rfl
@[simp] theorem emit_otp (o : Output) : (emit s o).otp = s.otp := rfl
@[simp] theorem emit_sec (o : Output) : (emit s o).sec = s.sec := rfl
@[simp] theorem emit_links (o : Output) : (emit s o).links = s.links := rfl
@[simp] theorem emit_reductions (o : Output) : (emit s o).reductions = s.reductions := rfl
@[simp] theorem emit_twin (o : Output) : (emit s o).twin = s.twin := rfl
@[simp] theorem emit_maint (o : Output) : (emit s o).maint = s.maint := rfl
@[simp] theorem emit_maintNext (o : Output) : (emit s o).maintNext = s.maintNext := rfl
@[simp] theorem emit_schedules (o : Output) : (emit s o).schedules = s.schedules := rfl
@[simp] theorem emit_pins (o : Output) : (emit s o).pins = s.pins := rfl
@[simp] theorem emit_mbSince (o : Output) : (emit s o).mbSince = s.mbSince := rfl
@[simp] theorem emit_redGens (o : Output) : (emit s o).redGens = s.redGens := rfl

@[simp] theorem settlePins_pending : (settlePins s).pending = s.pending := rfl
@[simp] theorem settlePins_out : (settlePins s).out = s.out := rfl
@[simp] theorem settlePins_freeCount : (settlePins s).freeCount = s.freeCount := rfl
@[simp] theorem settlePins_regs : (settlePins s).regs = s.regs := rfl
@[simp] theorem settlePins_shadows : (settlePins s).shadows = s.shadows := rfl
@[simp] theorem settlePins_dict : (settlePins s).dict = s.dict := rfl
@[simp] theorem settlePins_spad : (settlePins s).spad = s.spad := rfl
@[simp] theorem settlePins_spadTag : (settlePins s).spadTag = s.spadTag := rfl
@[simp] theorem settlePins_spadErr : (settlePins s).spadErr = s.spadErr := rfl
@[simp] theorem settlePins_imem : (settlePins s).imem = s.imem := rfl
@[simp] theorem settlePins_fmem : (settlePins s).fmem = s.fmem := rfl
@[simp] theorem settlePins_fmemTag : (settlePins s).fmemTag = s.fmemTag := rfl
@[simp] theorem settlePins_fmemErr : (settlePins s).fmemErr = s.fmemErr := rfl
@[simp] theorem settlePins_hbm : (settlePins s).hbm = s.hbm := rfl
@[simp] theorem settlePins_hbmTag : (settlePins s).hbmTag = s.hbmTag := rfl
@[simp] theorem settlePins_tiles : (settlePins s).tiles = s.tiles := rfl
@[simp] theorem settlePins_net : (settlePins s).net = s.net := rfl
@[simp] theorem settlePins_netSeq : (settlePins s).netSeq = s.netSeq := rfl
@[simp] theorem settlePins_groups : (settlePins s).groups = s.groups := rfl
@[simp] theorem settlePins_gangs : (settlePins s).gangs = s.gangs := rfl
@[simp] theorem settlePins_mcast : (settlePins s).mcast = s.mcast := rfl
@[simp] theorem settlePins_fmUnits : (settlePins s).fmUnits = s.fmUnits := rfl
@[simp] theorem settlePins_fmCe : (settlePins s).fmCe = s.fmCe := rfl
@[simp] theorem settlePins_clusters : (settlePins s).clusters = s.clusters := rfl
@[simp] theorem settlePins_zones : (settlePins s).zones = s.zones := rfl
@[simp] theorem settlePins_power : (settlePins s).power = s.power := rfl
@[simp] theorem settlePins_budget : (settlePins s).budget = s.budget := rfl
@[simp] theorem settlePins_time : (settlePins s).time = s.time := rfl
@[simp] theorem settlePins_units : (settlePins s).units = s.units := rfl
@[simp] theorem settlePins_slides : (settlePins s).slides = s.slides := rfl
@[simp] theorem settlePins_hbmStacks : (settlePins s).hbmStacks = s.hbmStacks := rfl
@[simp] theorem settlePins_hbmAlloc : (settlePins s).hbmAlloc = s.hbmAlloc := rfl
@[simp] theorem settlePins_hbmZero : (settlePins s).hbmZero = s.hbmZero := rfl
@[simp] theorem settlePins_hoods : (settlePins s).hoods = s.hoods := rfl
@[simp] theorem settlePins_adapters : (settlePins s).adapters = s.adapters := rfl
@[simp] theorem settlePins_caches : (settlePins s).caches = s.caches := rfl
@[simp] theorem settlePins_regions : (settlePins s).regions = s.regions := rfl
@[simp] theorem settlePins_orders : (settlePins s).orders = s.orders := rfl
@[simp] theorem settlePins_heldResults : (settlePins s).heldResults = s.heldResults := rfl
@[simp] theorem settlePins_journal : (settlePins s).journal = s.journal := rfl
@[simp] theorem settlePins_replay : (settlePins s).replay = s.replay := rfl
@[simp] theorem settlePins_sessions : (settlePins s).sessions = s.sessions := rfl
@[simp] theorem settlePins_qps : (settlePins s).qps = s.qps := rfl
@[simp] theorem settlePins_rings : (settlePins s).rings = s.rings := rfl
@[simp] theorem settlePins_ports : (settlePins s).ports = s.ports := rfl
@[simp] theorem settlePins_vlog : (settlePins s).vlog = s.vlog := rfl
@[simp] theorem settlePins_errBuf : (settlePins s).errBuf = s.errBuf := rfl
@[simp] theorem settlePins_errLog : (settlePins s).errLog = s.errLog := rfl
@[simp] theorem settlePins_deferred : (settlePins s).deferred = s.deferred := rfl
@[simp] theorem settlePins_boot : (settlePins s).boot = s.boot := rfl
@[simp] theorem settlePins_otp : (settlePins s).otp = s.otp := rfl
@[simp] theorem settlePins_sec : (settlePins s).sec = s.sec := rfl
@[simp] theorem settlePins_links : (settlePins s).links = s.links := rfl
@[simp] theorem settlePins_reductions : (settlePins s).reductions = s.reductions := rfl
@[simp] theorem settlePins_twin : (settlePins s).twin = s.twin := rfl
@[simp] theorem settlePins_maint : (settlePins s).maint = s.maint := rfl
@[simp] theorem settlePins_maintNext : (settlePins s).maintNext = s.maintNext := rfl
@[simp] theorem settlePins_schedules : (settlePins s).schedules = s.schedules := rfl
@[simp] theorem settlePins_mbSince : (settlePins s).mbSince = s.mbSince := rfl
@[simp] theorem settlePins_redGens : (settlePins s).redGens = s.redGens := rfl

@[simp] theorem setTile_pending (i : Nat) (t : Tile) : (setTile s i t).pending = s.pending := rfl
@[simp] theorem setTile_out (i : Nat) (t : Tile) : (setTile s i t).out = s.out := rfl
@[simp] theorem setTile_freeCount (i : Nat) (t : Tile) : (setTile s i t).freeCount = s.freeCount := rfl
@[simp] theorem setTile_regs (i : Nat) (t : Tile) : (setTile s i t).regs = s.regs := rfl
@[simp] theorem setTile_shadows (i : Nat) (t : Tile) : (setTile s i t).shadows = s.shadows := rfl
@[simp] theorem setTile_dict (i : Nat) (t : Tile) : (setTile s i t).dict = s.dict := rfl
@[simp] theorem setTile_spad (i : Nat) (t : Tile) : (setTile s i t).spad = s.spad := rfl
@[simp] theorem setTile_spadTag (i : Nat) (t : Tile) : (setTile s i t).spadTag = s.spadTag := rfl
@[simp] theorem setTile_spadErr (i : Nat) (t : Tile) : (setTile s i t).spadErr = s.spadErr := rfl
@[simp] theorem setTile_imem (i : Nat) (t : Tile) : (setTile s i t).imem = s.imem := rfl
@[simp] theorem setTile_fmem (i : Nat) (t : Tile) : (setTile s i t).fmem = s.fmem := rfl
@[simp] theorem setTile_fmemTag (i : Nat) (t : Tile) : (setTile s i t).fmemTag = s.fmemTag := rfl
@[simp] theorem setTile_fmemErr (i : Nat) (t : Tile) : (setTile s i t).fmemErr = s.fmemErr := rfl
@[simp] theorem setTile_hbm (i : Nat) (t : Tile) : (setTile s i t).hbm = s.hbm := rfl
@[simp] theorem setTile_hbmTag (i : Nat) (t : Tile) : (setTile s i t).hbmTag = s.hbmTag := rfl
@[simp] theorem setTile_net (i : Nat) (t : Tile) : (setTile s i t).net = s.net := rfl
@[simp] theorem setTile_netSeq (i : Nat) (t : Tile) : (setTile s i t).netSeq = s.netSeq := rfl
@[simp] theorem setTile_groups (i : Nat) (t : Tile) : (setTile s i t).groups = s.groups := rfl
@[simp] theorem setTile_gangs (i : Nat) (t : Tile) : (setTile s i t).gangs = s.gangs := rfl
@[simp] theorem setTile_mcast (i : Nat) (t : Tile) : (setTile s i t).mcast = s.mcast := rfl
@[simp] theorem setTile_fmUnits (i : Nat) (t : Tile) : (setTile s i t).fmUnits = s.fmUnits := rfl
@[simp] theorem setTile_fmCe (i : Nat) (t : Tile) : (setTile s i t).fmCe = s.fmCe := rfl
@[simp] theorem setTile_clusters (i : Nat) (t : Tile) : (setTile s i t).clusters = s.clusters := rfl
@[simp] theorem setTile_zones (i : Nat) (t : Tile) : (setTile s i t).zones = s.zones := rfl
@[simp] theorem setTile_power (i : Nat) (t : Tile) : (setTile s i t).power = s.power := rfl
@[simp] theorem setTile_budget (i : Nat) (t : Tile) : (setTile s i t).budget = s.budget := rfl
@[simp] theorem setTile_time (i : Nat) (t : Tile) : (setTile s i t).time = s.time := rfl
@[simp] theorem setTile_units (i : Nat) (t : Tile) : (setTile s i t).units = s.units := rfl
@[simp] theorem setTile_slides (i : Nat) (t : Tile) : (setTile s i t).slides = s.slides := rfl
@[simp] theorem setTile_hbmStacks (i : Nat) (t : Tile) : (setTile s i t).hbmStacks = s.hbmStacks := rfl
@[simp] theorem setTile_hbmAlloc (i : Nat) (t : Tile) : (setTile s i t).hbmAlloc = s.hbmAlloc := rfl
@[simp] theorem setTile_hbmZero (i : Nat) (t : Tile) : (setTile s i t).hbmZero = s.hbmZero := rfl
@[simp] theorem setTile_hoods (i : Nat) (t : Tile) : (setTile s i t).hoods = s.hoods := rfl
@[simp] theorem setTile_adapters (i : Nat) (t : Tile) : (setTile s i t).adapters = s.adapters := rfl
@[simp] theorem setTile_caches (i : Nat) (t : Tile) : (setTile s i t).caches = s.caches := rfl
@[simp] theorem setTile_regions (i : Nat) (t : Tile) : (setTile s i t).regions = s.regions := rfl
@[simp] theorem setTile_orders (i : Nat) (t : Tile) : (setTile s i t).orders = s.orders := rfl
@[simp] theorem setTile_heldResults (i : Nat) (t : Tile) : (setTile s i t).heldResults = s.heldResults := rfl
@[simp] theorem setTile_journal (i : Nat) (t : Tile) : (setTile s i t).journal = s.journal := rfl
@[simp] theorem setTile_replay (i : Nat) (t : Tile) : (setTile s i t).replay = s.replay := rfl
@[simp] theorem setTile_sessions (i : Nat) (t : Tile) : (setTile s i t).sessions = s.sessions := rfl
@[simp] theorem setTile_qps (i : Nat) (t : Tile) : (setTile s i t).qps = s.qps := rfl
@[simp] theorem setTile_rings (i : Nat) (t : Tile) : (setTile s i t).rings = s.rings := rfl
@[simp] theorem setTile_ports (i : Nat) (t : Tile) : (setTile s i t).ports = s.ports := rfl
@[simp] theorem setTile_vlog (i : Nat) (t : Tile) : (setTile s i t).vlog = s.vlog := rfl
@[simp] theorem setTile_errBuf (i : Nat) (t : Tile) : (setTile s i t).errBuf = s.errBuf := rfl
@[simp] theorem setTile_errLog (i : Nat) (t : Tile) : (setTile s i t).errLog = s.errLog := rfl
@[simp] theorem setTile_deferred (i : Nat) (t : Tile) : (setTile s i t).deferred = s.deferred := rfl
@[simp] theorem setTile_boot (i : Nat) (t : Tile) : (setTile s i t).boot = s.boot := rfl
@[simp] theorem setTile_otp (i : Nat) (t : Tile) : (setTile s i t).otp = s.otp := rfl
@[simp] theorem setTile_sec (i : Nat) (t : Tile) : (setTile s i t).sec = s.sec := rfl
@[simp] theorem setTile_links (i : Nat) (t : Tile) : (setTile s i t).links = s.links := rfl
@[simp] theorem setTile_reductions (i : Nat) (t : Tile) : (setTile s i t).reductions = s.reductions := rfl
@[simp] theorem setTile_twin (i : Nat) (t : Tile) : (setTile s i t).twin = s.twin := rfl
@[simp] theorem setTile_maint (i : Nat) (t : Tile) : (setTile s i t).maint = s.maint := rfl
@[simp] theorem setTile_maintNext (i : Nat) (t : Tile) : (setTile s i t).maintNext = s.maintNext := rfl
@[simp] theorem setTile_schedules (i : Nat) (t : Tile) : (setTile s i t).schedules = s.schedules := rfl
@[simp] theorem setTile_pins (i : Nat) (t : Tile) : (setTile s i t).pins = s.pins := rfl
@[simp] theorem setTile_mbSince (i : Nat) (t : Tile) : (setTile s i t).mbSince = s.mbSince := rfl
@[simp] theorem setTile_redGens (i : Nat) (t : Tile) : (setTile s i t).redGens = s.redGens := rfl

@[simp] theorem setCluster_pending (c : Nat) (r : ClusterRec) : (setCluster s c r).pending = s.pending := rfl
@[simp] theorem setCluster_out (c : Nat) (r : ClusterRec) : (setCluster s c r).out = s.out := rfl
@[simp] theorem setCluster_freeCount (c : Nat) (r : ClusterRec) : (setCluster s c r).freeCount = s.freeCount := rfl
@[simp] theorem setCluster_regs (c : Nat) (r : ClusterRec) : (setCluster s c r).regs = s.regs := rfl
@[simp] theorem setCluster_shadows (c : Nat) (r : ClusterRec) : (setCluster s c r).shadows = s.shadows := rfl
@[simp] theorem setCluster_dict (c : Nat) (r : ClusterRec) : (setCluster s c r).dict = s.dict := rfl
@[simp] theorem setCluster_spad (c : Nat) (r : ClusterRec) : (setCluster s c r).spad = s.spad := rfl
@[simp] theorem setCluster_spadTag (c : Nat) (r : ClusterRec) : (setCluster s c r).spadTag = s.spadTag := rfl
@[simp] theorem setCluster_spadErr (c : Nat) (r : ClusterRec) : (setCluster s c r).spadErr = s.spadErr := rfl
@[simp] theorem setCluster_imem (c : Nat) (r : ClusterRec) : (setCluster s c r).imem = s.imem := rfl
@[simp] theorem setCluster_fmem (c : Nat) (r : ClusterRec) : (setCluster s c r).fmem = s.fmem := rfl
@[simp] theorem setCluster_fmemTag (c : Nat) (r : ClusterRec) : (setCluster s c r).fmemTag = s.fmemTag := rfl
@[simp] theorem setCluster_fmemErr (c : Nat) (r : ClusterRec) : (setCluster s c r).fmemErr = s.fmemErr := rfl
@[simp] theorem setCluster_hbm (c : Nat) (r : ClusterRec) : (setCluster s c r).hbm = s.hbm := rfl
@[simp] theorem setCluster_hbmTag (c : Nat) (r : ClusterRec) : (setCluster s c r).hbmTag = s.hbmTag := rfl
@[simp] theorem setCluster_tiles (c : Nat) (r : ClusterRec) : (setCluster s c r).tiles = s.tiles := rfl
@[simp] theorem setCluster_net (c : Nat) (r : ClusterRec) : (setCluster s c r).net = s.net := rfl
@[simp] theorem setCluster_netSeq (c : Nat) (r : ClusterRec) : (setCluster s c r).netSeq = s.netSeq := rfl
@[simp] theorem setCluster_groups (c : Nat) (r : ClusterRec) : (setCluster s c r).groups = s.groups := rfl
@[simp] theorem setCluster_gangs (c : Nat) (r : ClusterRec) : (setCluster s c r).gangs = s.gangs := rfl
@[simp] theorem setCluster_mcast (c : Nat) (r : ClusterRec) : (setCluster s c r).mcast = s.mcast := rfl
@[simp] theorem setCluster_fmUnits (c : Nat) (r : ClusterRec) : (setCluster s c r).fmUnits = s.fmUnits := rfl
@[simp] theorem setCluster_fmCe (c : Nat) (r : ClusterRec) : (setCluster s c r).fmCe = s.fmCe := rfl
@[simp] theorem setCluster_zones (c : Nat) (r : ClusterRec) : (setCluster s c r).zones = s.zones := rfl
@[simp] theorem setCluster_power (c : Nat) (r : ClusterRec) : (setCluster s c r).power = s.power := rfl
@[simp] theorem setCluster_budget (c : Nat) (r : ClusterRec) : (setCluster s c r).budget = s.budget := rfl
@[simp] theorem setCluster_time (c : Nat) (r : ClusterRec) : (setCluster s c r).time = s.time := rfl
@[simp] theorem setCluster_units (c : Nat) (r : ClusterRec) : (setCluster s c r).units = s.units := rfl
@[simp] theorem setCluster_slides (c : Nat) (r : ClusterRec) : (setCluster s c r).slides = s.slides := rfl
@[simp] theorem setCluster_hbmStacks (c : Nat) (r : ClusterRec) : (setCluster s c r).hbmStacks = s.hbmStacks := rfl
@[simp] theorem setCluster_hbmAlloc (c : Nat) (r : ClusterRec) : (setCluster s c r).hbmAlloc = s.hbmAlloc := rfl
@[simp] theorem setCluster_hbmZero (c : Nat) (r : ClusterRec) : (setCluster s c r).hbmZero = s.hbmZero := rfl
@[simp] theorem setCluster_hoods (c : Nat) (r : ClusterRec) : (setCluster s c r).hoods = s.hoods := rfl
@[simp] theorem setCluster_adapters (c : Nat) (r : ClusterRec) : (setCluster s c r).adapters = s.adapters := rfl
@[simp] theorem setCluster_caches (c : Nat) (r : ClusterRec) : (setCluster s c r).caches = s.caches := rfl
@[simp] theorem setCluster_regions (c : Nat) (r : ClusterRec) : (setCluster s c r).regions = s.regions := rfl
@[simp] theorem setCluster_orders (c : Nat) (r : ClusterRec) : (setCluster s c r).orders = s.orders := rfl
@[simp] theorem setCluster_heldResults (c : Nat) (r : ClusterRec) : (setCluster s c r).heldResults = s.heldResults := rfl
@[simp] theorem setCluster_journal (c : Nat) (r : ClusterRec) : (setCluster s c r).journal = s.journal := rfl
@[simp] theorem setCluster_replay (c : Nat) (r : ClusterRec) : (setCluster s c r).replay = s.replay := rfl
@[simp] theorem setCluster_sessions (c : Nat) (r : ClusterRec) : (setCluster s c r).sessions = s.sessions := rfl
@[simp] theorem setCluster_qps (c : Nat) (r : ClusterRec) : (setCluster s c r).qps = s.qps := rfl
@[simp] theorem setCluster_rings (c : Nat) (r : ClusterRec) : (setCluster s c r).rings = s.rings := rfl
@[simp] theorem setCluster_ports (c : Nat) (r : ClusterRec) : (setCluster s c r).ports = s.ports := rfl
@[simp] theorem setCluster_vlog (c : Nat) (r : ClusterRec) : (setCluster s c r).vlog = s.vlog := rfl
@[simp] theorem setCluster_errBuf (c : Nat) (r : ClusterRec) : (setCluster s c r).errBuf = s.errBuf := rfl
@[simp] theorem setCluster_errLog (c : Nat) (r : ClusterRec) : (setCluster s c r).errLog = s.errLog := rfl
@[simp] theorem setCluster_deferred (c : Nat) (r : ClusterRec) : (setCluster s c r).deferred = s.deferred := rfl
@[simp] theorem setCluster_boot (c : Nat) (r : ClusterRec) : (setCluster s c r).boot = s.boot := rfl
@[simp] theorem setCluster_otp (c : Nat) (r : ClusterRec) : (setCluster s c r).otp = s.otp := rfl
@[simp] theorem setCluster_sec (c : Nat) (r : ClusterRec) : (setCluster s c r).sec = s.sec := rfl
@[simp] theorem setCluster_links (c : Nat) (r : ClusterRec) : (setCluster s c r).links = s.links := rfl
@[simp] theorem setCluster_reductions (c : Nat) (r : ClusterRec) : (setCluster s c r).reductions = s.reductions := rfl
@[simp] theorem setCluster_twin (c : Nat) (r : ClusterRec) : (setCluster s c r).twin = s.twin := rfl
@[simp] theorem setCluster_maint (c : Nat) (r : ClusterRec) : (setCluster s c r).maint = s.maint := rfl
@[simp] theorem setCluster_maintNext (c : Nat) (r : ClusterRec) : (setCluster s c r).maintNext = s.maintNext := rfl
@[simp] theorem setCluster_schedules (c : Nat) (r : ClusterRec) : (setCluster s c r).schedules = s.schedules := rfl
@[simp] theorem setCluster_pins (c : Nat) (r : ClusterRec) : (setCluster s c r).pins = s.pins := rfl
@[simp] theorem setCluster_mbSince (c : Nat) (r : ClusterRec) : (setCluster s c r).mbSince = s.mbSince := rfl
@[simp] theorem setCluster_redGens (c : Nat) (r : ClusterRec) : (setCluster s c r).redGens = s.redGens := rfl

@[simp] theorem setZone_pending (z : Nat) (r : ZoneRec) : (setZone s z r).pending = s.pending := rfl
@[simp] theorem setZone_out (z : Nat) (r : ZoneRec) : (setZone s z r).out = s.out := rfl
@[simp] theorem setZone_freeCount (z : Nat) (r : ZoneRec) : (setZone s z r).freeCount = s.freeCount := rfl
@[simp] theorem setZone_regs (z : Nat) (r : ZoneRec) : (setZone s z r).regs = s.regs := rfl
@[simp] theorem setZone_shadows (z : Nat) (r : ZoneRec) : (setZone s z r).shadows = s.shadows := rfl
@[simp] theorem setZone_dict (z : Nat) (r : ZoneRec) : (setZone s z r).dict = s.dict := rfl
@[simp] theorem setZone_spad (z : Nat) (r : ZoneRec) : (setZone s z r).spad = s.spad := rfl
@[simp] theorem setZone_spadTag (z : Nat) (r : ZoneRec) : (setZone s z r).spadTag = s.spadTag := rfl
@[simp] theorem setZone_spadErr (z : Nat) (r : ZoneRec) : (setZone s z r).spadErr = s.spadErr := rfl
@[simp] theorem setZone_imem (z : Nat) (r : ZoneRec) : (setZone s z r).imem = s.imem := rfl
@[simp] theorem setZone_fmem (z : Nat) (r : ZoneRec) : (setZone s z r).fmem = s.fmem := rfl
@[simp] theorem setZone_fmemTag (z : Nat) (r : ZoneRec) : (setZone s z r).fmemTag = s.fmemTag := rfl
@[simp] theorem setZone_fmemErr (z : Nat) (r : ZoneRec) : (setZone s z r).fmemErr = s.fmemErr := rfl
@[simp] theorem setZone_hbm (z : Nat) (r : ZoneRec) : (setZone s z r).hbm = s.hbm := rfl
@[simp] theorem setZone_hbmTag (z : Nat) (r : ZoneRec) : (setZone s z r).hbmTag = s.hbmTag := rfl
@[simp] theorem setZone_tiles (z : Nat) (r : ZoneRec) : (setZone s z r).tiles = s.tiles := rfl
@[simp] theorem setZone_net (z : Nat) (r : ZoneRec) : (setZone s z r).net = s.net := rfl
@[simp] theorem setZone_netSeq (z : Nat) (r : ZoneRec) : (setZone s z r).netSeq = s.netSeq := rfl
@[simp] theorem setZone_groups (z : Nat) (r : ZoneRec) : (setZone s z r).groups = s.groups := rfl
@[simp] theorem setZone_gangs (z : Nat) (r : ZoneRec) : (setZone s z r).gangs = s.gangs := rfl
@[simp] theorem setZone_mcast (z : Nat) (r : ZoneRec) : (setZone s z r).mcast = s.mcast := rfl
@[simp] theorem setZone_fmUnits (z : Nat) (r : ZoneRec) : (setZone s z r).fmUnits = s.fmUnits := rfl
@[simp] theorem setZone_fmCe (z : Nat) (r : ZoneRec) : (setZone s z r).fmCe = s.fmCe := rfl
@[simp] theorem setZone_clusters (z : Nat) (r : ZoneRec) : (setZone s z r).clusters = s.clusters := rfl
@[simp] theorem setZone_power (z : Nat) (r : ZoneRec) : (setZone s z r).power = s.power := rfl
@[simp] theorem setZone_budget (z : Nat) (r : ZoneRec) : (setZone s z r).budget = s.budget := rfl
@[simp] theorem setZone_time (z : Nat) (r : ZoneRec) : (setZone s z r).time = s.time := rfl
@[simp] theorem setZone_units (z : Nat) (r : ZoneRec) : (setZone s z r).units = s.units := rfl
@[simp] theorem setZone_slides (z : Nat) (r : ZoneRec) : (setZone s z r).slides = s.slides := rfl
@[simp] theorem setZone_hbmStacks (z : Nat) (r : ZoneRec) : (setZone s z r).hbmStacks = s.hbmStacks := rfl
@[simp] theorem setZone_hbmAlloc (z : Nat) (r : ZoneRec) : (setZone s z r).hbmAlloc = s.hbmAlloc := rfl
@[simp] theorem setZone_hbmZero (z : Nat) (r : ZoneRec) : (setZone s z r).hbmZero = s.hbmZero := rfl
@[simp] theorem setZone_hoods (z : Nat) (r : ZoneRec) : (setZone s z r).hoods = s.hoods := rfl
@[simp] theorem setZone_adapters (z : Nat) (r : ZoneRec) : (setZone s z r).adapters = s.adapters := rfl
@[simp] theorem setZone_caches (z : Nat) (r : ZoneRec) : (setZone s z r).caches = s.caches := rfl
@[simp] theorem setZone_regions (z : Nat) (r : ZoneRec) : (setZone s z r).regions = s.regions := rfl
@[simp] theorem setZone_orders (z : Nat) (r : ZoneRec) : (setZone s z r).orders = s.orders := rfl
@[simp] theorem setZone_heldResults (z : Nat) (r : ZoneRec) : (setZone s z r).heldResults = s.heldResults := rfl
@[simp] theorem setZone_journal (z : Nat) (r : ZoneRec) : (setZone s z r).journal = s.journal := rfl
@[simp] theorem setZone_replay (z : Nat) (r : ZoneRec) : (setZone s z r).replay = s.replay := rfl
@[simp] theorem setZone_sessions (z : Nat) (r : ZoneRec) : (setZone s z r).sessions = s.sessions := rfl
@[simp] theorem setZone_qps (z : Nat) (r : ZoneRec) : (setZone s z r).qps = s.qps := rfl
@[simp] theorem setZone_rings (z : Nat) (r : ZoneRec) : (setZone s z r).rings = s.rings := rfl
@[simp] theorem setZone_ports (z : Nat) (r : ZoneRec) : (setZone s z r).ports = s.ports := rfl
@[simp] theorem setZone_vlog (z : Nat) (r : ZoneRec) : (setZone s z r).vlog = s.vlog := rfl
@[simp] theorem setZone_errBuf (z : Nat) (r : ZoneRec) : (setZone s z r).errBuf = s.errBuf := rfl
@[simp] theorem setZone_errLog (z : Nat) (r : ZoneRec) : (setZone s z r).errLog = s.errLog := rfl
@[simp] theorem setZone_deferred (z : Nat) (r : ZoneRec) : (setZone s z r).deferred = s.deferred := rfl
@[simp] theorem setZone_boot (z : Nat) (r : ZoneRec) : (setZone s z r).boot = s.boot := rfl
@[simp] theorem setZone_otp (z : Nat) (r : ZoneRec) : (setZone s z r).otp = s.otp := rfl
@[simp] theorem setZone_sec (z : Nat) (r : ZoneRec) : (setZone s z r).sec = s.sec := rfl
@[simp] theorem setZone_links (z : Nat) (r : ZoneRec) : (setZone s z r).links = s.links := rfl
@[simp] theorem setZone_reductions (z : Nat) (r : ZoneRec) : (setZone s z r).reductions = s.reductions := rfl
@[simp] theorem setZone_twin (z : Nat) (r : ZoneRec) : (setZone s z r).twin = s.twin := rfl
@[simp] theorem setZone_maint (z : Nat) (r : ZoneRec) : (setZone s z r).maint = s.maint := rfl
@[simp] theorem setZone_maintNext (z : Nat) (r : ZoneRec) : (setZone s z r).maintNext = s.maintNext := rfl
@[simp] theorem setZone_schedules (z : Nat) (r : ZoneRec) : (setZone s z r).schedules = s.schedules := rfl
@[simp] theorem setZone_pins (z : Nat) (r : ZoneRec) : (setZone s z r).pins = s.pins := rfl
@[simp] theorem setZone_mbSince (z : Nat) (r : ZoneRec) : (setZone s z r).mbSince = s.mbSince := rfl
@[simp] theorem setZone_redGens (z : Nat) (r : ZoneRec) : (setZone s z r).redGens = s.redGens := rfl

@[simp] theorem setStack_pending (h : Nat) (r : StackRec) : (setStack s h r).pending = s.pending := rfl
@[simp] theorem setStack_out (h : Nat) (r : StackRec) : (setStack s h r).out = s.out := rfl
@[simp] theorem setStack_freeCount (h : Nat) (r : StackRec) : (setStack s h r).freeCount = s.freeCount := rfl
@[simp] theorem setStack_regs (h : Nat) (r : StackRec) : (setStack s h r).regs = s.regs := rfl
@[simp] theorem setStack_shadows (h : Nat) (r : StackRec) : (setStack s h r).shadows = s.shadows := rfl
@[simp] theorem setStack_dict (h : Nat) (r : StackRec) : (setStack s h r).dict = s.dict := rfl
@[simp] theorem setStack_spad (h : Nat) (r : StackRec) : (setStack s h r).spad = s.spad := rfl
@[simp] theorem setStack_spadTag (h : Nat) (r : StackRec) : (setStack s h r).spadTag = s.spadTag := rfl
@[simp] theorem setStack_spadErr (h : Nat) (r : StackRec) : (setStack s h r).spadErr = s.spadErr := rfl
@[simp] theorem setStack_imem (h : Nat) (r : StackRec) : (setStack s h r).imem = s.imem := rfl
@[simp] theorem setStack_fmem (h : Nat) (r : StackRec) : (setStack s h r).fmem = s.fmem := rfl
@[simp] theorem setStack_fmemTag (h : Nat) (r : StackRec) : (setStack s h r).fmemTag = s.fmemTag := rfl
@[simp] theorem setStack_fmemErr (h : Nat) (r : StackRec) : (setStack s h r).fmemErr = s.fmemErr := rfl
@[simp] theorem setStack_hbm (h : Nat) (r : StackRec) : (setStack s h r).hbm = s.hbm := rfl
@[simp] theorem setStack_hbmTag (h : Nat) (r : StackRec) : (setStack s h r).hbmTag = s.hbmTag := rfl
@[simp] theorem setStack_tiles (h : Nat) (r : StackRec) : (setStack s h r).tiles = s.tiles := rfl
@[simp] theorem setStack_net (h : Nat) (r : StackRec) : (setStack s h r).net = s.net := rfl
@[simp] theorem setStack_netSeq (h : Nat) (r : StackRec) : (setStack s h r).netSeq = s.netSeq := rfl
@[simp] theorem setStack_groups (h : Nat) (r : StackRec) : (setStack s h r).groups = s.groups := rfl
@[simp] theorem setStack_gangs (h : Nat) (r : StackRec) : (setStack s h r).gangs = s.gangs := rfl
@[simp] theorem setStack_mcast (h : Nat) (r : StackRec) : (setStack s h r).mcast = s.mcast := rfl
@[simp] theorem setStack_fmUnits (h : Nat) (r : StackRec) : (setStack s h r).fmUnits = s.fmUnits := rfl
@[simp] theorem setStack_fmCe (h : Nat) (r : StackRec) : (setStack s h r).fmCe = s.fmCe := rfl
@[simp] theorem setStack_clusters (h : Nat) (r : StackRec) : (setStack s h r).clusters = s.clusters := rfl
@[simp] theorem setStack_zones (h : Nat) (r : StackRec) : (setStack s h r).zones = s.zones := rfl
@[simp] theorem setStack_power (h : Nat) (r : StackRec) : (setStack s h r).power = s.power := rfl
@[simp] theorem setStack_budget (h : Nat) (r : StackRec) : (setStack s h r).budget = s.budget := rfl
@[simp] theorem setStack_time (h : Nat) (r : StackRec) : (setStack s h r).time = s.time := rfl
@[simp] theorem setStack_units (h : Nat) (r : StackRec) : (setStack s h r).units = s.units := rfl
@[simp] theorem setStack_slides (h : Nat) (r : StackRec) : (setStack s h r).slides = s.slides := rfl
@[simp] theorem setStack_hbmAlloc (h : Nat) (r : StackRec) : (setStack s h r).hbmAlloc = s.hbmAlloc := rfl
@[simp] theorem setStack_hbmZero (h : Nat) (r : StackRec) : (setStack s h r).hbmZero = s.hbmZero := rfl
@[simp] theorem setStack_hoods (h : Nat) (r : StackRec) : (setStack s h r).hoods = s.hoods := rfl
@[simp] theorem setStack_adapters (h : Nat) (r : StackRec) : (setStack s h r).adapters = s.adapters := rfl
@[simp] theorem setStack_caches (h : Nat) (r : StackRec) : (setStack s h r).caches = s.caches := rfl
@[simp] theorem setStack_regions (h : Nat) (r : StackRec) : (setStack s h r).regions = s.regions := rfl
@[simp] theorem setStack_orders (h : Nat) (r : StackRec) : (setStack s h r).orders = s.orders := rfl
@[simp] theorem setStack_heldResults (h : Nat) (r : StackRec) : (setStack s h r).heldResults = s.heldResults := rfl
@[simp] theorem setStack_journal (h : Nat) (r : StackRec) : (setStack s h r).journal = s.journal := rfl
@[simp] theorem setStack_replay (h : Nat) (r : StackRec) : (setStack s h r).replay = s.replay := rfl
@[simp] theorem setStack_sessions (h : Nat) (r : StackRec) : (setStack s h r).sessions = s.sessions := rfl
@[simp] theorem setStack_qps (h : Nat) (r : StackRec) : (setStack s h r).qps = s.qps := rfl
@[simp] theorem setStack_rings (h : Nat) (r : StackRec) : (setStack s h r).rings = s.rings := rfl
@[simp] theorem setStack_ports (h : Nat) (r : StackRec) : (setStack s h r).ports = s.ports := rfl
@[simp] theorem setStack_vlog (h : Nat) (r : StackRec) : (setStack s h r).vlog = s.vlog := rfl
@[simp] theorem setStack_errBuf (h : Nat) (r : StackRec) : (setStack s h r).errBuf = s.errBuf := rfl
@[simp] theorem setStack_errLog (h : Nat) (r : StackRec) : (setStack s h r).errLog = s.errLog := rfl
@[simp] theorem setStack_deferred (h : Nat) (r : StackRec) : (setStack s h r).deferred = s.deferred := rfl
@[simp] theorem setStack_boot (h : Nat) (r : StackRec) : (setStack s h r).boot = s.boot := rfl
@[simp] theorem setStack_otp (h : Nat) (r : StackRec) : (setStack s h r).otp = s.otp := rfl
@[simp] theorem setStack_sec (h : Nat) (r : StackRec) : (setStack s h r).sec = s.sec := rfl
@[simp] theorem setStack_links (h : Nat) (r : StackRec) : (setStack s h r).links = s.links := rfl
@[simp] theorem setStack_reductions (h : Nat) (r : StackRec) : (setStack s h r).reductions = s.reductions := rfl
@[simp] theorem setStack_twin (h : Nat) (r : StackRec) : (setStack s h r).twin = s.twin := rfl
@[simp] theorem setStack_maint (h : Nat) (r : StackRec) : (setStack s h r).maint = s.maint := rfl
@[simp] theorem setStack_maintNext (h : Nat) (r : StackRec) : (setStack s h r).maintNext = s.maintNext := rfl
@[simp] theorem setStack_schedules (h : Nat) (r : StackRec) : (setStack s h r).schedules = s.schedules := rfl
@[simp] theorem setStack_pins (h : Nat) (r : StackRec) : (setStack s h r).pins = s.pins := rfl
@[simp] theorem setStack_mbSince (h : Nat) (r : StackRec) : (setStack s h r).mbSince = s.mbSince := rfl
@[simp] theorem setStack_redGens (h : Nat) (r : StackRec) : (setStack s h r).redGens = s.redGens := rfl

@[simp] theorem setGroup_pending (g : Nat) (r : Group) : (setGroup s g r).pending = s.pending := rfl
@[simp] theorem setGroup_out (g : Nat) (r : Group) : (setGroup s g r).out = s.out := rfl
@[simp] theorem setGroup_freeCount (g : Nat) (r : Group) : (setGroup s g r).freeCount = s.freeCount := rfl
@[simp] theorem setGroup_regs (g : Nat) (r : Group) : (setGroup s g r).regs = s.regs := rfl
@[simp] theorem setGroup_shadows (g : Nat) (r : Group) : (setGroup s g r).shadows = s.shadows := rfl
@[simp] theorem setGroup_dict (g : Nat) (r : Group) : (setGroup s g r).dict = s.dict := rfl
@[simp] theorem setGroup_spad (g : Nat) (r : Group) : (setGroup s g r).spad = s.spad := rfl
@[simp] theorem setGroup_spadTag (g : Nat) (r : Group) : (setGroup s g r).spadTag = s.spadTag := rfl
@[simp] theorem setGroup_spadErr (g : Nat) (r : Group) : (setGroup s g r).spadErr = s.spadErr := rfl
@[simp] theorem setGroup_imem (g : Nat) (r : Group) : (setGroup s g r).imem = s.imem := rfl
@[simp] theorem setGroup_fmem (g : Nat) (r : Group) : (setGroup s g r).fmem = s.fmem := rfl
@[simp] theorem setGroup_fmemTag (g : Nat) (r : Group) : (setGroup s g r).fmemTag = s.fmemTag := rfl
@[simp] theorem setGroup_fmemErr (g : Nat) (r : Group) : (setGroup s g r).fmemErr = s.fmemErr := rfl
@[simp] theorem setGroup_hbm (g : Nat) (r : Group) : (setGroup s g r).hbm = s.hbm := rfl
@[simp] theorem setGroup_hbmTag (g : Nat) (r : Group) : (setGroup s g r).hbmTag = s.hbmTag := rfl
@[simp] theorem setGroup_tiles (g : Nat) (r : Group) : (setGroup s g r).tiles = s.tiles := rfl
@[simp] theorem setGroup_net (g : Nat) (r : Group) : (setGroup s g r).net = s.net := rfl
@[simp] theorem setGroup_netSeq (g : Nat) (r : Group) : (setGroup s g r).netSeq = s.netSeq := rfl
@[simp] theorem setGroup_gangs (g : Nat) (r : Group) : (setGroup s g r).gangs = s.gangs := rfl
@[simp] theorem setGroup_mcast (g : Nat) (r : Group) : (setGroup s g r).mcast = s.mcast := rfl
@[simp] theorem setGroup_fmUnits (g : Nat) (r : Group) : (setGroup s g r).fmUnits = s.fmUnits := rfl
@[simp] theorem setGroup_fmCe (g : Nat) (r : Group) : (setGroup s g r).fmCe = s.fmCe := rfl
@[simp] theorem setGroup_clusters (g : Nat) (r : Group) : (setGroup s g r).clusters = s.clusters := rfl
@[simp] theorem setGroup_zones (g : Nat) (r : Group) : (setGroup s g r).zones = s.zones := rfl
@[simp] theorem setGroup_power (g : Nat) (r : Group) : (setGroup s g r).power = s.power := rfl
@[simp] theorem setGroup_budget (g : Nat) (r : Group) : (setGroup s g r).budget = s.budget := rfl
@[simp] theorem setGroup_time (g : Nat) (r : Group) : (setGroup s g r).time = s.time := rfl
@[simp] theorem setGroup_units (g : Nat) (r : Group) : (setGroup s g r).units = s.units := rfl
@[simp] theorem setGroup_slides (g : Nat) (r : Group) : (setGroup s g r).slides = s.slides := rfl
@[simp] theorem setGroup_hbmStacks (g : Nat) (r : Group) : (setGroup s g r).hbmStacks = s.hbmStacks := rfl
@[simp] theorem setGroup_hbmAlloc (g : Nat) (r : Group) : (setGroup s g r).hbmAlloc = s.hbmAlloc := rfl
@[simp] theorem setGroup_hbmZero (g : Nat) (r : Group) : (setGroup s g r).hbmZero = s.hbmZero := rfl
@[simp] theorem setGroup_hoods (g : Nat) (r : Group) : (setGroup s g r).hoods = s.hoods := rfl
@[simp] theorem setGroup_adapters (g : Nat) (r : Group) : (setGroup s g r).adapters = s.adapters := rfl
@[simp] theorem setGroup_caches (g : Nat) (r : Group) : (setGroup s g r).caches = s.caches := rfl
@[simp] theorem setGroup_regions (g : Nat) (r : Group) : (setGroup s g r).regions = s.regions := rfl
@[simp] theorem setGroup_orders (g : Nat) (r : Group) : (setGroup s g r).orders = s.orders := rfl
@[simp] theorem setGroup_heldResults (g : Nat) (r : Group) : (setGroup s g r).heldResults = s.heldResults := rfl
@[simp] theorem setGroup_journal (g : Nat) (r : Group) : (setGroup s g r).journal = s.journal := rfl
@[simp] theorem setGroup_replay (g : Nat) (r : Group) : (setGroup s g r).replay = s.replay := rfl
@[simp] theorem setGroup_sessions (g : Nat) (r : Group) : (setGroup s g r).sessions = s.sessions := rfl
@[simp] theorem setGroup_qps (g : Nat) (r : Group) : (setGroup s g r).qps = s.qps := rfl
@[simp] theorem setGroup_rings (g : Nat) (r : Group) : (setGroup s g r).rings = s.rings := rfl
@[simp] theorem setGroup_ports (g : Nat) (r : Group) : (setGroup s g r).ports = s.ports := rfl
@[simp] theorem setGroup_vlog (g : Nat) (r : Group) : (setGroup s g r).vlog = s.vlog := rfl
@[simp] theorem setGroup_errBuf (g : Nat) (r : Group) : (setGroup s g r).errBuf = s.errBuf := rfl
@[simp] theorem setGroup_errLog (g : Nat) (r : Group) : (setGroup s g r).errLog = s.errLog := rfl
@[simp] theorem setGroup_deferred (g : Nat) (r : Group) : (setGroup s g r).deferred = s.deferred := rfl
@[simp] theorem setGroup_boot (g : Nat) (r : Group) : (setGroup s g r).boot = s.boot := rfl
@[simp] theorem setGroup_otp (g : Nat) (r : Group) : (setGroup s g r).otp = s.otp := rfl
@[simp] theorem setGroup_sec (g : Nat) (r : Group) : (setGroup s g r).sec = s.sec := rfl
@[simp] theorem setGroup_links (g : Nat) (r : Group) : (setGroup s g r).links = s.links := rfl
@[simp] theorem setGroup_reductions (g : Nat) (r : Group) : (setGroup s g r).reductions = s.reductions := rfl
@[simp] theorem setGroup_twin (g : Nat) (r : Group) : (setGroup s g r).twin = s.twin := rfl
@[simp] theorem setGroup_maint (g : Nat) (r : Group) : (setGroup s g r).maint = s.maint := rfl
@[simp] theorem setGroup_maintNext (g : Nat) (r : Group) : (setGroup s g r).maintNext = s.maintNext := rfl
@[simp] theorem setGroup_schedules (g : Nat) (r : Group) : (setGroup s g r).schedules = s.schedules := rfl
@[simp] theorem setGroup_pins (g : Nat) (r : Group) : (setGroup s g r).pins = s.pins := rfl
@[simp] theorem setGroup_mbSince (g : Nat) (r : Group) : (setGroup s g r).mbSince = s.mbSince := rfl
@[simp] theorem setGroup_redGens (g : Nat) (r : Group) : (setGroup s g r).redGens = s.redGens := rfl

@[simp] theorem setGang_pending (n r : Nat) (g : Gang) : (setGang s n r g).pending = s.pending := rfl
@[simp] theorem setGang_out (n r : Nat) (g : Gang) : (setGang s n r g).out = s.out := rfl
@[simp] theorem setGang_freeCount (n r : Nat) (g : Gang) : (setGang s n r g).freeCount = s.freeCount := rfl
@[simp] theorem setGang_regs (n r : Nat) (g : Gang) : (setGang s n r g).regs = s.regs := rfl
@[simp] theorem setGang_shadows (n r : Nat) (g : Gang) : (setGang s n r g).shadows = s.shadows := rfl
@[simp] theorem setGang_dict (n r : Nat) (g : Gang) : (setGang s n r g).dict = s.dict := rfl
@[simp] theorem setGang_spad (n r : Nat) (g : Gang) : (setGang s n r g).spad = s.spad := rfl
@[simp] theorem setGang_spadTag (n r : Nat) (g : Gang) : (setGang s n r g).spadTag = s.spadTag := rfl
@[simp] theorem setGang_spadErr (n r : Nat) (g : Gang) : (setGang s n r g).spadErr = s.spadErr := rfl
@[simp] theorem setGang_imem (n r : Nat) (g : Gang) : (setGang s n r g).imem = s.imem := rfl
@[simp] theorem setGang_fmem (n r : Nat) (g : Gang) : (setGang s n r g).fmem = s.fmem := rfl
@[simp] theorem setGang_fmemTag (n r : Nat) (g : Gang) : (setGang s n r g).fmemTag = s.fmemTag := rfl
@[simp] theorem setGang_fmemErr (n r : Nat) (g : Gang) : (setGang s n r g).fmemErr = s.fmemErr := rfl
@[simp] theorem setGang_hbm (n r : Nat) (g : Gang) : (setGang s n r g).hbm = s.hbm := rfl
@[simp] theorem setGang_hbmTag (n r : Nat) (g : Gang) : (setGang s n r g).hbmTag = s.hbmTag := rfl
@[simp] theorem setGang_tiles (n r : Nat) (g : Gang) : (setGang s n r g).tiles = s.tiles := rfl
@[simp] theorem setGang_net (n r : Nat) (g : Gang) : (setGang s n r g).net = s.net := rfl
@[simp] theorem setGang_netSeq (n r : Nat) (g : Gang) : (setGang s n r g).netSeq = s.netSeq := rfl
@[simp] theorem setGang_groups (n r : Nat) (g : Gang) : (setGang s n r g).groups = s.groups := rfl
@[simp] theorem setGang_mcast (n r : Nat) (g : Gang) : (setGang s n r g).mcast = s.mcast := rfl
@[simp] theorem setGang_fmUnits (n r : Nat) (g : Gang) : (setGang s n r g).fmUnits = s.fmUnits := rfl
@[simp] theorem setGang_fmCe (n r : Nat) (g : Gang) : (setGang s n r g).fmCe = s.fmCe := rfl
@[simp] theorem setGang_clusters (n r : Nat) (g : Gang) : (setGang s n r g).clusters = s.clusters := rfl
@[simp] theorem setGang_zones (n r : Nat) (g : Gang) : (setGang s n r g).zones = s.zones := rfl
@[simp] theorem setGang_power (n r : Nat) (g : Gang) : (setGang s n r g).power = s.power := rfl
@[simp] theorem setGang_budget (n r : Nat) (g : Gang) : (setGang s n r g).budget = s.budget := rfl
@[simp] theorem setGang_time (n r : Nat) (g : Gang) : (setGang s n r g).time = s.time := rfl
@[simp] theorem setGang_units (n r : Nat) (g : Gang) : (setGang s n r g).units = s.units := rfl
@[simp] theorem setGang_slides (n r : Nat) (g : Gang) : (setGang s n r g).slides = s.slides := rfl
@[simp] theorem setGang_hbmStacks (n r : Nat) (g : Gang) : (setGang s n r g).hbmStacks = s.hbmStacks := rfl
@[simp] theorem setGang_hbmAlloc (n r : Nat) (g : Gang) : (setGang s n r g).hbmAlloc = s.hbmAlloc := rfl
@[simp] theorem setGang_hbmZero (n r : Nat) (g : Gang) : (setGang s n r g).hbmZero = s.hbmZero := rfl
@[simp] theorem setGang_hoods (n r : Nat) (g : Gang) : (setGang s n r g).hoods = s.hoods := rfl
@[simp] theorem setGang_adapters (n r : Nat) (g : Gang) : (setGang s n r g).adapters = s.adapters := rfl
@[simp] theorem setGang_caches (n r : Nat) (g : Gang) : (setGang s n r g).caches = s.caches := rfl
@[simp] theorem setGang_regions (n r : Nat) (g : Gang) : (setGang s n r g).regions = s.regions := rfl
@[simp] theorem setGang_orders (n r : Nat) (g : Gang) : (setGang s n r g).orders = s.orders := rfl
@[simp] theorem setGang_heldResults (n r : Nat) (g : Gang) : (setGang s n r g).heldResults = s.heldResults := rfl
@[simp] theorem setGang_journal (n r : Nat) (g : Gang) : (setGang s n r g).journal = s.journal := rfl
@[simp] theorem setGang_replay (n r : Nat) (g : Gang) : (setGang s n r g).replay = s.replay := rfl
@[simp] theorem setGang_sessions (n r : Nat) (g : Gang) : (setGang s n r g).sessions = s.sessions := rfl
@[simp] theorem setGang_qps (n r : Nat) (g : Gang) : (setGang s n r g).qps = s.qps := rfl
@[simp] theorem setGang_rings (n r : Nat) (g : Gang) : (setGang s n r g).rings = s.rings := rfl
@[simp] theorem setGang_ports (n r : Nat) (g : Gang) : (setGang s n r g).ports = s.ports := rfl
@[simp] theorem setGang_vlog (n r : Nat) (g : Gang) : (setGang s n r g).vlog = s.vlog := rfl
@[simp] theorem setGang_errBuf (n r : Nat) (g : Gang) : (setGang s n r g).errBuf = s.errBuf := rfl
@[simp] theorem setGang_errLog (n r : Nat) (g : Gang) : (setGang s n r g).errLog = s.errLog := rfl
@[simp] theorem setGang_deferred (n r : Nat) (g : Gang) : (setGang s n r g).deferred = s.deferred := rfl
@[simp] theorem setGang_boot (n r : Nat) (g : Gang) : (setGang s n r g).boot = s.boot := rfl
@[simp] theorem setGang_otp (n r : Nat) (g : Gang) : (setGang s n r g).otp = s.otp := rfl
@[simp] theorem setGang_sec (n r : Nat) (g : Gang) : (setGang s n r g).sec = s.sec := rfl
@[simp] theorem setGang_links (n r : Nat) (g : Gang) : (setGang s n r g).links = s.links := rfl
@[simp] theorem setGang_reductions (n r : Nat) (g : Gang) : (setGang s n r g).reductions = s.reductions := rfl
@[simp] theorem setGang_twin (n r : Nat) (g : Gang) : (setGang s n r g).twin = s.twin := rfl
@[simp] theorem setGang_maint (n r : Nat) (g : Gang) : (setGang s n r g).maint = s.maint := rfl
@[simp] theorem setGang_maintNext (n r : Nat) (g : Gang) : (setGang s n r g).maintNext = s.maintNext := rfl
@[simp] theorem setGang_schedules (n r : Nat) (g : Gang) : (setGang s n r g).schedules = s.schedules := rfl
@[simp] theorem setGang_pins (n r : Nat) (g : Gang) : (setGang s n r g).pins = s.pins := rfl
@[simp] theorem setGang_mbSince (n r : Nat) (g : Gang) : (setGang s n r g).mbSince = s.mbSince := rfl
@[simp] theorem setGang_redGens (n r : Nat) (g : Gang) : (setGang s n r g).redGens = s.redGens := rfl

@[simp] theorem setRegion_pending (r : Nat) (v : Region) : (setRegion s r v).pending = s.pending := rfl
@[simp] theorem setRegion_out (r : Nat) (v : Region) : (setRegion s r v).out = s.out := rfl
@[simp] theorem setRegion_freeCount (r : Nat) (v : Region) : (setRegion s r v).freeCount = s.freeCount := rfl
@[simp] theorem setRegion_regs (r : Nat) (v : Region) : (setRegion s r v).regs = s.regs := rfl
@[simp] theorem setRegion_shadows (r : Nat) (v : Region) : (setRegion s r v).shadows = s.shadows := rfl
@[simp] theorem setRegion_dict (r : Nat) (v : Region) : (setRegion s r v).dict = s.dict := rfl
@[simp] theorem setRegion_spad (r : Nat) (v : Region) : (setRegion s r v).spad = s.spad := rfl
@[simp] theorem setRegion_spadTag (r : Nat) (v : Region) : (setRegion s r v).spadTag = s.spadTag := rfl
@[simp] theorem setRegion_spadErr (r : Nat) (v : Region) : (setRegion s r v).spadErr = s.spadErr := rfl
@[simp] theorem setRegion_imem (r : Nat) (v : Region) : (setRegion s r v).imem = s.imem := rfl
@[simp] theorem setRegion_fmem (r : Nat) (v : Region) : (setRegion s r v).fmem = s.fmem := rfl
@[simp] theorem setRegion_fmemTag (r : Nat) (v : Region) : (setRegion s r v).fmemTag = s.fmemTag := rfl
@[simp] theorem setRegion_fmemErr (r : Nat) (v : Region) : (setRegion s r v).fmemErr = s.fmemErr := rfl
@[simp] theorem setRegion_hbm (r : Nat) (v : Region) : (setRegion s r v).hbm = s.hbm := rfl
@[simp] theorem setRegion_hbmTag (r : Nat) (v : Region) : (setRegion s r v).hbmTag = s.hbmTag := rfl
@[simp] theorem setRegion_tiles (r : Nat) (v : Region) : (setRegion s r v).tiles = s.tiles := rfl
@[simp] theorem setRegion_net (r : Nat) (v : Region) : (setRegion s r v).net = s.net := rfl
@[simp] theorem setRegion_netSeq (r : Nat) (v : Region) : (setRegion s r v).netSeq = s.netSeq := rfl
@[simp] theorem setRegion_groups (r : Nat) (v : Region) : (setRegion s r v).groups = s.groups := rfl
@[simp] theorem setRegion_gangs (r : Nat) (v : Region) : (setRegion s r v).gangs = s.gangs := rfl
@[simp] theorem setRegion_mcast (r : Nat) (v : Region) : (setRegion s r v).mcast = s.mcast := rfl
@[simp] theorem setRegion_fmUnits (r : Nat) (v : Region) : (setRegion s r v).fmUnits = s.fmUnits := rfl
@[simp] theorem setRegion_fmCe (r : Nat) (v : Region) : (setRegion s r v).fmCe = s.fmCe := rfl
@[simp] theorem setRegion_clusters (r : Nat) (v : Region) : (setRegion s r v).clusters = s.clusters := rfl
@[simp] theorem setRegion_zones (r : Nat) (v : Region) : (setRegion s r v).zones = s.zones := rfl
@[simp] theorem setRegion_power (r : Nat) (v : Region) : (setRegion s r v).power = s.power := rfl
@[simp] theorem setRegion_budget (r : Nat) (v : Region) : (setRegion s r v).budget = s.budget := rfl
@[simp] theorem setRegion_time (r : Nat) (v : Region) : (setRegion s r v).time = s.time := rfl
@[simp] theorem setRegion_units (r : Nat) (v : Region) : (setRegion s r v).units = s.units := rfl
@[simp] theorem setRegion_slides (r : Nat) (v : Region) : (setRegion s r v).slides = s.slides := rfl
@[simp] theorem setRegion_hbmStacks (r : Nat) (v : Region) : (setRegion s r v).hbmStacks = s.hbmStacks := rfl
@[simp] theorem setRegion_hbmAlloc (r : Nat) (v : Region) : (setRegion s r v).hbmAlloc = s.hbmAlloc := rfl
@[simp] theorem setRegion_hbmZero (r : Nat) (v : Region) : (setRegion s r v).hbmZero = s.hbmZero := rfl
@[simp] theorem setRegion_hoods (r : Nat) (v : Region) : (setRegion s r v).hoods = s.hoods := rfl
@[simp] theorem setRegion_adapters (r : Nat) (v : Region) : (setRegion s r v).adapters = s.adapters := rfl
@[simp] theorem setRegion_caches (r : Nat) (v : Region) : (setRegion s r v).caches = s.caches := rfl
@[simp] theorem setRegion_orders (r : Nat) (v : Region) : (setRegion s r v).orders = s.orders := rfl
@[simp] theorem setRegion_heldResults (r : Nat) (v : Region) : (setRegion s r v).heldResults = s.heldResults := rfl
@[simp] theorem setRegion_journal (r : Nat) (v : Region) : (setRegion s r v).journal = s.journal := rfl
@[simp] theorem setRegion_replay (r : Nat) (v : Region) : (setRegion s r v).replay = s.replay := rfl
@[simp] theorem setRegion_sessions (r : Nat) (v : Region) : (setRegion s r v).sessions = s.sessions := rfl
@[simp] theorem setRegion_qps (r : Nat) (v : Region) : (setRegion s r v).qps = s.qps := rfl
@[simp] theorem setRegion_rings (r : Nat) (v : Region) : (setRegion s r v).rings = s.rings := rfl
@[simp] theorem setRegion_ports (r : Nat) (v : Region) : (setRegion s r v).ports = s.ports := rfl
@[simp] theorem setRegion_vlog (r : Nat) (v : Region) : (setRegion s r v).vlog = s.vlog := rfl
@[simp] theorem setRegion_errBuf (r : Nat) (v : Region) : (setRegion s r v).errBuf = s.errBuf := rfl
@[simp] theorem setRegion_errLog (r : Nat) (v : Region) : (setRegion s r v).errLog = s.errLog := rfl
@[simp] theorem setRegion_deferred (r : Nat) (v : Region) : (setRegion s r v).deferred = s.deferred := rfl
@[simp] theorem setRegion_boot (r : Nat) (v : Region) : (setRegion s r v).boot = s.boot := rfl
@[simp] theorem setRegion_otp (r : Nat) (v : Region) : (setRegion s r v).otp = s.otp := rfl
@[simp] theorem setRegion_sec (r : Nat) (v : Region) : (setRegion s r v).sec = s.sec := rfl
@[simp] theorem setRegion_links (r : Nat) (v : Region) : (setRegion s r v).links = s.links := rfl
@[simp] theorem setRegion_reductions (r : Nat) (v : Region) : (setRegion s r v).reductions = s.reductions := rfl
@[simp] theorem setRegion_twin (r : Nat) (v : Region) : (setRegion s r v).twin = s.twin := rfl
@[simp] theorem setRegion_maint (r : Nat) (v : Region) : (setRegion s r v).maint = s.maint := rfl
@[simp] theorem setRegion_maintNext (r : Nat) (v : Region) : (setRegion s r v).maintNext = s.maintNext := rfl
@[simp] theorem setRegion_schedules (r : Nat) (v : Region) : (setRegion s r v).schedules = s.schedules := rfl
@[simp] theorem setRegion_pins (r : Nat) (v : Region) : (setRegion s r v).pins = s.pins := rfl
@[simp] theorem setRegion_mbSince (r : Nat) (v : Region) : (setRegion s r v).mbSince = s.mbSince := rfl
@[simp] theorem setRegion_redGens (r : Nat) (v : Region) : (setRegion s r v).redGens = s.redGens := rfl

@[simp] theorem setPort_pending (p : Nat) (v : Port) : (setPort s p v).pending = s.pending := rfl
@[simp] theorem setPort_out (p : Nat) (v : Port) : (setPort s p v).out = s.out := rfl
@[simp] theorem setPort_freeCount (p : Nat) (v : Port) : (setPort s p v).freeCount = s.freeCount := rfl
@[simp] theorem setPort_regs (p : Nat) (v : Port) : (setPort s p v).regs = s.regs := rfl
@[simp] theorem setPort_shadows (p : Nat) (v : Port) : (setPort s p v).shadows = s.shadows := rfl
@[simp] theorem setPort_dict (p : Nat) (v : Port) : (setPort s p v).dict = s.dict := rfl
@[simp] theorem setPort_spad (p : Nat) (v : Port) : (setPort s p v).spad = s.spad := rfl
@[simp] theorem setPort_spadTag (p : Nat) (v : Port) : (setPort s p v).spadTag = s.spadTag := rfl
@[simp] theorem setPort_spadErr (p : Nat) (v : Port) : (setPort s p v).spadErr = s.spadErr := rfl
@[simp] theorem setPort_imem (p : Nat) (v : Port) : (setPort s p v).imem = s.imem := rfl
@[simp] theorem setPort_fmem (p : Nat) (v : Port) : (setPort s p v).fmem = s.fmem := rfl
@[simp] theorem setPort_fmemTag (p : Nat) (v : Port) : (setPort s p v).fmemTag = s.fmemTag := rfl
@[simp] theorem setPort_fmemErr (p : Nat) (v : Port) : (setPort s p v).fmemErr = s.fmemErr := rfl
@[simp] theorem setPort_hbm (p : Nat) (v : Port) : (setPort s p v).hbm = s.hbm := rfl
@[simp] theorem setPort_hbmTag (p : Nat) (v : Port) : (setPort s p v).hbmTag = s.hbmTag := rfl
@[simp] theorem setPort_tiles (p : Nat) (v : Port) : (setPort s p v).tiles = s.tiles := rfl
@[simp] theorem setPort_net (p : Nat) (v : Port) : (setPort s p v).net = s.net := rfl
@[simp] theorem setPort_netSeq (p : Nat) (v : Port) : (setPort s p v).netSeq = s.netSeq := rfl
@[simp] theorem setPort_groups (p : Nat) (v : Port) : (setPort s p v).groups = s.groups := rfl
@[simp] theorem setPort_gangs (p : Nat) (v : Port) : (setPort s p v).gangs = s.gangs := rfl
@[simp] theorem setPort_mcast (p : Nat) (v : Port) : (setPort s p v).mcast = s.mcast := rfl
@[simp] theorem setPort_fmUnits (p : Nat) (v : Port) : (setPort s p v).fmUnits = s.fmUnits := rfl
@[simp] theorem setPort_fmCe (p : Nat) (v : Port) : (setPort s p v).fmCe = s.fmCe := rfl
@[simp] theorem setPort_clusters (p : Nat) (v : Port) : (setPort s p v).clusters = s.clusters := rfl
@[simp] theorem setPort_zones (p : Nat) (v : Port) : (setPort s p v).zones = s.zones := rfl
@[simp] theorem setPort_power (p : Nat) (v : Port) : (setPort s p v).power = s.power := rfl
@[simp] theorem setPort_budget (p : Nat) (v : Port) : (setPort s p v).budget = s.budget := rfl
@[simp] theorem setPort_time (p : Nat) (v : Port) : (setPort s p v).time = s.time := rfl
@[simp] theorem setPort_units (p : Nat) (v : Port) : (setPort s p v).units = s.units := rfl
@[simp] theorem setPort_slides (p : Nat) (v : Port) : (setPort s p v).slides = s.slides := rfl
@[simp] theorem setPort_hbmStacks (p : Nat) (v : Port) : (setPort s p v).hbmStacks = s.hbmStacks := rfl
@[simp] theorem setPort_hbmAlloc (p : Nat) (v : Port) : (setPort s p v).hbmAlloc = s.hbmAlloc := rfl
@[simp] theorem setPort_hbmZero (p : Nat) (v : Port) : (setPort s p v).hbmZero = s.hbmZero := rfl
@[simp] theorem setPort_hoods (p : Nat) (v : Port) : (setPort s p v).hoods = s.hoods := rfl
@[simp] theorem setPort_adapters (p : Nat) (v : Port) : (setPort s p v).adapters = s.adapters := rfl
@[simp] theorem setPort_caches (p : Nat) (v : Port) : (setPort s p v).caches = s.caches := rfl
@[simp] theorem setPort_regions (p : Nat) (v : Port) : (setPort s p v).regions = s.regions := rfl
@[simp] theorem setPort_orders (p : Nat) (v : Port) : (setPort s p v).orders = s.orders := rfl
@[simp] theorem setPort_heldResults (p : Nat) (v : Port) : (setPort s p v).heldResults = s.heldResults := rfl
@[simp] theorem setPort_journal (p : Nat) (v : Port) : (setPort s p v).journal = s.journal := rfl
@[simp] theorem setPort_replay (p : Nat) (v : Port) : (setPort s p v).replay = s.replay := rfl
@[simp] theorem setPort_sessions (p : Nat) (v : Port) : (setPort s p v).sessions = s.sessions := rfl
@[simp] theorem setPort_qps (p : Nat) (v : Port) : (setPort s p v).qps = s.qps := rfl
@[simp] theorem setPort_rings (p : Nat) (v : Port) : (setPort s p v).rings = s.rings := rfl
@[simp] theorem setPort_vlog (p : Nat) (v : Port) : (setPort s p v).vlog = s.vlog := rfl
@[simp] theorem setPort_errBuf (p : Nat) (v : Port) : (setPort s p v).errBuf = s.errBuf := rfl
@[simp] theorem setPort_errLog (p : Nat) (v : Port) : (setPort s p v).errLog = s.errLog := rfl
@[simp] theorem setPort_deferred (p : Nat) (v : Port) : (setPort s p v).deferred = s.deferred := rfl
@[simp] theorem setPort_boot (p : Nat) (v : Port) : (setPort s p v).boot = s.boot := rfl
@[simp] theorem setPort_otp (p : Nat) (v : Port) : (setPort s p v).otp = s.otp := rfl
@[simp] theorem setPort_sec (p : Nat) (v : Port) : (setPort s p v).sec = s.sec := rfl
@[simp] theorem setPort_links (p : Nat) (v : Port) : (setPort s p v).links = s.links := rfl
@[simp] theorem setPort_reductions (p : Nat) (v : Port) : (setPort s p v).reductions = s.reductions := rfl
@[simp] theorem setPort_twin (p : Nat) (v : Port) : (setPort s p v).twin = s.twin := rfl
@[simp] theorem setPort_maint (p : Nat) (v : Port) : (setPort s p v).maint = s.maint := rfl
@[simp] theorem setPort_maintNext (p : Nat) (v : Port) : (setPort s p v).maintNext = s.maintNext := rfl
@[simp] theorem setPort_schedules (p : Nat) (v : Port) : (setPort s p v).schedules = s.schedules := rfl
@[simp] theorem setPort_pins (p : Nat) (v : Port) : (setPort s p v).pins = s.pins := rfl
@[simp] theorem setPort_mbSince (p : Nat) (v : Port) : (setPort s p v).mbSince = s.mbSince := rfl
@[simp] theorem setPort_redGens (p : Nat) (v : Port) : (setPort s p v).redGens = s.redGens := rfl

@[simp] theorem setLink_pending (i : Nat) (v : Link) : (setLink s i v).pending = s.pending := rfl
@[simp] theorem setLink_out (i : Nat) (v : Link) : (setLink s i v).out = s.out := rfl
@[simp] theorem setLink_freeCount (i : Nat) (v : Link) : (setLink s i v).freeCount = s.freeCount := rfl
@[simp] theorem setLink_regs (i : Nat) (v : Link) : (setLink s i v).regs = s.regs := rfl
@[simp] theorem setLink_shadows (i : Nat) (v : Link) : (setLink s i v).shadows = s.shadows := rfl
@[simp] theorem setLink_dict (i : Nat) (v : Link) : (setLink s i v).dict = s.dict := rfl
@[simp] theorem setLink_spad (i : Nat) (v : Link) : (setLink s i v).spad = s.spad := rfl
@[simp] theorem setLink_spadTag (i : Nat) (v : Link) : (setLink s i v).spadTag = s.spadTag := rfl
@[simp] theorem setLink_spadErr (i : Nat) (v : Link) : (setLink s i v).spadErr = s.spadErr := rfl
@[simp] theorem setLink_imem (i : Nat) (v : Link) : (setLink s i v).imem = s.imem := rfl
@[simp] theorem setLink_fmem (i : Nat) (v : Link) : (setLink s i v).fmem = s.fmem := rfl
@[simp] theorem setLink_fmemTag (i : Nat) (v : Link) : (setLink s i v).fmemTag = s.fmemTag := rfl
@[simp] theorem setLink_fmemErr (i : Nat) (v : Link) : (setLink s i v).fmemErr = s.fmemErr := rfl
@[simp] theorem setLink_hbm (i : Nat) (v : Link) : (setLink s i v).hbm = s.hbm := rfl
@[simp] theorem setLink_hbmTag (i : Nat) (v : Link) : (setLink s i v).hbmTag = s.hbmTag := rfl
@[simp] theorem setLink_tiles (i : Nat) (v : Link) : (setLink s i v).tiles = s.tiles := rfl
@[simp] theorem setLink_net (i : Nat) (v : Link) : (setLink s i v).net = s.net := rfl
@[simp] theorem setLink_netSeq (i : Nat) (v : Link) : (setLink s i v).netSeq = s.netSeq := rfl
@[simp] theorem setLink_groups (i : Nat) (v : Link) : (setLink s i v).groups = s.groups := rfl
@[simp] theorem setLink_gangs (i : Nat) (v : Link) : (setLink s i v).gangs = s.gangs := rfl
@[simp] theorem setLink_mcast (i : Nat) (v : Link) : (setLink s i v).mcast = s.mcast := rfl
@[simp] theorem setLink_fmUnits (i : Nat) (v : Link) : (setLink s i v).fmUnits = s.fmUnits := rfl
@[simp] theorem setLink_fmCe (i : Nat) (v : Link) : (setLink s i v).fmCe = s.fmCe := rfl
@[simp] theorem setLink_clusters (i : Nat) (v : Link) : (setLink s i v).clusters = s.clusters := rfl
@[simp] theorem setLink_zones (i : Nat) (v : Link) : (setLink s i v).zones = s.zones := rfl
@[simp] theorem setLink_power (i : Nat) (v : Link) : (setLink s i v).power = s.power := rfl
@[simp] theorem setLink_budget (i : Nat) (v : Link) : (setLink s i v).budget = s.budget := rfl
@[simp] theorem setLink_time (i : Nat) (v : Link) : (setLink s i v).time = s.time := rfl
@[simp] theorem setLink_units (i : Nat) (v : Link) : (setLink s i v).units = s.units := rfl
@[simp] theorem setLink_slides (i : Nat) (v : Link) : (setLink s i v).slides = s.slides := rfl
@[simp] theorem setLink_hbmStacks (i : Nat) (v : Link) : (setLink s i v).hbmStacks = s.hbmStacks := rfl
@[simp] theorem setLink_hbmAlloc (i : Nat) (v : Link) : (setLink s i v).hbmAlloc = s.hbmAlloc := rfl
@[simp] theorem setLink_hbmZero (i : Nat) (v : Link) : (setLink s i v).hbmZero = s.hbmZero := rfl
@[simp] theorem setLink_hoods (i : Nat) (v : Link) : (setLink s i v).hoods = s.hoods := rfl
@[simp] theorem setLink_adapters (i : Nat) (v : Link) : (setLink s i v).adapters = s.adapters := rfl
@[simp] theorem setLink_caches (i : Nat) (v : Link) : (setLink s i v).caches = s.caches := rfl
@[simp] theorem setLink_regions (i : Nat) (v : Link) : (setLink s i v).regions = s.regions := rfl
@[simp] theorem setLink_orders (i : Nat) (v : Link) : (setLink s i v).orders = s.orders := rfl
@[simp] theorem setLink_heldResults (i : Nat) (v : Link) : (setLink s i v).heldResults = s.heldResults := rfl
@[simp] theorem setLink_journal (i : Nat) (v : Link) : (setLink s i v).journal = s.journal := rfl
@[simp] theorem setLink_replay (i : Nat) (v : Link) : (setLink s i v).replay = s.replay := rfl
@[simp] theorem setLink_sessions (i : Nat) (v : Link) : (setLink s i v).sessions = s.sessions := rfl
@[simp] theorem setLink_qps (i : Nat) (v : Link) : (setLink s i v).qps = s.qps := rfl
@[simp] theorem setLink_rings (i : Nat) (v : Link) : (setLink s i v).rings = s.rings := rfl
@[simp] theorem setLink_ports (i : Nat) (v : Link) : (setLink s i v).ports = s.ports := rfl
@[simp] theorem setLink_vlog (i : Nat) (v : Link) : (setLink s i v).vlog = s.vlog := rfl
@[simp] theorem setLink_errBuf (i : Nat) (v : Link) : (setLink s i v).errBuf = s.errBuf := rfl
@[simp] theorem setLink_errLog (i : Nat) (v : Link) : (setLink s i v).errLog = s.errLog := rfl
@[simp] theorem setLink_deferred (i : Nat) (v : Link) : (setLink s i v).deferred = s.deferred := rfl
@[simp] theorem setLink_boot (i : Nat) (v : Link) : (setLink s i v).boot = s.boot := rfl
@[simp] theorem setLink_otp (i : Nat) (v : Link) : (setLink s i v).otp = s.otp := rfl
@[simp] theorem setLink_sec (i : Nat) (v : Link) : (setLink s i v).sec = s.sec := rfl
@[simp] theorem setLink_reductions (i : Nat) (v : Link) : (setLink s i v).reductions = s.reductions := rfl
@[simp] theorem setLink_twin (i : Nat) (v : Link) : (setLink s i v).twin = s.twin := rfl
@[simp] theorem setLink_maint (i : Nat) (v : Link) : (setLink s i v).maint = s.maint := rfl
@[simp] theorem setLink_maintNext (i : Nat) (v : Link) : (setLink s i v).maintNext = s.maintNext := rfl
@[simp] theorem setLink_schedules (i : Nat) (v : Link) : (setLink s i v).schedules = s.schedules := rfl
@[simp] theorem setLink_pins (i : Nat) (v : Link) : (setLink s i v).pins = s.pins := rfl
@[simp] theorem setLink_mbSince (i : Nat) (v : Link) : (setLink s i v).mbSince = s.mbSince := rfl
@[simp] theorem setLink_redGens (i : Nat) (v : Link) : (setLink s i v).redGens = s.redGens := rfl

end Sys2Proof.Machine
end

