-- ==== Sys2Proof/Laws/Ops.lean ====
section
/-! SUPPORT. What the shared operations do, once: registers, objects, records of the state, answers and the scalar cores. -/
namespace Sys2Proof.Machine
open Sys2Proof

/-! ## Reads after writes -/

@[simp] theorem regGet_regPut_same (s : State) (a : Nat) (v : Word32) : regGet (regPut s a v) a = v := by
  simp [regGet, regPut]

theorem regGet_regPut_other (s : State) (a b : Nat) (v : Word32) (h : b ≠ a) : regGet (regPut s a v) b = regGet s b :=
  mget_mset_other _ _ _ _ _ _ h

@[simp] theorem dget_dput_same (s : State) (i j : Nat) (v : List Byte) : dget (dput s i j v) i j = v := by
  simp [dget, dput]

theorem dget_dput_other (s : State) (i j i' j' : Nat) (v : List Byte) (h : objKey i' j' ≠ objKey i j) :
    dget (dput s i j v) i' j' = dget s i' j' :=
  mget_mset_other _ _ _ _ _ _ h

@[simp] theorem tileOf_setTile_same (s : State) (i : Nat) (t : Tile) : tileOf (setTile s i t) i = t := by
  simp [tileOf, setTile]

theorem tileOf_setTile_other (s : State) (i j : Nat) (t : Tile) (h : j ≠ i) : tileOf (setTile s i t) j = tileOf s j :=
  mget_mset_other _ _ _ _ _ _ h

@[simp] theorem tileOf_modTile_same (s : State) (i : Nat) (f : Tile → Tile) : tileOf (modTile s i f) i = f (tileOf s i) :=
  tileOf_setTile_same ..

theorem tileOf_modTile_other (s : State) (i j : Nat) (f : Tile → Tile) (h : j ≠ i) : tileOf (modTile s i f) j = tileOf s j :=
  tileOf_setTile_other s i j _ h

@[simp] theorem clusterRec_setCluster_same (s : State) (c : Nat) (r : ClusterRec) : clusterRec (setCluster s c r) c = r := by
  simp [clusterRec, setCluster]

theorem clusterRec_setCluster_other (s : State) (c d : Nat) (r : ClusterRec) (h : d ≠ c) :
    clusterRec (setCluster s c r) d = clusterRec s d := mget_mset_other _ _ _ _ _ _ h

@[simp] theorem zoneRec_setZone_same (s : State) (z : Nat) (r : ZoneRec) : zoneRec (setZone s z r) z = r := by
  simp [zoneRec, setZone]

@[simp] theorem stackRec_setStack_same (s : State) (h : Nat) (r : StackRec) : stackRec (setStack s h r) h = r := by
  simp [stackRec, setStack]

@[simp] theorem groupOf_setGroup_same (s : State) (g : Nat) (r : Group) : groupOf (setGroup s g r) g = r := by
  simp [groupOf, setGroup]

@[simp] theorem regionOf_setRegion_same (s : State) (r : Nat) (v : Region) : regionOf (setRegion s r v) r = v := by
  simp [regionOf, setRegion]

theorem regionOf_setRegion_other (s : State) (r q : Nat) (v : Region) (h : q ≠ r) :
    regionOf (setRegion s r v) q = regionOf s q := mget_mset_other _ _ _ _ _ _ h

@[simp] theorem portOf_setPort_same (s : State) (p : Nat) (v : Port) : portOf (setPort s p v) p = v := by
  simp [portOf, setPort]

@[simp] theorem linkOf_setLink_same (s : State) (i : Nat) (v : Link) : linkOf (setLink s i v) i = v := by
  simp [linkOf, setLink]

@[simp] theorem coreOf_setCore_same (t : Tile) (c : CoreId) (k : Core) : coreOf (setCore t c k) c = k := by
  unfold coreOf setCore
  split <;> rfl

@[simp] theorem coreOf_modCore_same (s : State) (i : Nat) (c : CoreId) (f : Core → Core) :
    coreOf (tileOf (modCore s i c f) i) c = f (coreOf (tileOf s i) c) := by
  simp [modCore]

@[simp] theorem setCore_setCore (t : Tile) (c : CoreId) (k l : Core) : setCore (setCore t c k) c l = setCore t c l := by
  unfold setCore
  split <;> rfl

@[simp] theorem setCore_self (t : Tile) (c : CoreId) : setCore t c (coreOf t c) = t := by
  unfold setCore coreOf
  split <;> rfl

/-- Two changes of one tile in turn are one change. -/
@[simp] theorem modTile_modTile (s : State) (i : Nat) (f g : Tile → Tile) :
    modTile (modTile s i f) i g = modTile s i fun t => g (f t) := by
  simp [modTile, setTile, tileOf]

/-- Two changes of one core in turn are one change. -/
@[simp] theorem modCore_modCore (s : State) (i : Nat) (c : CoreId) (f g : Core → Core) :
    modCore (modCore s i c f) i c g = modCore s i c fun k => g (f k) := by
  simp [modCore]

end Sys2Proof.Machine
end

