-- ==== Sys2Proof/Laws/Scalar.lean ====
section
/-! SUPPORT. What the scalar cores' shared operations do: the next instruction, a register write, a trap and a transfer. -/
namespace Sys2Proof.Machine
open Sys2Proof

theorem modCore_congr (s : State) (site : Nat) (core : CoreId) (f g : Core → Core)
    (h : f (coreOf (tileOf s site) core) = g (coreOf (tileOf s site) core)) : modCore s site core f = modCore s site core g := by
  simp only [modCore, modTile, h]

/-- Away from the last instruction, sequential execution adds 4 to the program counter and does nothing else. -/
theorem seqNext_plain (s : State) (site : Nat) (core : CoreId) (h : (coreOf (tileOf s site) core).pc ≠ 0xFFFC) :
    seqNext s site core = modCore s site core fun k => { k with pc := k.pc + 4 } := by
  have h' : (coreOf (tileOf s site) core).pc.toNat ≠ 0xFFFC := fun e => h (BitVec.eq_of_toNat_eq (by simpa using e))
  unfold seqNext
  simp only [h', if_false]
  apply modCore_congr
  simp only [Core.mk.injEq, true_and, and_true]
  apply BitVec.eq_of_toNat_eq
  simp

/-- At the last instruction, sequential execution traps with cause 3. -/
theorem seqNext_last (s : State) (site : Nat) (core : CoreId) (h : (coreOf (tileOf s site) core).pc = 0xFFFC) :
    seqNext s site core = trapCore s site core 3 0xFFFC := by
  simp [seqNext, h]

theorem greg_modCore (s : State) (site : Nat) (core : CoreId) (f : Core → Core) (r : Reg) :
    greg (modCore s site core f) site core r = if r = 0 then 0 else mget 0 (f (coreOf (tileOf s site) core)).gregs r.val := by
  simp [greg]

@[simp] theorem greg_settlePins (s : State) (site : Nat) (core : CoreId) (r : Reg) :
    greg (settlePins s) site core r = greg s site core r := rfl

@[simp] theorem tileOf_settlePins (s : State) (site : Nat) : tileOf (settlePins s) site = tileOf s site := rfl

@[simp] theorem regGet_settlePins (s : State) (a : Nat) : regGet (settlePins s) a = regGet s a := rfl

@[simp] theorem dget_settlePins (s : State) (i j : Nat) : dget (settlePins s) i j = dget s i j := rfl

@[simp] theorem regionOf_settlePins (s : State) (r : Nat) : regionOf (settlePins s) r = regionOf s r := rfl

@[simp] theorem clusterRec_settlePins (s : State) (c : Nat) : clusterRec (settlePins s) c = clusterRec s c := rfl

@[simp] theorem setGreg_pc (s : State) (site : Nat) (core : CoreId) (rd : Reg) (v : Word64) :
    (coreOf (tileOf (setGreg s site core rd v) site) core).pc = (coreOf (tileOf s site) core).pc := by
  unfold setGreg
  split <;> simp

/-- A register write followed by a move of the program counter is one change of the core. -/
theorem modCore_setGreg (s : State) (site : Nat) (core : CoreId) (rd : Reg) (v : Word64) (p : BitVec 16 → BitVec 16) :
    modCore (setGreg s site core rd v) site core (fun k => { k with pc := p k.pc }) =
      modCore s site core fun k => { k with gregs := if rd = 0 then k.gregs else mset 0 k.gregs rd.val v, pc := p k.pc } := by
  unfold setGreg
  split <;> simp

/-- A register write is read back, but in g0, and leaves every other register alone. -/
theorem greg_write (s : State) (site : Nat) (core : CoreId) (rd r : Reg) (v : Word64) (p : BitVec 16 → BitVec 16) :
    greg (modCore s site core fun k => { k with gregs := if rd = 0 then k.gregs else mset 0 k.gregs rd.val v, pc := p k.pc }) site core r =
      if r = rd ∧ r ≠ 0 then v else greg s site core r := by
  rw [greg_modCore]
  unfold greg
  by_cases h0 : r = 0
  · simp [h0]
  · by_cases hr : r = rd
    · subst hr
      simp [h0]
    · have hv : r.val ≠ rd.val := fun e => hr (Fin.ext e)
      by_cases hd : rd = 0
      · subst hd
        simp [h0]
      · simp [h0, hr, hd, mget_mset_other _ _ _ _ _ _ hv]

/-- What an instruction that writes rd answers when its core can issue it. -/
theorem aluStep_next (site : Site) (core : CoreId) (rd : Reg) (v : Word64) (s : State) (hr : coreReady s site core = true)
    (hp : (coreOf (tileOf s site) core).pc ≠ 0xFFFC) :
    aluStep site core rd v s = .next (settlePins (modCore s site core fun k =>
      { k with gregs := if rd = 0 then k.gregs else mset 0 k.gregs rd.val v, pc := k.pc + 4 })) := by
  rw [aluStep, guarded, if_pos hr, answer, writeNext, seqNext_plain _ _ _ (by rwa [setGreg_pc]), modCore_setGreg s site core rd v fun p => p + 4]

/-- A trap with a valid CR_TVEC: the core saves the address and the cause and goes on at CR_TVEC. -/
theorem trapCore_vector (s : State) (site : Nat) (core : CoreId) (cause epc : Nat)
    (h0 : (coreOf (tileOf s site) core).tvec.toNat ≠ 0) (h : validTarget (coreOf (tileOf s site) core).tvec.toNat = true) :
    trapCore s site core cause epc = modCore s site core fun k =>
      { k with epc := BitVec.ofNat 64 epc, cause := BitVec.ofNat 64 cause, status := .running,
               pc := BitVec.ofNat 16 (coreOf (tileOf s site) core).tvec.toNat } := by
  simp [trapCore, h0, h]

/-- A command whose precondition holds answers its effect. -/
theorem guarded_of_true (p : Bool) (s e : State) (h : p = true) : guarded p s e = .next (settlePins e) := by
  simp [guarded, h, answer]

/-- A command whose precondition fails changes nothing. -/
theorem guarded_of_false (p : Bool) (s e : State) (h : p = false) : guarded p s e = .next s := by
  simp [guarded, h]

end Sys2Proof.Machine
end

