-- ==== Sys2Proof/Laws/Shared.lean ====
section
/-! SUPPORT. What the shared operations of every family can do, once: number bytes, counters, records, answers, the maintenance queue and the relay. -/
namespace Sys2Proof.Machine
open Sys2Proof

/-! ## Bytes and counters -/

theorem leBytes_length (n v : Nat) : (leBytes n v).length = n := by
  induction n generalizing v with
  | zero => rfl
  | succ n ih => simp [leBytes, ih]

/-- The bytes of a number spell it again, modulo their width. -/
theorem leNat_leBytes (n v : Nat) : leNat (leBytes n v) = v % 256 ^ n := by
  induction n generalizing v with
  | zero => simp [leBytes, leNat, Nat.mod_one]
  | succ n ih =>
    have h : (BitVec.ofNat 8 v).toNat = v % 256 := by simp
    rw [leBytes, leNat, ih, h, Nat.pow_succ', Nat.mod_mul]

@[simp] theorem dnum_dputNum_same (s : State) (i j n v : Nat) : dnum (dputNum s i j n v) i j = v % 256 ^ n := by
  simp [dnum, dputNum, leNat_leBytes]

/-- A counter advances modulo its width (R441). -/
@[simp] theorem dnum_dcount_same (s : State) (i j n k : Nat) : dnum (dcount s i j n k) i j = (dnum s i j + k) % 256 ^ n := by
  simp [dcount]

theorem dnum_dputNum_other (s : State) (i j i' j' n v : Nat) (h : objKey i' j' ≠ objKey i j) :
    dnum (dputNum s i j n v) i' j' = dnum s i' j' := by
  simp [dnum, dputNum, dget_dput_other s i j i' j' _ h]

theorem dnum_dcount_other (s : State) (i j i' j' n k : Nat) (h : objKey i' j' ≠ objKey i j) :
    dnum (dcount s i j n k) i' j' = dnum s i' j' := dnum_dputNum_other s i j i' j' n _ h

/-! ## Records: registers of the error block and its buffer, nothing else -/

/-- `t` differs from `s` in registers and in the error block's buffer at most. -/
def KeepsButErr (s t : State) : Prop := { t with regs := s.regs, errBuf := s.errBuf } = s

theorem keepsButErr_refl (s : State) : KeepsButErr s s := rfl

theorem keepsButErr_regPut (s t : State) (a : Nat) (v : Word32) (h : KeepsButErr s t) : KeepsButErr s (regPut t a v) := h

theorem keepsButErr_buf (s t : State) (b : List ErrRecord) (h : KeepsButErr s t) : KeepsButErr s { t with errBuf := b } := h

theorem errArrive_keeps (s : State) (r : ErrRecord) : KeepsButErr s (errArrive s r) := by
  unfold errArrive regSetBit regField regAdd reg64Put reg64Add
  split
  · dsimp only
    split
    · exact keepsButErr_buf _ _ _ (keepsButErr_regPut _ _ _ _ (keepsButErr_regPut _ _ _ _ (keepsButErr_regPut _ _ _ _
        (keepsButErr_regPut _ _ _ _ (keepsButErr_regPut _ _ _ _ (keepsButErr_refl s))))))
    · exact keepsButErr_regPut _ _ _ _ (keepsButErr_regPut _ _ _ _ (keepsButErr_regPut _ _ _ _ (keepsButErr_regPut _ _ _ _
        (keepsButErr_regPut _ _ _ _ (keepsButErr_regPut _ _ _ _ (keepsButErr_regPut _ _ _ _ (keepsButErr_refl s)))))))
  · exact keepsButErr_regPut _ _ _ _ (keepsButErr_refl s)

theorem record_keeps (s : State) (kind region tile unit : Nat) (body : List Byte) : KeepsButErr s (record s kind region tile unit body) :=
  errArrive_keeps ..

theorem tileRecord_keeps (s : State) (kind site : Nat) (body : List Byte) : KeepsButErr s (tileRecord s kind site body) := record_keeps ..

/-! ## Answers: every command answers a state whose ALERT_N is settled, or the state it found -/

@[simp] theorem alertDue_settlePins (s : State) : alertDue (settlePins s) = alertDue s := rfl

@[simp] theorem alertFollows_settlePins (s : State) : (settlePins s).alertFollows = true := by
  exact decide_eq_true rfl

theorem answer_eq (s t : State) : answer s = .next t ↔ t = settlePins s := by
  simp only [answer, Host.Outcome.next.injEq]
  exact eq_comm

theorem guarded_cases (p : Bool) (s e t : State) (h : guarded p s e = .next t) : p = true ∧ t = settlePins e ∨ p = false ∧ t = s := by
  unfold guarded at h
  split at h
  · rename_i hp
    exact .inl ⟨hp, (answer_eq e t).mp h⟩
  · rename_i hp
    exact .inr ⟨by simpa using hp, by simpa using h.symm⟩

@[simp] theorem guarded_true (s e : State) : guarded true s e = answer e := rfl
@[simp] theorem guarded_false (s e : State) : guarded false s e = .next s := rfl

/-! ## The maintenance queue -/

/-- A request joins the queue, or it stands there already, or a full queue counts it. -/
theorem queueMaint_cases (s : State) (a c t u : Nat) (tw : Bool) (m : Master) :
    (∃ x ∈ s.maint, x.activity = a ∧ x.scope = c) ∧ queueMaint s a c t u tw m = s ∨
    256 ≤ s.maint.length ∧ queueMaint s a c t u tw m = dcount s 0x5200 0x07 8 1 ∨
    ∃ x, x.activity = a ∧ x.scope = c ∧ x.running = false ∧
      queueMaint s a c t u tw m = { s with maint := maintInsert x s.maint, maintNext := s.maintNext + 1 } := by
  unfold queueMaint
  split
  · rename_i h
    obtain ⟨x, hx, hp⟩ := List.any_eq_true.mp h
    exact .inl ⟨⟨x, hx, (of_decide_eq_true hp).1, (of_decide_eq_true hp).2.1⟩, rfl⟩
  · split
    · rename_i h
      exact .inr (.inl ⟨h, rfl⟩)
    · exact .inr (.inr ⟨_, rfl, rfl, rfl, rfl⟩)

theorem mem_maintInsert (m x : Maint) (l : List Maint) : x ∈ maintInsert m l ↔ x = m ∨ x ∈ l := by
  induction l with
  | nil => simp [maintInsert]
  | cons y ys ih =>
    unfold maintInsert
    split
    · simp
    · simp only [List.mem_cons, ih]
      constructor
      · rintro (h | h | h) <;> simp [h]
      · rintro (h | h | h) <;> simp [h]

/-! ## The relay -/

/-- What the relay's sending side can change: the links, the counters of the dictionary, and what leaves the device. -/
def OnlyRelay (s t : State) : Prop := ∃ ls dc o, t = { s with links := ls, dict := dc, out := s.out ++ o }

theorem OnlyRelay.refl (s : State) : OnlyRelay s s := ⟨s.links, s.dict, [], by simp⟩

theorem OnlyRelay.trans {s t u : State} (h : OnlyRelay s t) (k : OnlyRelay t u) : OnlyRelay s u := by
  obtain ⟨ls, dc, o, rfl⟩ := h
  obtain ⟨ls', dc', o', rfl⟩ := k
  exact ⟨ls', dc', o ++ o', by simp⟩

theorem onlyRelay_setLink (s : State) (i : Nat) (l : Link) : OnlyRelay s (setLink s i l) :=
  ⟨(setLink s i l).links, s.dict, [], by simp [setLink]⟩

theorem onlyRelay_dcount (s : State) (i j n k : Nat) : OnlyRelay s (dcount s i j n k) := 
  ⟨s.links, (dcount s i j n k).dict, [], by simp [dcount, dputNum, dput]⟩

theorem onlyRelay_emit (s : State) (o : Output) : OnlyRelay s (emit s o) := ⟨s.links, s.dict, [o], rfl⟩

theorem onlyRelay_portSend (s : State) (i : Nat) (p : FabPacket) : OnlyRelay s (portSend s i p) :=
  ((onlyRelay_setLink s i _).trans (onlyRelay_dcount _ _ _ _ _)).trans (onlyRelay_emit _ _)

theorem onlyRelay_portDrain (i n : Nat) (s : State) : OnlyRelay s (portDrain i n s) := by
  induction n generalizing s with
  | zero => exact OnlyRelay.refl s
  | succ n ih =>
    unfold portDrain
    split
    · exact OnlyRelay.refl s
    · split
      · exact (onlyRelay_portSend s i _).trans (ih _)
      · exact OnlyRelay.refl s

theorem onlyRelay_linkSend (s : State) (i : Nat) (p : FabPacket) : OnlyRelay s (linkSend s i p) := by
  unfold linkSend
  split
  · exact onlyRelay_emit s _
  · exact (onlyRelay_setLink s i _).trans (onlyRelay_portDrain _ _ _)

theorem onlyRelay_routeOut (s : State) (p : FabPacket) : OnlyRelay s (routeOut s p).1 := by
  unfold routeOut
  split
  · exact onlyRelay_linkSend s _ p
  · exact onlyRelay_dcount s _ _ _ _

theorem onlyRelay_routeOn (s : State) (p : FabPacket) : OnlyRelay s (routeOn s p) := by
  have h := onlyRelay_routeOut s p
  unfold routeOn
  split
  · rename_i heq; rw [heq] at h; exact h
  · rename_i heq; rw [heq] at h
    split
    · exact h
    · exact h.trans (onlyRelay_routeOut _ _)

theorem onlyRelay_foldl {α : Type} (f : State → α → State) (h : ∀ s a, OnlyRelay s (f s a)) (l : List α) (s : State) : OnlyRelay s (l.foldl f s) := by
  induction l generalizing s with
  | nil => exact OnlyRelay.refl s
  | cons a l ih => exact (h s a).trans (ih _)

theorem onlyRelay_moveLink (dst : FabPacket → Bool) (s : State) (i : Nat) : OnlyRelay s (moveLink dst s i) := by
  unfold moveLink
  split
  · exact OnlyRelay.refl s
  · exact (onlyRelay_setLink s i _).trans (onlyRelay_foldl _ onlyRelay_routeOn _ _)

/-- A packet sent through the relay changes the links, the counters and what leaves, and nothing else. -/
theorem onlyRelay_relaySend (s : State) (p : FabPacket) : OnlyRelay s (relaySend s p).1 := by
  unfold relaySend
  split
  · exact (onlyRelay_foldl _ (onlyRelay_moveLink _) _ _).trans (onlyRelay_routeOut _ _)
  · exact onlyRelay_routeOut s p

/-- What has left stays left. -/
theorem sent_mono {s t u : State} {o : Output} (hs : s.out.length ≤ t.out.length) (h : o ∈ t.out.drop s.out.length) (k : OnlyRelay t u) :
    o ∈ u.out.drop s.out.length := by
  obtain ⟨ls, dc, x, rfl⟩ := k
  simp only [List.drop_append_of_le_length hs]
  exact List.mem_append_left _ h

theorem OnlyRelay.le {s t : State} (h : OnlyRelay s t) : s.out.length ≤ t.out.length := by
  obtain ⟨_, _, o, rfl⟩ := h
  simp

/-- The link after a packet of its queue has left it. -/
theorem linkOf_portSend_queue (s : State) (i : Nat) (p : FabPacket) : (linkOf (portSend s i p) i).queue = (linkOf s i).queue.erase p := by
  have h : linkOf (portSend s i p) i = linkOf (setLink s i _) i := rfl
  rw [h, linkOf_setLink_same]

/-- A port that sends drops no packet that waits at it. -/
theorem portDrain_leaves (i n : Nat) (s : State) (p : FabPacket) (h : p ∈ (linkOf s i).queue) : Leaves s (portDrain i n s) i p := by
  induction n generalizing s with
  | zero => exact .inr h
  | succ n ih =>
    unfold portDrain
    split
    · exact .inr h
    · split
      · rename_i q _
        by_cases hq : p = q
        · refine .inl ⟨((linkOf s i).sendSeq + 1) % 2 ^ 32, (linkOf s i).expectSeq, ?_⟩
          refine sent_mono (onlyRelay_portSend s i q).le ?_ (onlyRelay_portDrain i n _)
          subst hq
          have hout : (portSend s i p).out = s.out ++ [.fabric i { p with linkSeq := ((linkOf s i).sendSeq + 1) % 2 ^ 32, linkAck := (linkOf s i).expectSeq }] := rfl
          rw [hout]; simp
        · have hm : p ∈ (linkOf (portSend s i q) i).queue := by
            rw [linkOf_portSend_queue]; exact (List.mem_erase_of_ne hq).mpr h
          rcases ih _ hm with ⟨a, b, hab⟩ | hw
          · refine .inl ⟨a, b, ?_⟩
            obtain ⟨m, hm⟩ := Nat.exists_eq_add_of_le (onlyRelay_portSend s i q).le
            rw [hm, ← List.drop_drop] at hab
            exact List.mem_of_mem_drop hab
          · exact .inr hw
      · exact .inr h

/-- A packet given to a link leaves by it or waits at it. -/
theorem linkSend_leaves (s : State) (i : Nat) (p : FabPacket) : Leaves s (linkSend s i p) i p := by
  unfold linkSend
  split
  · rename_i h
    refine .inl ⟨p.linkSeq, p.linkAck, ?_⟩
    rw [h]; simp [emit]
  · exact portDrain_leaves i _ (setLink s i { linkOf s i with queue := (linkOf s i).queue ++ [p] }) p (by rw [linkOf_setLink_same]; simp)

/-- Of one packet that waits and is ready, that packet is sent next. -/
theorem portPick_single (l : Link) (p : FabPacket) (hq : l.queue = [p]) (hr : portReady l p = true) : portPick l = some p := by
  have hv : packetVc p < 4 := Nat.mod_lt _ (by decide)
  have hh : ∀ v, vcHead l v = if packetVc p = v then some p else none := by
    intro v
    unfold vcHead
    by_cases h : packetVc p = v <;> simp [hq, h, hr]
  unfold portPick
  simp only [hh]
  have : packetVc p = 0 ∨ packetVc p = 1 ∨ packetVc p = 2 ∨ packetVc p = 3 := by omega
  rcases this with h | h | h | h <;> cases l.turn2 <;> simp [h]

/-- A ready link sends the one packet that waits at it. -/
theorem drainPort_single (t : State) (i : Nat) (p : FabPacket) (hu : linkUsable t i = true) (hq : (linkOf t i).queue = [p])
    (hr : portReady (linkOf t i) p = true) : drainPort t i = portSend t i p := by
  unfold drainPort
  rw [hq]
  simp only [List.length_cons, List.length_nil, Nat.zero_add]
  unfold portDrain
  rw [hu, portPick_single _ p hq hr]
  rfl

/-- A packet that a ready link with nothing waiting is given leaves at once, and nothing else does. -/
theorem linkSend_ready (s : State) (i : Nat) (p : FabPacket) (hu : linkUsable s i = true) (hq : (linkOf s i).queue = [])
    (hr : portReady (linkOf s i) p = true) :
    ∃ a b, (linkSend s i p).out = s.out ++ [.fabric i { p with linkSeq := a, linkAck := b }] := by
  have hi : i ≠ 18 := by
    intro h; subst h; simp [linkUsable] at hu
  unfold linkSend
  rw [if_neg hi, drainPort_single _ i p (by simpa [linkUsable] using hu) (by rw [linkOf_setLink_same]; simp [hq])
    (by rw [linkOf_setLink_same]; exact hr)]
  exact ⟨_, _, rfl⟩

/-- With no link DOWN that holds packets to its destination a packet goes straight to its port (R499). -/
theorem relaySend_plain (s : State) (p : FabPacket) (h : heldFor s p.dst = false) : relaySend s p = routeOut s p := by
  simp [relaySend, h]

end Sys2Proof.Machine
end

