-- ==== Sys2Proof/WellFormed.lean ====
section
/-! DEFINITION. What a command must hold to be one of the block's commands: lengths and ranges that the spec fixes and the types of its operands do not. -/
namespace Sys2Proof
open Sys2Proof

/-- No freeze counter of one cause passes the freeze counter (R75). -/
def wfFreezes (f : Freezes) : Bool :=
  decide (f.feed ≤ f.total) && decide (f.wload ≤ f.total) && decide (f.drain ≤ f.total) && decide (f.total ≤ f.feed + f.wload + f.drain)

/-- What an access finds names each sector once, and a parity error fails up to five times (R255). -/
def wfFind (f : HbmFind) : Bool :=
  decide (f.corrected ++ f.bad).Nodup && (match f.parity with
    | some (_, n) => decide (1 ≤ n ∧ n ≤ 5)
    | none => true)

/-- The members of a batch have distinct tags (R295). -/
def wfOuts (outs : List MemberOut) : Bool := decide (outs.map (·.tag)).Nodup

/-- A journal record's payload is at most 16,392 bytes and its fields fit their bytes (R325). -/
def wfRecord (r : JRecord) : Bool := decide (r.payload.length ≤ 16392) && decide (r.time < 2 ^ 64) && decide (r.seq < 2 ^ 64)

/-- A segment holds at most 8,192 bytes, and its offset and total fit four bytes (R414). -/
def wfSegment (g : Segment) : Bool := decide (g.data.length ≤ 8192) && decide (g.offset < 2 ^ 32) && decide (g.total < 2 ^ 32)

/-- A fabric payload is whole 64-byte sectors, at most 4,096 bytes, and the header's fields fit (R495). -/
def wfPacket (p : FabPacket) : Bool :=
  decide (p.payload.length % 64 = 0) && decide (p.payload.length ≤ 4096) && decide (p.offset < 2 ^ 32 ∧ p.offset % 512 = 0) && decide (p.linkSeq < 2 ^ 32) && decide (p.linkAck < 2 ^ 32)

/-- A packet as it arrives, and what its rows meet. -/
def wfArrival (a : FabArrival) : Bool := wfPacket a.packet && a.found.all wfFind

/-- A twin message's epoch and sequence fit eight bytes (R512). -/
def wfHdr (h : TwinHdr) : Bool := decide (h.epoch < 2 ^ 64) && decide (h.mseq < 2 ^ 64)

/-- A module's two pages are 128 bytes each (R567). -/
def wfModule (m : ModuleReading) : Bool := decide (m.lower.length ≤ 128) && decide (m.upper.length ≤ 128)

/-- Whether a command is well formed: one line for each constructor. -/
def Instr.wf : Instr → Bool
  | .add _ _ _ _ _ => true
  | .sub _ _ _ _ _ => true
  | .and _ _ _ _ _ => true
  | .or _ _ _ _ _ => true
  | .xor _ _ _ _ _ => true
  | .sll _ _ _ _ _ => true
  | .srl _ _ _ _ _ => true
  | .sra _ _ _ _ _ => true
  | .slt _ _ _ _ _ => true
  | .sltu _ _ _ _ _ => true
  | .min _ _ _ _ _ => true
  | .max _ _ _ _ _ => true
  | .mul _ _ _ _ _ => true
  | .mulhu _ _ _ _ _ => true
  | .div _ _ _ _ _ => true
  | .divu _ _ _ _ _ => true
  | .rem _ _ _ _ _ => true
  | .remu _ _ _ _ _ => true
  | .addi _ _ _ _ _ => true
  | .andi _ _ _ _ _ => true
  | .ori _ _ _ _ _ => true
  | .xori _ _ _ _ _ => true
  | .slli _ _ _ _ _ => true
  | .srli _ _ _ _ _ => true
  | .srai _ _ _ _ _ => true
  | .slti _ _ _ _ _ => true
  | .lui _ _ _ _ => true
  | .lhi _ _ _ _ => true
  | .beq _ _ _ _ _ => true
  | .bne _ _ _ _ _ => true
  | .blt _ _ _ _ _ => true
  | .bge _ _ _ _ _ => true
  | .bltu _ _ _ _ _ => true
  | .bgeu _ _ _ _ _ => true
  | .j _ _ _ => true
  | .jal _ _ _ => true
  | .jr _ _ _ _ _ => true
  | .lb _ _ _ _ _ => true
  | .lh _ _ _ _ _ => true
  | .lw _ _ _ _ _ => true
  | .ld _ _ _ _ _ => true
  | .lbu _ _ _ _ _ => true
  | .lhu _ _ _ _ _ => true
  | .lwu _ _ _ _ _ => true
  | .sb _ _ _ _ _ => true
  | .sh _ _ _ _ _ => true
  | .sw _ _ _ _ _ => true
  | .sd _ _ _ _ _ => true
  | .lld _ _ _ _ _ => true
  | .lldComplete _ _ _ => true
  | .lst _ _ _ _ _ => true
  | .qpush _ _ _ _ _ => true
  | .qtry _ _ _ _ _ => true
  | .semsig _ _ _ _ => true
  | .semwait _ _ _ _ => true
  | .semrd _ _ _ _ => true
  | .crr _ _ _ _ => true
  | .crw _ _ _ _ => true
  | .fence _ _ _ => true
  | .fenceComplete _ _ => true
  | .trap _ _ => true
  | .eret _ _ => true
  | .halt _ _ => true
  | .wfe _ _ => true
  | .wfeWake _ _ => true
  | .loadWarningRenewal _ => true
  | .gangDeliver _ _ => true
  | .mma _ => true
  | .arrayStart _ => true
  | .streamedWeightArrival a => a.found.all wfFind
  | .passVerdict _ _ freezes _ => wfFreezes freezes
  | .vecCvt _ _ => true
  | .vecAdd _ _ => true
  | .vecSub _ _ => true
  | .vecMul _ _ => true
  | .vecFma _ _ => true
  | .vecMax _ _ => true
  | .vecMin _ _ => true
  | .vecAbs _ _ => true
  | .vecNeg _ _ => true
  | .vecRsum _ _ => true
  | .vecRmax _ _ => true
  | .vecRsum64 _ _ => true
  | .vecRmax64 _ _ => true
  | .sfuExp _ _ => true
  | .sfuLog _ _ => true
  | .sfuRcp _ _ => true
  | .sfuRsq _ _ => true
  | .sfuSin _ _ => true
  | .sfuCos _ _ => true
  | .sfuErf _ _ => true
  | .moveCopy _ _ => true
  | .moveGet _ => true
  | .movePut _ _ => true
  | .moveMcast _ _ => true
  | .moveImem _ _ => true
  | .moveZero _ => true
  | .remoteRowArrival _ _ => true
  | .rowAcknowledge _ => true
  | .mcastBranchAbandon _ _ _ => true
  | .mcastComplete _ _ => true
  | .syncSignal _ => true
  | .syncWait _ => true
  | .syncWatch _ => true
  | .syncArrive _ => true
  | .syncFence _ => true
  | .syncUntil _ => true
  | .untilExpire _ => true
  | .ctrlNop _ => true
  | .keyload _ _ => true
  | .setbase _ => true
  | .prewarn _ => true
  | .commandRetire _ _ _ => true
  | .remoteSignalArrival _ => true
  | .barrierArrival _ => true
  | .barrierDeadlineArm _ => true
  | .releaseNotice _ _ => true
  | .barrierReleaseSlot _ _ => true
  | .barrierSlot31Pass _ => true
  | .bgDeadlineWrite _ _ _ => true
  | .bgEnClear _ _ _ => true
  | .bankPowerRequest _ _ _ => true
  | .bankWakeDone _ _ => true
  | .bankFillDone _ _ => true
  | .eccWriteback _ _ => true
  | .spRowRemapInstall _ _ => true
  | .flitCrcError _ => true
  | .meshLinkDown _ _ => true
  | .tileReleaseSlot _ => true
  | .hbmAccess _ found => wfFind found
  | .patrolRead _ found => wfFind found
  | .hbmRefresh _ _ _ => true
  | .hbmZeroingDone _ => true
  | .hbmRetrain _ _ _ => true
  | .hoodLoadRequest _ _ => true
  | .hoodImageFetched _ _ => true
  | .hoodUnload _ _ => true
  | .adapterLoadRequest _ _ => true
  | .adapterUnload _ _ => true
  | .configure _ _ => true
  | .stage _ _ => true
  | .stagingComplete _ _ => true
  | .serve _ _ => true
  | .drain _ _ => true
  | .drainComplete _ => true
  | .kill _ _ => true
  | .scrubDone _ => true
  | .release _ _ => true
  | .submit _ order => decide (order.length = 128)
  | .contextLanded _ _ => true
  | .adapterCopied _ _ => true
  | .cancel _ _ => true
  | .batchClose _ => true
  | .stepRelease _ => true
  | .stepEnd _ outs => wfOuts outs
  | .recoveryStep _ => true
  | .stepLimitExpiry _ => true
  | .resultWrite _ => true
  | .consumerCountRead _ _ => true
  | .profileRequest _ _ => true
  | .surplusAssignment _ _ => true
  | .generatorInput _ _ => true
  | .hostAcknowledged _ _ => true
  | .hostStreamWrite => true
  | .epochOpen => true
  | .journalCompaction => true
  | .replayRequest _ _ buffer => buffer.all wfRecord
  | .replayStep outs => wfOuts outs
  | .timePacketSend => true
  | .timePacketReceive _ carried correction => decide (carried % 16384 = 0) && decide (carried < 2 ^ 64) && decide (correction < 2 ^ 64)
  | .timePacketMissed _ => true
  | .ptpSync _ _ _ _ => true
  | .ppsEdge _ => true
  | .ppsSeconds _ _ => true
  | .referenceLoss _ => true
  | .referencePresent _ => true
  | .disciplineLoss => true
  | .holdoverExpiry => true
  | .pointRequest _ _ => true
  | .voltageRaiseStart => true
  | .frequencyChange lagging => decide lagging.Nodup
  | .freqLagConfirm _ => true
  | .droopDetect _ _ => true
  | .phaseDisable _ _ _ => true
  | .derateCapApply _ => true
  | .regulatorTrip _ => true
  | .zoneFuseOpen _ _ => true
  | .pathResistanceCheck _ _ _ _ => true
  | .powerRequest _ _ _ => true
  | .powerUpAttempt _ => true
  | .softStartDone _ => true
  | .powerDownDone _ => true
  | .loadBoostEnd _ => true
  | .releaseBoostStart _ => true
  | .releaseBoostEnd _ => true
  | .powerEstimate zonesMilliWatts _ => decide (zonesMilliWatts.length = 24)
  | .zoneGainUpdate _ _ _ => true
  | .deviceOffsetUpdate _ _ => true
  | .capEpoch => true
  | .thermalReading _ _ => true
  | .fastCapDrop _ => true
  | .zoneCurrentCheck _ _ => true
  | .marginTrim _ _ => true
  | .groupEnable _ _ => true
  | .groupEpoch _ => true
  | .slack report => decide (report.epoch < 2 ^ 64) && decide (report.period < 2 ^ 32)
  | .shareCompute => true
  | .portDown _ => true
  | .portRestore _ => true
  | .portEnable _ _ _ => true
  | .odpFrameReject _ _ _ _ _ => true
  | .sessionOpen _ _ => true
  | .sessionClose _ => true
  | .abort _ => true
  | .keepaliveExpiry _ => true
  | .ping _ _ => true
  | .read _ _ _ => true
  | .write a _ _ _ => a.buffer.all wfRecord
  | .readGroup _ _ => true
  | .writeGroup a _ => a.buffer.all wfRecord
  | .blockRead _ _ _ offset len => decide (offset < 2 ^ 32) && decide (len < 2 ^ 32)
  | .blockWrite a seg => a.buffer.all wfRecord && wfSegment seg
  | .blockWriteTimeout _ => true
  | .snapshotExpiry _ => true
  | .subscribe _ _ _ => true
  | .eventSend _ _ _ _ => true
  | .eventResend _ _ => true
  | .eventResponse _ => true
  | .complete _ _ _ offset len => decide (offset < 2 ^ 32) && decide (len < 2 ^ 32)
  | .doorbell _ _ entries => entries.all (fun e => decide (e.length = 128)) && decide (entries.length ≤ 4096)
  | .inboundSend _ _ => true
  | .rdmaRetryTimeout _ => true
  | .rdmaErrorNak _ => true
  | .protocolLogClear _ _ => true
  | .windowAccessRead _ => true
  | .windowAccessWrite _ _ => true
  | .registerWrite _ _ _ => true
  | .lohiLowRead _ _ => true
  | .lohiHighWrite _ _ _ => true
  | .hubEnSet _ _ _ => true
  | .fhEnSet _ _ _ => true
  | .errorRecordArrival _ => true
  | .errorLogMove => true
  | .errorLogClear _ _ => true
  | .mbCommit _ _ _ => true
  | .mbTake _ _ => true
  | .mbTimeout _ => true
  | .receiverReset _ => true
  | .mbLockWrite _ _ => true
  | .readIdentity => true
  | .trainHbm => true
  | .powerClusters => true
  | .lockTime => true
  | .quickPounce => true
  | .loadTables => true
  | .trainLinks => true
  | .enterService => true
  | .auto => true
  | .warmRestart => true
  | .status => true
  | .powerGoodReset => true
  | .bringupStart _ => true
  | .firmwareImage _ seg => wfSegment seg
  | .ownerInstall _ _ => true
  | .ownerRevoke _ _ => true
  | .nonceRead _ => true
  | .debugUnlock _ _ => true
  | .relock _ _ => true
  | .attestationNonce _ _ => true
  | .attestationReportReady => true
  | .ciphertext _ _ => true
  | .wrappedKey _ _ => true
  | .keyActivation _ _ => true
  | .previousKeyExpiry _ => true
  | .frameAuthFail _ => true
  | .linkTrainingDone _ goodLanes => decide (goodLanes ≤ 5)
  | .linkRetrain _ => true
  | .fabricCrcError _ => true
  | .fabricResendTimeout _ => true
  | .relayForward _ p => wfPacket p
  | .fabricLinkReroute _ => true
  | .fabricWrite a => wfArrival a
  | .readReq a => wfArrival a
  | .readResp a => wfArrival a
  | .fabricAck p => wfPacket p
  | .reduce _ _ a => wfArrival a
  | .reductionTimeout _ offset _ => decide (offset < 2 ^ 32)
  | .schedule _ _ _ _ _ => true
  | .scheduleAnswer _ _ => true
  | .probe _ _ => true
  | .probeAnswer _ _ => true
  | .hello h _ => wfHdr h
  | .heartbeatSend => true
  | .heartbeat h _ => wfHdr h
  | .heartbeatLoss => true
  | .probeWindowExpiry => true
  | .twinTime h _ => wfHdr h
  | .journal h records => wfHdr h && records.all wfRecord
  | .jack h _ => wfHdr h
  | .tokens h _ _ _ => wfHdr h
  | .kvPage h _ _ _ _ => wfHdr h
  | .digest h _ _ _ => wfHdr h
  | .weightDigest h _ dig _ => wfHdr h && decide (dig.length = 32)
  | .weightDigestCheck _ _ => true
  | .hoodCopy h _ _ _ _ _ => wfHdr h
  | .forward h _ => wfHdr h
  | .twinSession h _ => wfHdr h
  | .reject h _ _ => wfHdr h
  | .twinModeRequest _ _ => true
  | .twinModeEffect => true
  | .regionProtected _ => true
  | .homesWrite _ _ => true
  | .pounceRequest _ _ => true
  | .pounceTestStart _ => true
  | .pounceTestEnd _ _ => true
  | .maintenanceStart _ => true
  | .maintenanceWindowOpen => true
  | .otpAppendDone => true
  | .railExcursion => true
  | .zoneInputFault _ _ => true
  | .thermalTrip _ _ _ => true
  | .illegalInstruction _ _ _ => true
  | .adapterImageFetched _ _ => true
  | .hostPortUp _ => true
  | .moduleInserted reading => wfModule reading
  | .scheduledInstant _ => true
  | .connectionRequest _ _ _ => true
  | .announce _ _ _ => true
  | .announceReceiptTimeout _ => true
  | .delayResp _ => true
  | .pfcPauseFrame _ _ => true
  | .bringupWorkDone obs => obs.modules.all wfModule && decide (obs.hbmStacks.map (·.stack)).Nodup
  | .lockWaitExpiry => true
  | .jtagInstruction _ => true

end Sys2Proof
end

