-- ==== Sys2Proof/Tests/Slice0.lean ====
section
/-! SUPPORT. Own tests: ill-formed commands that the check refuses, small results taken from the spec, and for every statement with hypotheses a state and operands that meet them. -/
section
open Sys2Proof Sys2Proof.Machine
set_option Elab.async false
namespace Sys2Proof.Tests

/-! ### Small states -/

/-- A command descriptor from fields (low bit, value). -/
def mk (fs : List (Nat × Nat)) : BitVec 128 := BitVec.ofNat 128 (fs.foldl (fun a f => a + f.2 * 2 ^ f.1) 0)

/-- Wait and signal fields of a header: none. -/
def noSems : List (Nat × Nat) := [(4, 0x3F), (10, 0x3F)]

/-- A queued entry of a descriptor, and one in a progress. -/
def ent (d : BitVec 128) : QEntry := ⟨0, d, .queued, []⟩
def entP (d : BitVec 128) (p : Progress) : QEntry := ⟨0, d, p, []⟩

/-- A state with a cluster on. -/
def withOn (s : State) (c : Nat) : State := modCluster s c fun r => { r with power := .on }
def on0 : State := withOn State.reset 0

/-- Core 0 of site 0, running, with a change. -/
def runCore (f : Core → Core) : State := modCore on0 0 0 fun k => f { k with status := .running }
def run0 : State := runCore id

/-- Site 0 with entries in a queue. -/
def withQ (s : State) (q : QueueId) (es : List QEntry) : State :=
  modTile s 0 fun t => setQueue t q { queueOf t q with entries := es }

/-- The same for site 5, which is its quadrant's attach site. -/
def withQ5 (s : State) (q : QueueId) (es : List QEntry) : State :=
  modTile s 5 fun t => setQueue t q { queueOf t q with entries := es }

/-- Sites 5 and 6, both attach sites, are logical tiles 0 and 1 of region 0; cluster, hub, field and routers are enabled. -/
def attachS : State :=
  let s := modRegion on0 0 fun r => { r with state := .ready, set := [1] }
  let s := regPut (regPut (regPut s (fieldReg 0 0x3000) 0x10) (hubReg 0 0x008) 0) (fieldReg 0 0) 1
  let s := regPut (regPut (regPut s (hubReg 0 0) 1) (hubReg 0 0x010) 0x15) (hubReg 0 0x014) 0x16
  regPut (regPut s (netReg 5 0) 1) (netReg 6 0) 1

/-- Every bank of site 0 on and its scratchpads enabled. -/
def withBanks (s : State) : State :=
  modTile (regPut s (spadReg 0 0) 1) 0 fun t => { t with banks := (List.range 8).map fun b => (b, BankState.on) }

theorem banks_serve_of (s : State) (site : Site) (hb : ∀ b : Fin 8, bankState s site b = .on)
    (he : regBit s (spadReg site 0x000) 0 = true) (hh : siteHeld s site = false) : BanksServe s site := by
  intro row req
  have := hb ⟨bankOf row, by unfold bankOf; omega⟩
  simp_all [bankServes]

theorem no_poison_of (s : State) (he : s.spadErr = []) (h : s.spadTag = []) : NoPoison s := by
  refine ⟨he, fun k => ?_⟩
  rw [h]
  rfl

/-- A packet from site 1 or another source; the rest is quiet. -/
def pkt (vc : Nat) (source : Option Site) (addr : Nat) (kind : PacketKind) : Packet :=
  { order := 0, turn := 0, credits := 0, vc := vc, source := source, master := 0, addr := addr, seq := 0, index := 0, mcast := false, kind := kind }

end Sys2Proof.Tests

namespace Sys2Proof.Tests

/-! ### WellFormed refuses what no command may hold -/

def wfP : FabPacket :=
  { dst := 5, src := 6, kind := 0, channel := 0, aperture := 0, sem := 0x3F, generation := 0, offset := 0, transaction := 0, poison := 0,
    status := 0, payload := [], linkSeq := 0, linkAck := 0 }
def wfF : Frame := { port := .hp0, toPair := false, mac := 0, ip := 1, udp := 4096, dport := 49420, session := 1, seq := 1, ack := 0 }
def wfR (n : Nat) : JRecord := ⟨n, 0, 1, 0, []⟩
def wfG (n : Nat) : Segment := ⟨0, 0, true, true, n, 0, true, []⟩
def wfM : MemberOut := ⟨1, [], false, [], false, [], [], false⟩
def wfMod (n : Nat) : ModuleReading := ⟨0, zeros n, [], true, true⟩

theorem wf_smoke : (Instr.passVerdict 0 [] ⟨1, 0, 0, 1⟩ []).wf = true ∧ (Instr.fabricWrite ⟨wfP, [], []⟩).wf = true ∧ (Instr.submit wfF (zeros 128)).wf = true ∧
    (Instr.moduleInserted (wfMod 128)).wf = true := by decide +kernel
theorem wf_freezes : (Instr.passVerdict 0 [] ⟨2, 0, 0, 1⟩ []).wf = false := by decide +kernel
theorem wf_parity : (Instr.hbmAccess 0 { HbmFind.clean with parity := some (0, 6) }).wf = false ∧ (Instr.patrolRead 0 { HbmFind.clean with corrected := [1], bad := [1] }).wf = false := by decide +kernel
theorem wf_submit : (Instr.submit wfF (zeros 127)).wf = false := by decide +kernel
theorem wf_members : (Instr.stepEnd 0 [wfM, wfM]).wf = false ∧ (Instr.replayStep [wfM, wfM]).wf = false := by decide +kernel
theorem wf_record : (Instr.replayRequest wfF [] [wfR (2 ^ 64)]).wf = false ∧ (Instr.journal ⟨0, 0, 0⟩ [wfR (2 ^ 64)]).wf = false := by decide +kernel
theorem wf_timePacket : (Instr.timePacketReceive (.other 0) 16383 0).wf = false ∧ (Instr.timePacketReceive (.other 0) (2 ^ 64) 0).wf = false ∧
    (Instr.timePacketReceive (.other 0) 0 (2 ^ 64)).wf = false := by decide +kernel
theorem wf_lagging : (Instr.frequencyChange [0, 0]).wf = false := by decide +kernel
theorem wf_estimate : (Instr.powerEstimate (List.replicate 23 0) 0).wf = false := by decide +kernel
theorem wf_slack : (Instr.slack ⟨0, 0, 0, 2 ^ 64, 0, false, 0, 0, 0⟩).wf = false ∧ (Instr.slack ⟨0, 0, 2 ^ 32, 0, 0, false, 0, 0, 0⟩).wf = false := by decide +kernel
theorem wf_blocks : (Instr.blockRead ⟨wfF, []⟩ 0 0 (2 ^ 32) 0).wf = false ∧ (Instr.blockRead ⟨wfF, []⟩ 0 0 0 (2 ^ 32)).wf = false ∧
    (Instr.blockWrite ⟨wfF, []⟩ (wfG (2 ^ 32))).wf = false ∧ (Instr.firmwareImage wfF (wfG (2 ^ 32))).wf = false := by decide +kernel
theorem wf_complete : (Instr.complete wfF 0 false (2 ^ 32) 0).wf = false ∧ (Instr.complete wfF 0 false 0 (2 ^ 32)).wf = false := by decide +kernel
theorem wf_doorbell : (Instr.doorbell 1 0 [[]]).wf = false := by decide +kernel
theorem wf_training : (Instr.linkTrainingDone 0 6).wf = false := by decide +kernel
theorem wf_packets : (Instr.relayForward 0 { wfP with offset := 1 }).wf = false ∧ (Instr.fabricWrite ⟨{ wfP with payload := [0] }, [], []⟩).wf = false ∧
    (Instr.readReq ⟨{ wfP with offset := 2 ^ 32 }, [], []⟩).wf = false ∧ (Instr.readResp ⟨{ wfP with linkSeq := 2 ^ 32 }, [], []⟩).wf = false ∧
    (Instr.fabricAck { wfP with linkAck := 2 ^ 32 }).wf = false ∧ (Instr.reduce 0 0 ⟨{ wfP with payload := zeros 4160 }, [], []⟩).wf = false ∧
    (Instr.reductionTimeout 0 (2 ^ 32) 0).wf = false := by decide +kernel
theorem wf_twin : (Instr.hello ⟨0, 2 ^ 64, 0⟩ ⟨[], [], 0, [], 0, false⟩).wf = false ∧ (Instr.heartbeat ⟨0, 0, 2 ^ 64⟩ ⟨0, 0, false, 0, 0, []⟩).wf = false ∧
    (Instr.twinTime ⟨0, 2 ^ 64, 0⟩ 0).wf = false ∧ (Instr.jack ⟨0, 2 ^ 64, 0⟩ 0).wf = false ∧ (Instr.tokens ⟨0, 2 ^ 64, 0⟩ 0 0 []).wf = false ∧
    (Instr.kvPage ⟨0, 2 ^ 64, 0⟩ 0 0 0 []).wf = false ∧ (Instr.digest ⟨0, 2 ^ 64, 0⟩ 0 0 []).wf = false ∧ (Instr.weightDigest ⟨0, 0, 0⟩ 0 [] 0).wf = false ∧
    (Instr.hoodCopy ⟨0, 2 ^ 64, 0⟩ false 0 0 [] false).wf = false ∧ (Instr.forward ⟨0, 2 ^ 64, 0⟩ []).wf = false ∧
    (Instr.twinSession ⟨0, 2 ^ 64, 0⟩ ⟨0, false, 0, 0, 0, [], []⟩).wf = false ∧ (Instr.reject ⟨0, 2 ^ 64, 0⟩ 0 0).wf = false := by decide +kernel
theorem wf_modules : (Instr.moduleInserted (wfMod 129)).wf = false ∧
    (Instr.bringupWorkDone ⟨none, [], [wfMod 129], [], [], [], [], [], []⟩).wf = false ∧
    (Instr.bringupWorkDone ⟨none, [], [], [⟨0, [], true, true, true, 0, false, true⟩, ⟨0, [], true, true, true, 0, false, true⟩], [], [], [], [], []⟩).wf = false := by
  decide +kernel

/-! ### Instruction words written out from R101 and R102 -/

/-- An RR, an RI, a BR and a J word, the last two with a negative count; and words that are no instruction. -/
theorem decode_words : decodeScalar 0 0 0b000001_00011_00001_00010_00000000001 = some (.sub 0 0 3 1 2) ∧
    decodeScalar 0 0 0b000010_00011_00001_1111111111111011 = some (.addi 0 0 3 1 0xFFFB) ∧
    decodeScalar 0 1 0b010010_00001_00010_1111111111111110 = some (.blt 0 1 1 2 0xFFFE) ∧
    decodeScalar 0 0 0b011001_11111111111111111111111110 = some (.jal 0 0 0x3FFFFFE) := by decide +kernel
theorem decode_memory_words : decodeScalar 0 0 0b100110_00011_00001_0000000000001100 = some (.lwu 0 0 3 1 12) ∧
    decodeScalar 0 0 0b101011_00011_00001_0000000000001000 = some (.sd 0 0 3 1 8) ∧
    decodeScalar 0 0 0b110000_00011_00001_00010_00000000000 = some (.qpush 0 0 3 1 2) ∧
    decodeScalar 0 0 0b110101_00000_00001_0000000000101111 = some (.semwait 0 0 1 47) := by decide +kernel
theorem decode_no_instruction : decodeScalar 0 0 0 = none ∧ decodeScalar 0 0 0b000001_00011_00001_00010_00000001100 = none ∧
    decodeScalar 0 0 0b110101_00000_00001_0000000000110000 = none ∧ decodeScalar 0 0 0b111010_00000_00000_0000000000000101 = none := by decide +kernel

/-! ### Results from the spec -/

/-- What a command leaves of a view of the state. -/
def after {α : Type} (o : Host.Outcome State Fault Refusal) (f : State → α) : Option α := match o with
  | .next t => some (f t)
  | _ => none

def regsCore (a b : Word64) : State := runCore fun k => { k with gregs := [(1, a), (2, b)] }

/-- R102: quotients round toward zero, a quotient by zero is all ones, and the most negative number divided by −1 wraps. -/
theorem test_div : after (exec (.div 0 0 3 1 2) (regsCore (-7) 2)) (greg · 0 0 3) = some (-3) ∧
    after (exec (.div 0 0 3 1 2) (regsCore 7 0)) (greg · 0 0 3) = some (-1) ∧
    after (exec (.div 0 0 3 1 2) (regsCore 0x8000000000000000 (-1))) (greg · 0 0 3) = some 0x8000000000000000 := by decide +kernel
/-- R102: a remainder takes the dividend's sign, and by zero is the dividend. -/
theorem test_rem : after (exec (.rem 0 0 3 1 2) (regsCore (-7) 2)) (greg · 0 0 3) = some (-1) ∧
    after (exec (.rem 0 0 3 1 2) (regsCore 7 0)) (greg · 0 0 3) = some 7 := by decide +kernel
/-- R99: g0 reads zero after a write of it. -/
theorem test_g0 : after (exec (.addi 0 0 0 0 5) run0) (greg · 0 0 0) = some 0 := by decide +kernel
/-- R102: shifts take the low six bits of rb, and SRA keeps the sign. -/
theorem test_shift : after (exec (.sra 0 0 3 1 2) (regsCore (-8) 66)) (greg · 0 0 3) = some (-2) ∧
    after (exec (.sll 0 0 3 1 2) (regsCore 1 64)) (greg · 0 0 3) = some 1 := by decide +kernel
/-- R102: MULHU takes the high half; LHI puts its immediate, sign-extended to 32 bits, above the low half. -/
theorem test_high : after (exec (.mulhu 0 0 3 1 2) (regsCore (-1) (-1))) (greg · 0 0 3) = some 0xFFFFFFFFFFFFFFFE ∧
    after (exec (.lhi 0 0 1 0x8000) (regsCore 0x12345678 0)) (greg · 0 0 1) = some 0xFFFF800012345678 := by decide +kernel
/-- R105: a store puts its lowest byte first. -/
theorem test_store : after (exec (.sw 0 0 1 0 4) (regsCore 0x11223344 0)) (fun t => memRead (coreOf (tileOf t 0) 0).latch 4 4) =
    some [0x44, 0x33, 0x22, 0x11] := by decide +kernel
/-- R107: TRAP saves its own address with cause 4 and goes on at CR_TVEC. -/
theorem test_trap : after (exec (.trap 0 0) (runCore fun k => { k with pc := 0x40, tvec := 0x100 }))
    (fun t => ((coreOf (tileOf t 0) 0).epc, (coreOf (tileOf t 0) 0).cause, (coreOf (tileOf t 0) 0).pc)) = some (0x40, 4, 0x100) := by decide +kernel

/-- The example below R236: the 180th arrival of generation 12 of BG05 reaches the root at 40,001,000 DTU, and slot 31 passes at 40,011,648 DTU. -/
def bg05 : State :=
  let s := modRegion on0 0 fun g => { g with state := .ready, set := [1] }
  let s := regPut (regPut (regPut s (fieldReg 0 0x3000) 0x10) (hubReg 0 0x008) 0) (fieldReg 0 0) 1
  let s := regPut (regPut (regPut s (hubReg 0 0) 1) (hubReg 0 0x024) 0x15) (netReg 5 0) 1
  let s := regPut (regPut s (bgReg 5 0) (BitVec.ofNat 32 (1 + 180 * 65536))) (bgReg 5 4) (BitVec.ofNat 32 (179 + 12 * 4096))
  { s with time := { TimeRec.reset with now := 40001000 }, net := [pkt 0 (some 5) 0 (.arrive 5 12)] }
theorem test_barrier_example : (fun t => ((groupOf t 5).armed, bgGenOf t 5, rfld (regGet t (bgReg 5 4)) 0 12))
    (arrivalAt (dropPacket bg05 0) (pkt 0 (some 5) 0 (.arrive 5 12)) 5 5 12) = (some (12, 40007680), 13, 0) := by decide +kernel
theorem test_barrier_slot31 : after (exec (.barrierSlot31Pass 5) (setGroup { on0 with time := { TimeRec.reset with now := 40011648 } } 5 { Group.reset with armed := some (12, 40007680) }))
    (fun t => ((groupOf t 5).armed, reg64 t (bgReg 5 0x18))) = some (none, 40007680) := by decide +kernel
/-- Field 0, cluster 5, tile 10 stands in slot 21 (the same example). -/
theorem test_barrier_slot : slotOf (16 * 5 + 10) = 21 := by decide +kernel

/-- R148: in one write bank 0 goes ON to RETAIN, bank 1 OFF to FILL, and bank 2, not named, stays. -/
theorem test_banks : after (exec (.bankPowerRequest 0x010 0 0x000F000D) (modTile on0 0 fun t => { t with banks := [(0, .on), (2, .retain)] }))
    (fun t => (bankState t 0 0, bankState t 0 1, bankState t 0 2)) = some (.retain, .fill 0, .retain) := by decide +kernel
/-- R473: a W1C bit clears by a written one, and a reserved bit of VR_CTRL stays 0. -/
theorem test_registers : after (exec (.registerWrite 0 0xF00200001000 0xFFFFFFFF) on0) (fun t => regGet t (vrReg 0 0)) = some 0xFF01 := by decide +kernel
/-- R34, R33: the canonical FP32 NaN, and 448 the largest FP8A value (R28). -/
theorem test_formats : toFP32 .nan = 0x7FC00000 ∧ toFP32 (decodeVal (.flt fmtFP8A) 0x7E) = 0x43E00000 := by decide +kernel

end Sys2Proof.Tests

namespace Sys2Proof.Tests

/-! ### Witnesses: the scalar cores -/

theorem wit_StepRunsTheFrontCommand : State.reset.pending = [] := by decide +kernel

theorem wit_RegisterAndImmediateInstructions : CoreGoes run0 0 0 := by decide +kernel

def brCore : State := runCore fun k => { k with pc := 0x100, gregs := [(1, 5)], epc := 0x200 }

theorem wit_Branches_taken : CoreGoes brCore 0 0 ∧ greg brCore 0 0 1 ≠ greg brCore 0 0 2 ∧ GoodTarget (0x100 + 4 * (-0x40)) := by
  decide +kernel

theorem wit_Branches_edge : GoodTarget (0xFFF8 + 4 * 1) ∧ ¬ GoodTarget (0xFFF8 + 4 * 2) ∧ ¬ GoodTarget (0x100 + 4 * (-0x41)) := by
  decide +kernel

theorem wit_Branches_notTaken : CoreGoes brCore 0 0 ∧ ¬ greg brCore 0 0 1 = greg brCore 0 0 2 := by decide +kernel

theorem wit_Jumps : coreReady brCore 0 0 = true ∧ GoodTarget (greg brCore 0 0 0 + BitVec.ofInt 64 0x20).toNat ∧
    GoodTarget (coreOf (tileOf brCore 0) 0).epc.toNat := by decide +kernel

theorem wit_Traps_vector : coreReady (runCore fun k => { k with tvec := 0x80 }) 0 0 = true ∧ GoodTarget (0x80 : Nat) ∧
    (63 * 2 ^ 26) / 2 ^ 26 = 63 := by decide +kernel

theorem wit_Traps_halt : coreReady (regPut run0 (errReg 0) 1) 0 0 = true ∧ (coreOf (tileOf run0 0) 0).tvec = 0 ∧
    regBit (regPut run0 (errReg 0) 1) (errReg 0) 0 = true ∧ run0.errBuf.length < 256 := by decide +kernel

def latchCore : State := runCore fun k => { k with tvec := 0x80, latchTags := 2, gregs := [(1, 64)] }

theorem wit_LatchLoads_clean : CoreGoes latchCore 0 0 ∧ (coreOf (tileOf latchCore 0) 0).lld = none ∧
    effAddr latchCore 0 0 0 504 % 8 = 0 ∧ effAddr latchCore 0 0 0 504 < 512 ∧
    (coreOf (tileOf latchCore 0) 0).latchTags.getLsbD (effAddr latchCore 0 0 0 504 / 64) = false := by decide +kernel

theorem wit_LatchLoads_poisoned : effAddr latchCore 0 0 1 0 % 8 = 0 ∧ effAddr latchCore 0 0 1 0 < 512 ∧
    (coreOf (tileOf latchCore 0) 0).latchTags.getLsbD (effAddr latchCore 0 0 1 0 / 64) = true ∧
    (coreOf (tileOf latchCore 0) 0).tvec ≠ 0 ∧ GoodTarget (coreOf (tileOf latchCore 0) 0).tvec.toNat := by decide +kernel

theorem wit_LatchLoads_far : effAddr latchCore 0 0 1 1 % 8 ≠ 0 ∧ 512 ≤ effAddr latchCore 0 0 0 512 := by decide +kernel

theorem wit_LatchStores : CoreGoes latchCore 0 0 ∧ (coreOf (tileOf latchCore 0) 0).lld = none ∧
    effAddr latchCore 0 0 0 511 % 1 = 0 ∧ effAddr latchCore 0 0 0 511 < 512 := by decide +kernel

def bankCore : State := withBanks (runCore fun k => { k with lld := some ⟨8191, 0, none⟩ })

theorem wit_Rows_lld : CoreGoes (withBanks run0) 0 0 ∧ (coreOf (tileOf (withBanks run0) 0) 0).lld = none ∧
    effAddr (withBanks run0) 0 0 0 8191 < 8192 ∧ bankServes (withBanks run0) 0 8191 7 = true := by decide +kernel

theorem wit_Rows_lld_clean : (withBanks run0).spadErr = [] ∧ bankServes run0 0 8191 7 = false := by decide +kernel

theorem wit_Rows_complete : (coreOf (tileOf bankCore 0) 0).lld = some ⟨8191, 0, none⟩ ∧ (coreOf (tileOf bankCore 0) 0).status = .running := by
  decide +kernel

theorem wit_Rows_complete_taken : (coreOf (tileOf (runCore fun k => { k with lld := some ⟨8191, 0, some ([7], 1)⟩ }) 0) 0).lld =
    some ⟨8191, 0, some ([7], 1)⟩ := by decide +kernel

theorem wit_Pushes_room : CoreGoes run0 0 0 ∧ gangPlace run0 0 = none ∧ (queueOf (tileOf run0 0) .vector).entries.length < queueDepth .vector := by
  decide +kernel

def full0 : State := withQ run0 .array (List.replicate 16 (ent 0))

theorem wit_Pushes_full : CoreGoes full0 0 0 ∧ gangPlace full0 0 = none ∧ queueDepth .array ≤ (queueOf (tileOf full0 0) .array).entries.length := by
  decide +kernel

def semS : State := modTile (regPut (runCore fun k => { k with gregs := [(1, 3)] }) (syncReg 0 0) 1) 0 fun t => { t with sems := [(0, 2), (47, 65535)] }

theorem wit_Semaphores_signal : CoreGoes semS 0 0 ∧ syncEnabled semS 0 = true ∧ (∀ w ∈ (tileOf semS 0).waiters, w.sem ≠ 47) ∧
    semValue (tileOf semS 0) 47 < 65536 := by decide +kernel

theorem wit_Semaphores_take : (coreOf (tileOf semS 0) 0).trapDue = none ∧ (greg semS 0 0 1).toNat % 65536 ≤ semValue (tileOf semS 0) 47 := by
  decide +kernel

theorem wit_Semaphores_wait : semValue (tileOf semS 0) 0 < (greg semS 0 0 1).toNat % 65536 := by decide +kernel

theorem wit_ControlRegisters : CoreGoes run0 0 0 ∧ (0x017 : Nat) < 0xFFF := by decide +kernel

theorem wit_Halt_fence : coreReady run0 0 0 = true ∧ (4 : BitVec 16).toNat % 8 ≤ 4 := by decide +kernel

def asleep : State := runCore fun k => { k with status := .sleeping, woken := true }
theorem wit_Sleep : (coreOf (tileOf asleep 0) 0).pc ≠ 0xFFFC ∧ (coreOf (tileOf asleep 0) 0).trapDue = none ∧
    (coreOf (tileOf asleep 0) 0).status = .sleeping ∧ (coreOf (tileOf asleep 0) 0).woken = true := by decide +kernel

end Sys2Proof.Tests

namespace Sys2Proof.Tests

/-! ### Witnesses: fences, gangs, the array and the vector and move queues -/

def fencedCore : State := runCore fun k => { k with status := .fenced, fence := some ⟨0, [(.vector, 5)]⟩ }
theorem wit_Fence_complete : (coreOf (tileOf fencedCore 0) 0).pc ≠ 0xFFFC ∧ (coreOf (tileOf fencedCore 0) 0).trapDue = none ∧
    (coreOf (tileOf fencedCore 0) 0).status = .fenced ∧ (coreOf (tileOf fencedCore 0) 0).fence = some ⟨0, [(.vector, 5)]⟩ ∧
    (∀ x ∈ [(QueueId.vector, (5 : BitVec 16))], ∀ e ∈ (queueOf (tileOf fencedCore 0) x.1).entries, e.seq ≠ x.2) := by decide +kernel

/-- Region 0 holds logical cluster 0 as a gang; cluster 0 serves it with one mapped tile. -/
def gangS : State :=
  let s := modRegion on0 0 fun r => { r with state := .ready, set := [1] }
  let s := dputNum s 0x3100 0x04 1 1
  let s := regPut (regPut (regPut s (fieldReg 0 0x3000) 0x10) (hubReg 0 0x008) 0) (hubReg 0 0x010) 0x10
  setGang (regPut s (fieldReg 0 0) 1) 0 0 ⟨[(.array, 1)], [], []⟩
theorem wit_GangDelivers : (gangOf gangS (0 : Field) (0 : RegionId)).entries = [(.array, 1)] ∧ regBit gangS (fieldReg 0 0) 0 = true ∧
    gangGrain gangS (0 : RegionId) = true ∧ gangSites gangS (0 : RegionId) (0 : Field) ≠ [] ∧ (gangSites gangS (0 : RegionId) (0 : Field)).Nodup ∧
    (∀ x ∈ gangSites gangS (0 : RegionId) (0 : Field), x < 3072 ∧ (queueOf (tileOf gangS x) .array).entries.length < queueDepth .array) := by
  decide +kernel

def warned : State := modTile (withQ on0 .array [ent 1]) 0 fun t => { t with lastWarn := some 0 }
def warnedLate : State := { warned with time := { warned.time with now := 25600 } }
theorem wit_LoadWarning : clusterOn warnedLate (siteCluster 0) = true ∧ (tileOf warnedLate 0).arrayQ.entries ≠ [] ∧
    (tileOf warnedLate 0).lastWarn = some 0 ∧ 0 + 25600 ≤ now warnedLate := by decide +kernel

/-- An MMA of 16 × 16 × 16, and one with a reserved weight format. -/
def mmaD : BitVec 128 := mk ((0, 1) :: (45, 1000) :: (64, 2000) :: (77, 3000) :: noSems)
def mmaBad : BitVec 128 := mk ((0, 1) :: (16, 10) :: noSems)
def arrS (d : BitVec 128) : State := regPut (withQ on0 .array [ent d]) (arrayReg 0 0) 1
theorem wit_MmaBegins : PlainHead (arrS mmaD) 0 .array (ent mmaD) ∧ clusterOn (arrS mmaD) (siteCluster 0) = true ∧
    regBit (arrS mmaD) (arrayReg 0 0) 0 = true ∧ mmaCheck (arrS mmaD) 0 mmaD = 0 ∧ (foldOf (arrS mmaD) 0 mmaD).isSome = true := by
  refine ⟨⟨?_, ⟨[], ?_⟩, ?_⟩, ?_⟩ <;> decide +kernel
theorem wit_MmaSuspect : PlainHead (regPut (arrS mmaD) (arrayReg 0 4) 2) 0 .array (ent mmaD) ∧
    regBit (regPut (arrS mmaD) (arrayReg 0 4) 2) (arrayReg 0 0) 0 = true ∧ regBit (regPut (arrS mmaD) (arrayReg 0 4) 2) (arrayReg 0 4) 1 = true := by
  refine ⟨⟨?_, ⟨[], ?_⟩, ?_⟩, ?_⟩ <;> decide +kernel
theorem wit_MmaRejected : PlainHead (arrS mmaBad) 0 .array (ent mmaBad) ∧ clusterOn (arrS mmaBad) (siteCluster 0) = true ∧
    regBit (arrS mmaBad) (arrayReg 0 0) 0 = true ∧ regBit (arrS mmaBad) (arrayReg 0 4) 1 = false ∧ 10 ≤ mmaWfmt mmaBad := by
  refine ⟨⟨?_, ⟨[], ?_⟩, ?_⟩, ?_⟩ <;> decide +kernel

def exec0 : MmaExec := ⟨0, false, 0, 0, .first, none, none, [], none⟩
def holdS : State := modTile { arrS mmaD with time := { TimeRec.reset with now := 3200 } } 0 fun t => { t with mma := some exec0, idleEntry := some ⟨0, 0, true⟩ }
theorem wit_ArrayStart : (tileOf holdS 0).mma = some exec0 ∧ exec0.started = false ∧ mmaEntry (tileOf holdS 0) exec0 = some (ent mmaD) ∧
    foldOf holdS 0 mmaD = some ⟨16, [0]⟩ ∧ (tileOf holdS 0).idleEntry = some ⟨exec0.seq, 0, true⟩ ∧ regBit holdS (arrayReg 0 0) 0 = true ∧
    0 + 3200 ≤ now holdS := by decide +kernel
theorem wit_ArrayStart_off : (tileOf (regPut holdS (arrayReg 0 0) 0) 0).mma = some exec0 ∧ regBit (regPut holdS (arrayReg 0 0) 0) (arrayReg 0 0) 0 = false := by
  decide +kernel

/-- The same MMA with its weights streamed. -/
def mmaStream : BitVec 128 := mk ((0, 1) :: (58, 1) :: noSems)
def streamS : State := modTile (withQ5 attachS .array [entP mmaStream .running]) 5 fun t => { t with mma := some exec0 }
theorem wit_StreamedWeights : (tileOf streamS 5).mma = some exec0 ∧ exec0.shadow = none ∧
    mmaEntry (tileOf streamS 5) exec0 = some (entP mmaStream .running) ∧
    foldOf streamS 5 mmaStream = some ⟨16, [0]⟩ ∧ mmaWsrc mmaStream = true ∧ nextStreamed ⟨16, [0]⟩ exec0 < tilesOf ⟨16, [0]⟩ mmaStream ∧
    streamedReady streamS 5 0 mmaStream (globalTile ⟨16, [0]⟩ mmaStream (nextStreamed ⟨16, [0]⟩ exec0)) = true ∧
    (streamedTile streamS 5 0 mmaStream (globalTile ⟨16, [0]⟩ mmaStream (nextStreamed ⟨16, [0]⟩ exec0)) [] []).2.1 = 0 := by decide +kernel

/-- The same with a base slot that names no memory. -/
def streamBad : State := modTile streamS 5 fun t => { t with baseSlots := (List.range 16).map fun k => (k, 0x050000000000) }
theorem wit_StreamedWeights_failed : (tileOf streamBad 5).mma = some exec0 ∧
    streamedReady streamBad 5 0 mmaStream (globalTile ⟨16, [0]⟩ mmaStream (nextStreamed ⟨16, [0]⟩ exec0)) = true ∧
    (streamedTile streamBad 5 0 mmaStream (globalTile ⟨16, [0]⟩ mmaStream (nextStreamed ⟨16, [0]⟩ exec0)) [] []).2.1 ≠ 0 ∧
    (tileOf (streamedTile streamBad 5 0 mmaStream (globalTile ⟨16, [0]⟩ mmaStream (nextStreamed ⟨16, [0]⟩ exec0)) [] []).1 5).arrayQ =
      (tileOf streamBad 5).arrayQ := by decide +kernel

def passS : State := modTile (withBanks (withQ on0 .array [entP mmaD .running])) 0 fun t => { t with mma := some { exec0 with started := true } }
theorem wit_PassVerdict : clusterOn passS (siteCluster 0) = true ∧ (tileOf passS 0).mma = some { exec0 with started := true } ∧
    mmaEntry (tileOf passS 0) { exec0 with started := true } = some (entP mmaD .running) ∧
    foldOf passS 0 mmaD = some ⟨16, [0]⟩ ∧ mmaWsrc mmaD = false ∧ mmaRowchk mmaD = false ∧ BanksServe passS 0 ∧ NoPoison passS ∧
    regBit passS (arrayReg 0 0) 8 = false ∧ (passWeights passS 0 ⟨16, [0]⟩ mmaD { exec0 with started := true } (passAt ⟨16, [0]⟩ mmaD 0)).poison = false := by
  refine ⟨?_, ?_, ?_, ?_, ?_, ?_, banks_serve_of _ _ ?_ ?_ ?_, no_poison_of _ ?_ ?_, ?_⟩ <;> decide +kernel

/-- A VEC ADD of one FP16 element, and an SFU RCP of one. -/
def vecD : BitVec 128 := mk ((0, 2) :: (16, 1) :: (22, 9) :: (26, 9) :: (45, 1) :: (64, 2) :: (77, 1) :: noSems)
def vecS (d : BitVec 128) : State := withBanks (withQ on0 .vector [ent d])
theorem wit_Vector_clean : UnitHead (vecS vecD) 0 (ent vecD) ∧ dKind vecD = 2 ∧ dVop vecD = 1 ∧ vecCheck vecD = 0 ∧ vecMx vecD = false ∧
    BanksServe (vecS vecD) 0 ∧ NoPoison (vecS vecD) := by
  refine ⟨⟨⟨?_, ⟨[], ?_⟩, ?_⟩, ?_⟩, ?_, ?_, ?_, ?_, banks_serve_of _ _ ?_ ?_ ?_, no_poison_of _ ?_ ?_⟩ <;> decide +kernel
def vecP : State := { vecS vecD with spadTag := [(0, 7)] }
theorem wit_Vector_poisoned : UnitHead vecP 0 (ent vecD) ∧ dVop vecD = 1 ∧ vecCheck vecD = 0 ∧ BanksServe vecP 0 ∧
    (∃ a ∈ vecReads vecD, areaPoison vecP 0 a.1 0 a.2 = true) := by
  refine ⟨⟨⟨?_, ⟨[], ?_⟩, ?_⟩, ?_⟩, ?_, ?_, banks_serve_of _ _ ?_ ?_ ?_, ?_⟩ <;> decide +kernel

def sfuD : BitVec 128 := mk ((0, 3) :: (16, 2) :: (20, 9) :: (24, 9) :: (45, 1) :: (64, 1) :: (96, 0x3F800000) :: noSems)
theorem wit_Sfu : UnitHead (vecS sfuD) 0 (ent sfuD) ∧ dKind sfuD = 3 ∧ dOp sfuD = 2 ∧ sfuCheck sfuD = 0 ∧ (formatOf (sfuDfmt sfuD)).isSome = true ∧
    BanksServe (vecS sfuD) 0 ∧ NoPoison (vecS sfuD) := by
  refine ⟨⟨⟨?_, ⟨[], ?_⟩, ?_⟩, ?_⟩, ?_, ?_, ?_, ?_, banks_serve_of _ _ ?_ ?_ ?_, no_poison_of _ ?_ ?_⟩ <;> decide +kernel

end Sys2Proof.Tests

namespace Sys2Proof.Tests

/-! ### Witnesses: moves and the die's network -/

/-- A MOVE of one row by operation, from row 0 of the tile, to an address. -/
def moveD (op addr : Nat) : BitVec 128 := mk ((0, 4) :: (16, op) :: (21, 0x3F) :: (32, addr % 2 ^ 32) :: (64, addr / 2 ^ 32) :: (96, 1) :: noSems)

/-- Sites 0 and 1 are logical tiles 0 and 1 of region 0; cluster, hub, field and routers are enabled. -/
def meshS : State :=
  let s := modRegion on0 0 fun r => { r with state := .ready, set := [1] }
  let s := regPut (regPut (regPut s (fieldReg 0 0x3000) 0x10) (hubReg 0 0x008) 0) (fieldReg 0 0) 1
  let s := regPut (regPut (regPut s (hubReg 0 0) 1) (hubReg 0 0x010) 0x10) (hubReg 0 0x014) 0x11
  let s := regPut (regPut s (netReg 0 0) 1) (netReg 1 0) 1
  regPut (regPut s (netReg 0 0x104) 0x09) (netReg 1 0x100) 0x0B
def moveS (d : BitVec 128) : State := withBanks (withQ meshS .move [ent d])

theorem wit_Moves_zero : BanksServe (moveS (moveD 5 0)) 0 ∧ MoveHead (moveS (moveD 5 0)) 0 (ent (moveD 5 0)) 5 := by
  refine ⟨banks_serve_of _ _ ?_ ?_ ?_, ⟨?_, ⟨[], ?_⟩, ?_⟩, ?_⟩ <;> decide +kernel

def copyD : BitVec 128 := moveD 0 0x200000000200
theorem wit_Moves_clean (d : BitVec 128) : (moveS d).spadErr = [] := rfl
theorem wit_Moves_copy : BanksServe (moveS copyD) 0 ∧ MoveHead (moveS copyD) 0 (ent copyD) 0 ∧
    moveLocal copyD + moveRows copyD ≤ moveAddr (moveS copyD) 0 copyD / 512 % 8192 := by
  refine ⟨banks_serve_of _ _ ?_ ?_ ?_, ⟨⟨?_, ⟨[], ?_⟩, ?_⟩, ?_⟩, ?_⟩ <;> decide +kernel

theorem wit_Moves_get : MoveHead (moveS (moveD 1 0x1000)) 0 (ent (moveD 1 0x1000)) 1 ∧ addrRange (moveAddr (moveS (moveD 1 0x1000)) 0 (moveD 1 0x1000)) ≠ some 4 := by
  refine ⟨⟨⟨?_, ⟨[], ?_⟩, ?_⟩, ?_⟩, ?_⟩ <;> decide +kernel
theorem wit_Moves_imem : MoveHead (moveS (moveD 4 0x1000)) 0 (ent (moveD 4 0x1000)) 4 := by
  refine ⟨⟨?_, ⟨[], ?_⟩, ?_⟩, ?_⟩ <;> decide +kernel
def putD : BitVec 128 := moveD 2 0x200000400000
theorem wit_Moves_put : MoveHead (moveS putD) 0 (ent putD) 2 ∧ addrRange (moveAddr (moveS putD) 0 putD) ≠ some 4 ∧ moveRsem putD = 0x3F ∧
    BanksServe (moveS putD) 0 := by
  refine ⟨⟨⟨?_, ⟨[], ?_⟩, ?_⟩, ?_⟩, ?_, ?_, banks_serve_of _ _ ?_ ?_ ?_⟩ <;> decide +kernel
def castD : BitVec 128 := moveD 3 0x200
def castS : State := { moveS castD with mcast := [(0, [(0, 3)])] }
theorem wit_Moves_mcast : MoveHead castS 0 (ent castD) 3 ∧ addrRange (moveAddr castS 0 castD) ≠ some 4 ∧ moveRsem castD = 0x3F ∧
    mcastTargets castS 0 (moveGroup castD) = [1] ∧ BanksServe castS 0 := by
  refine ⟨⟨⟨?_, ⟨[], ?_⟩, ?_⟩, ?_⟩, ?_, ?_, ?_, banks_serve_of _ _ ?_ ?_ ?_⟩ <;> decide +kernel

/-- The same without a member of the group. -/
theorem wit_Moves_mcast_empty : MoveHead (moveS castD) 0 (ent castD) 3 ∧ mcastTargets (moveS castD) 0 (moveGroup castD) = [] := by
  refine ⟨⟨⟨?_, ⟨[], ?_⟩, ?_⟩, ?_⟩, ?_⟩ <;> decide +kernel

/-- A row of the other tile to the last row of site 0, with and without a window. -/
def rowP : Packet := pkt 2 (some 1) 0x2000003FFE00 (.writeRow (List.replicate 512 7) 1)
def rowS (w : Word32) : State := regPut { withBanks meshS with net := [rowP] } (spadReg 0 0x040) w
theorem path_rowP (w : Word32) (h : packetPath (rowS w) rowP = .ok [1, 0] [] []) (h1 : findPacket (rowS w) 0 = some rowP)
    (h2 : packetFirst (rowS w) rowP = true) : PacketArrives (rowS w) 0 rowP := ⟨h1, h2, _, _, _, h⟩
theorem wit_RemoteRow_admitted : PacketArrives (rowS 0x0BFFE000) 0 rowP ∧ targetOf (rowS 0x0BFFE000) rowP.addr = .tile 0 8191 ∧
    windowAllows (rowS 0x0BFFE000) 0 8191 true (decide ((packetSrc (rowS 0x0BFFE000) rowP).region = (regionOfSite (rowS 0x0BFFE000) 0).getD 0xFF ∧ (regionOfSite (rowS 0x0BFFE000) 0).getD 0xFF ≠ 0xFF)) = true ∧
    bankServes (rowS 0x0BFFE000) 0 8191 6 = true ∧ rowP.addr % 512 = 0 ∧ forksRoom (rowS 0x0BFFE000) rowP = true ∧ rowP.mcast = false := by
  refine ⟨path_rowP _ ?_ ?_ ?_, ?_⟩ <;> decide +kernel
theorem wit_RemoteRow_refused : PacketArrives (rowS 0) 0 rowP ∧ targetOf (rowS 0) rowP.addr = .tile 0 8191 ∧
    windowAllows (rowS 0) 0 8191 true true = false ∧ forksRoom (rowS 0) rowP = true := by
  refine ⟨path_rowP _ ?_ ?_ ?_, ?_⟩ <;> decide +kernel

/-- The answer of the last row of a PUT or GET of site 0. -/
def ansP (data : List Byte) : Packet := pkt 3 (some 0) 0x200000400000 (.answer 0 data 0)
def ansM : MoveExec := ⟨0, [0], 0, [], [], [], false, false, false, 1, [], 0, 0⟩
def ansS (op : Nat) (data : List Byte) : State :=
  modTile { withBanks (withQ meshS .move [entP (moveD op 0x200000400000) .running]) with net := [ansP data] } 0 fun t => { t with moves := [ansM] }
theorem wit_Answer_put : PacketArrives (ansS 2 []) 0 (ansP []) ∧ findMove (ansS 2 []) 0 0 = some ansM ∧
    moveEntry (ansS 2 []) 0 0 = some (entP (moveD 2 0x200000400000) .running) ∧ moveVc2 (moveD 2 0x200000400000) = false := by
  refine ⟨⟨?_, ?_, [1, 0], [], [], ?_⟩, ?_⟩ <;> decide +kernel
theorem wit_Answer_get : PacketArrives (ansS 1 (zeros 512)) 0 (ansP (zeros 512)) ∧ findMove (ansS 1 (zeros 512)) 0 0 = some ansM ∧
    moveEntry (ansS 1 (zeros 512)) 0 0 = some (entP (moveD 1 0x200000400000) .running) ∧
    bankServes (ansS 1 (zeros 512)) 0 (moveLocal (moveD 1 0x200000400000) + 0) 5 = true := by
  refine ⟨⟨?_, ?_, [1, 0], [], [], ?_⟩, ?_⟩ <;> decide +kernel

/-- A multicast of site 0 to logical tile 1 whose row nobody took. -/
def mcP : Packet := { pkt 1 (some 0) 0x200000400000 (.writeRow (zeros 512) 0) with mcast := true }
def mcM (ps : List Nat) : MoveExec := ⟨0, ps, 0, [0x200000400000], [], [], false, false, false, 1, [], 0, 0⟩
def mcS (ps : List Nat) (net : List Packet) : State :=
  modTile { withQ meshS .move [entP (moveD 3 0x200) .running] with net := net, time := { TimeRec.reset with now := 0x00186A00 } } 0 fun t => { t with moves := [mcM ps] }
theorem wit_Multicast_abandon : findMove (mcS [0] [mcP]) 0 0 = some (mcM [0]) ∧
    moveEntry (mcS [0] [mcP]) 0 0 = some (entP (moveD 3 0x200) .running) ∧ dOp (moveD 3 0x200) = 3 ∧
    (mcS [0] [mcP]).net = [mcP] ∧ isRow mcP = true ∧
    ((mcM [0]).targets.filter fun a => onBranch (mcS [0] [mcP]) (.tile 1) ((a - 0x200000000000) / 0x400000)) = [0x200000400000] ∧
    branchSince (mcS [0] [mcP]) (mcM [0]) (.tile 1) [0x200000400000] + reg64 (mcS [0] [mcP]) (fieldReg (branchField (mcS [0] [mcP]) (0 : Site) (.tile 1)) 0x008)
      ≤ now (mcS [0] [mcP]) := by decide +kernel
theorem wit_Multicast_complete : findMove (mcS [] []) 0 0 = some (mcM []) ∧ moveEntry (mcS [] []) 0 0 = some (entP (moveD 3 0x200) .running) ∧
    (mcM []).pending = [] ∧ (mcM []).status = 0 := by decide +kernel

end Sys2Proof.Tests

namespace Sys2Proof.Tests

/-! ### Witnesses: sync, control, retirement, barriers, banks and HBM -/

def syncD (op sem count target : Nat) : BitVec 128 := mk ((0, 5) :: (16, op) :: (21, sem) :: (32, count) :: (48, target) :: noSems)
def syncS (d : BitVec 128) : State := modTile (regPut (withQ meshS .sync [ent d]) (syncReg 0 0) 1) 0 fun t => { t with sems := [(47, 5)] }

theorem wit_Sync_signalOwn : SyncHead (syncS (syncD 0 47 1 0xFFF)) 0 (ent (syncD 0 47 1 0xFFF)) 5 0 ∧
    NoWaiter (syncS (syncD 0 47 1 0xFFF)) 0 47 ∧ syncTarget (syncD 0 47 1 0xFFF) = 0xFFF := by
  refine ⟨⟨⟨?_, ⟨[], ?_⟩, ?_⟩, ?_⟩, ?_⟩ <;> decide +kernel
theorem wit_Sync_signalOther : SyncHead (syncS (syncD 0 47 1 1)) 0 (ent (syncD 0 47 1 1)) 5 0 ∧ syncTarget (syncD 0 47 1 1) ≠ 0xFFF ∧
    ltOfSite (syncS (syncD 0 47 1 1)) 0 ≠ some (syncTarget (syncD 0 47 1 1)) ∧ regionOfSite (syncS (syncD 0 47 1 1)) 0 = some 0 ∧
    regionHasLc (syncS (syncD 0 47 1 1)) 0 (syncTarget (syncD 0 47 1 1) / 15) = true := by
  refine ⟨⟨⟨?_, ⟨[], ?_⟩, ?_⟩, ?_⟩, ?_⟩ <;> decide +kernel
theorem wit_Sync_waitTaken : SyncHead (syncS (syncD 1 47 5 0)) 0 (ent (syncD 1 47 5 0)) 5 1 ∧ NoWaiter (syncS (syncD 1 47 5 0)) 0 47 ∧
    syncCount (syncD 1 47 5 0) ≤ semValue (tileOf (syncS (syncD 1 47 5 0)) 0) 47 := by
  refine ⟨⟨⟨?_, ⟨[], ?_⟩, ?_⟩, ?_⟩, ?_⟩ <;> decide +kernel
theorem wit_Sync_waitHeld : SyncHead (syncS (syncD 1 47 6 0)) 0 (ent (syncD 1 47 6 0)) 5 1 ∧
    semValue (tileOf (syncS (syncD 1 47 6 0)) 0) 47 < syncCount (syncD 1 47 6 0) := by
  refine ⟨⟨⟨?_, ⟨[], ?_⟩, ?_⟩, ?_⟩, ?_⟩ <;> decide +kernel
theorem wit_Sync_watch : SyncHead (syncS (syncD 2 47 5 0)) 0 (ent (syncD 2 47 5 0)) 5 2 ∧ NoWaiter (syncS (syncD 2 47 5 0)) 0 47 := by
  refine ⟨⟨⟨?_, ⟨[], ?_⟩, ?_⟩, ?_⟩, ?_⟩ <;> decide +kernel
theorem wit_Sync_arrive : SyncHead (syncS (syncD 3 0 63 0)) 0 (ent (syncD 3 0 63 0)) 5 3 ∧ mget 0 (tileOf (syncS (syncD 3 0 63 0)) 0).bgMissed 63 = 0 := by
  refine ⟨⟨⟨?_, ⟨[], ?_⟩, ?_⟩, ?_⟩, ?_⟩ <;> decide +kernel
theorem wit_Sync_fence : SyncHead (syncS (syncD 4 0 0 0)) 0 (ent (syncD 4 0 0 0)) 5 4 := by
  refine ⟨⟨?_, ⟨[], ?_⟩, ?_⟩, ?_⟩ <;> decide +kernel
theorem wit_Sync_until : SyncHead (syncS (syncD 5 0 0 0)) 0 (ent (syncD 5 0 0 0)) 5 5 := by
  refine ⟨⟨?_, ⟨[], ?_⟩, ?_⟩, ?_⟩ <;> decide +kernel
theorem wit_Sync_untilExpire : (tileOf (withQ meshS .sync [entP (syncD 5 0 0 0) .running]) 0).syncQ.entries = [entP (syncD 5 0 0 0) .running] ∧
    dKind (syncD 5 0 0 0) = 5 ∧ dOp (syncD 5 0 0 0) = 5 ∧ syncTime (syncD 5 0 0 0) ≤ localTime meshS 0 := by decide +kernel

def ctrlD (op w1 : Nat) : BitVec 128 := mk ((0, 6) :: (16, op) :: (32, w1) :: noSems)
def ctrlS (d : BitVec 128) : State := withBanks (syncS d)
theorem wit_Ctrl_nop : SyncHead (ctrlS (ctrlD 0 0)) 0 (ent (ctrlD 0 0)) 6 0 := by
  refine ⟨⟨?_, ⟨[], ?_⟩, ?_⟩, ?_⟩ <;> decide +kernel
theorem wit_Ctrl_keyload : SyncHead (ctrlS (ctrlD 1 3)) 0 (ent (ctrlD 1 3)) 6 1 ∧ bankServes (ctrlS (ctrlD 1 3)) 0 (ctrlKrow (ctrlD 1 3)) 5 = true ∧
    NoPoison (ctrlS (ctrlD 1 3)) := by
  refine ⟨⟨⟨?_, ⟨[], ?_⟩, ?_⟩, ?_⟩, ?_, no_poison_of _ ?_ ?_⟩ <;> decide +kernel
def ctrlPoisoned : State := { ctrlS (ctrlD 1 3) with spadTag := [(0, 7)] }
theorem wit_Ctrl_keyload_poisoned : SyncHead ctrlPoisoned 0 (ent (ctrlD 1 3)) 6 1 ∧
    tagAt ctrlPoisoned (rowKey ctrlPoisoned (0 : Site) (ctrlKrow (ctrlD 1 3))) 0 = true := by
  refine ⟨⟨⟨?_, ⟨[], ?_⟩, ?_⟩, ?_⟩, ?_⟩ <;> decide +kernel
theorem wit_Ctrl_setbase : SyncHead (ctrlS (ctrlD 2 15)) 0 (ent (ctrlD 2 15)) 6 2 := by
  refine ⟨⟨?_, ⟨[], ?_⟩, ?_⟩, ?_⟩ <;> decide +kernel
theorem wit_Ctrl_prewarn : SyncHead (ctrlS (ctrlD 3 0)) 0 (ent (ctrlD 3 0)) 6 3 := by
  refine ⟨⟨?_, ⟨[], ?_⟩, ?_⟩, ?_⟩ <;> decide +kernel

/-- A done command without a signal, and one that signals S47. -/
def doneS (d : BitVec 128) (st : BitVec 8) : State := syncS d |> fun s => withQ s .vector [entP d (.done st)]
theorem wit_Retirement_plain : clusterOn (doneS vecD 8) (siteCluster 0) = true ∧
    (queueOf (tileOf (doneS vecD 8) 0) .vector).entries.find? (fun x => decide (x.seq = 0)) = some (entP vecD (.done 8)) ∧ 48 ≤ dSigSem vecD := by
  decide +kernel
def sigD : BitVec 128 := mk [(0, 2), (4, 0x3F), (10, 47)]
theorem wit_Retirement_signals : (queueOf (tileOf (doneS sigD 0) 0) .vector).entries.find? (fun x => decide (x.seq = 0)) = some (entP sigD (.done 0)) ∧
    syncEnabled (doneS sigD 0) 0 = true ∧ NoWaiter (doneS sigD 0) 0 (dSigSem sigD) := by decide +kernel

/-- A signal of site 1 to site 0 on VC2. -/
def sigP : Packet := pkt 2 (some 1) 0x200000000000 (.signal 47 1 false 2)
def sigS (en : Word32) : State := regPut { meshS with net := [sigP] } (syncReg 0 0) en
theorem wit_RemoteSignal_added : PacketArrives (sigS 1) 0 sigP ∧ targetOf (sigS 1) sigP.addr = .tile 0 0 ∧ syncEnabled (sigS 1) 0 = true ∧ NoWaiter (sigS 1) 0 47 := by
  refine ⟨⟨?_, ?_, [1, 0], [], [], ?_⟩, ?_⟩ <;> decide +kernel
theorem wit_RemoteSignal_refused : PacketArrives (sigS 0) 0 sigP ∧ targetOf (sigS 0) sigP.addr = .tile 0 0 ∧ syncEnabled (sigS 0) 0 = false := by
  refine ⟨⟨?_, ?_, [1, 0], [], [], ?_⟩, ?_⟩ <;> decide +kernel

/-- Barrier group 63 of region 0, expecting `e` arrivals, with an arrival of site 5 (an attach site, so its path is short). -/
def arrP : Packet := pkt 0 (some 5) (barrierReg (32 * 63)) (.arrive 63 0)
def bgS (mode e : Nat) : State :=
  regPut (regPut { meshS with net := [arrP] } (netReg 5 0) 1) (bgReg 63 0) (BitVec.ofNat 32 (1 + mode * 2 + e * 65536))
theorem wit_Barrier_counts : findPacket (bgS 0 2) 0 = some arrP ∧ arrP.kind = .arrive (63 : Fin 64).val (bgGenOf (bgS 0 2) 63) ∧
    packetPath (bgS 0 2) arrP = .ok [5] [(0, true)] [0] ∧ bgEn (bgS 0 2) 63 = true ∧ regionOfSite (bgS 0 2) 5 = some (bgRegion (bgS 0 2) 63) ∧
    siteSurplus (bgS 0 2) 5 = false ∧ rfld (regGet (bgS 0 2) (bgReg 63 4)) 0 12 + 1 < bgExpect (bgS 0 2) 63 := by decide +kernel
theorem wit_Barrier_arms : findPacket (bgS 0 1) 0 = some arrP ∧ rfld (regGet (bgS 0 1) (bgReg 63 4)) 0 12 + 1 = bgExpect (bgS 0 1) 63 ∧
    bgMode (bgS 0 1) 63 = 0 ∧ (groupOf (bgS 0 1) 63).armed = none ∧ (groupOf (bgS 0 1) 63).armDue = none := by decide +kernel

def deadS : State := setGroup (bgS 1 1) 63 { Group.reset with deadlineSet := true }
theorem wit_BarrierDeadline : bgEn deadS 63 = true ∧ bgMode deadS 63 = 1 ∧ (groupOf deadS 63).deadlineSet = true ∧ (groupOf deadS 63).armDue = none ∧
    (groupOf deadS 63).armed = none ∧ bgDeadline deadS 63 ≤ now deadS + 6400 := by decide +kernel
theorem wit_BarrierDeadline_period : (groupOf (regPut deadS (bgReg 63 0x10) 1) 63).deadlineSet = true ∧ reg64 (regPut deadS (bgReg 63 0x10) 1) (bgReg 63 0x10) ≠ 0 ∧
    bgDeadline (regPut deadS (bgReg 63 0x10) 1) 63 + max (reg64 (regPut deadS (bgReg 63 0x10) 1) (bgReg 63 0x10)) 6400 < 2 ^ 64 ∧
    reg64 deadS (bgReg 63 0x10) = 0 := by decide +kernel
theorem wit_BarrierDeadline_write : (0x010 : Master).toNat < 2 ∨ (0x010 ≤ (0x010 : Master).toNat ∧ (0x01B : Master).toNat < 0x01C) := by decide +kernel
theorem wit_BarrierDeadline_edge : now deadS + 6400 ≤ (6400 : BitVec 64).toNat ∧ (6399 : BitVec 64).toNat < now deadS + 6400 ∧
    now deadS + 6400 + 2048 < 2 ^ 64 := by decide +kernel
def armedS : State := setGroup { bgS 0 1 with time := { TimeRec.reset with now := 6016 } } 63
  { Group.reset with armed := some (0, 2048), noticesDue := [.tile 5, .regulator 0] }
theorem wit_BarrierSlot31 : (groupOf armedS 63).armed = some (0, 2048) ∧ 2048 + 3968 ≤ now armedS ∧ (groupOf armedS 63).deferredClear = false ∧
    (groupOf armedS 63).deferredCfg = none ∧ (groupOf armedS 63).armDue = none := by decide +kernel

theorem wit_ReleaseNotices : (groupOf armedS 63).armed = some (0, 2048) ∧ NoticeDst.tile 5 ∈ (groupOf armedS 63).noticesDue ∧
    noticePath armedS (.group 63) (.tile 5) = .ok [5] [(0, false)] [0] ∧ NoticeDst.regulator 0 ∈ (groupOf armedS 63).noticesDue ∧
    noticePath armedS (.group 63) (.regulator 0) = .ok [] [(0, false)] [0] := by decide +kernel
def slotS (es : List QEntry) : State := modTile (withQ on0 .sync es) 0 fun t =>
  { t with notices := [⟨.group 63, 0, 0⟩], stepPending := some ⟨.step 0, 0, 0⟩ }
theorem wit_ReleaseSlot : (tileOf (slotS []) 0).notices.find? (fun x => decide (x.src = .group 63)) = some ⟨.group 63, 0, 0⟩ ∧
    0 + 128 * slotOf 0 ≤ localTime (slotS []) 0 ∧ (tileOf (slotS []) 0).syncQ.entries = [] := by decide +kernel
theorem wit_ReleaseSlot_pending : (tileOf (slotS [entP (syncD 3 0 63 0) .running]) 0).syncQ.entries = entP (syncD 3 0 63 0) .running :: [] ∧
    dKind (syncD 3 0 63 0) = 5 ∧ dOp (syncD 3 0 63 0) = 3 ∧ syncCount (syncD 3 0 63 0) % 64 = (63 : Fin 64).val := by decide +kernel
theorem wit_ReleaseSlot_step : (tileOf (slotS []) 0).stepPending = some ⟨.step 0, 0, 0⟩ ∧ clusterOn (slotS []) (siteCluster 0) = true ∧
    regionOfSite (slotS []) 0 = none ∧ (tileOf (slotS []) 0).rtPending = [] ∧ (coreOf (tileOf (slotS []) 0) 0).status = .halted ∧
    (coreOf (tileOf (slotS []) 0) 0).trapDue = none ∧ GoodTarget (coreOf (tileOf (slotS []) 0) 0).entry.toNat := by decide +kernel

def clearS : State := setGroup (withQ (bgS 0 2) .sync [entP (syncD 3 0 63 0) .running]) 63 { Group.reset with pendingArrive := [(0, 0)] }
theorem wit_BarrierClear : bgEn clearS 63 = true ∧ (groupOf clearS 63).deferredClear = false ∧ regBit clearS (bgReg 63 4) 20 = false ∧
    rfld (bgCfg clearS 63) 1 2 ≠ 3 ∧ (groupOf clearS 63).pendingArrive = [(0, 0)] ∧
    (tileOf clearS 0).syncQ.entries = entP (syncD 3 0 63 0) .running :: [] := by decide +kernel

theorem wit_BankPower : clusterOn on0 (siteCluster 0) = true ∧ siteHeld on0 0 = false ∧
    (0xFFFFDDDD : BitVec 32).toNat / 2 ^ 16 % 4 = 3 ∧ (0xFFFFDDDD : BitVec 32).toNat % 4 ≠ 2 ∧ (0x0003FFFF : BitVec 32).toNat / 2 ^ 18 % 4 = 0 := by
  decide +kernel
def wakeS (b : BankState) : State :=
  modTile { regPut on0 (spadReg 0 8) 0xFFFF with time := { TimeRec.reset with now := 16384000 } } 0 fun t => { t with banks := [(7, b)] }
theorem wit_BankWake : bankState (wakeS (.wake 0)) 0 7 = .wake 0 ∧ 0 + 3200 ≤ now (wakeS (.wake 0)) ∧ bankWanted (wakeS (.wake 0)) 0 7 = 3 ∧
    siteHeld (wakeS (.wake 0)) 0 = false := by decide +kernel
theorem some_MHz (s : State) (h : pointMHz (clusterRec s 0).code ≠ 0) : 1 ≤ clusterMHz s 0 := by
  have : 1 ≤ gradeTopMHz := by unfold gradeTopMHz; split <;> decide
  unfold clusterMHz; omega
theorem wit_BankFill : bankState (wakeS (.fill 0)) 0 7 = .fill 0 ∧ bankWanted (wakeS (.fill 0)) 0 7 = 3 ∧ siteHeld (wakeS (.fill 0)) 0 = false ∧
    1024 ≤ (now (wakeS (.fill 0)) - 0) * clusterMHz (wakeS (.fill 0)) (siteCluster 0) / 16000 := by
  refine ⟨by decide +kernel, by decide +kernel, by decide +kernel, ?_⟩
  have h := some_MHz (wakeS (.fill 0)) (by decide +kernel)
  have e : now (wakeS (.fill 0)) = 16384000 := by decide +kernel
  rw [e, Nat.le_div_iff_mul_le (by decide)]
  show 1024 * 16000 ≤ (16384000 - 0) * clusterMHz (wakeS (.fill 0)) 0
  omega

def repairS : State := modTile (withBanks on0) 0 fun t => { t with writebacks := [(8191, 0)], repairs := [8191] }
theorem wit_Writeback : (tileOf repairS 0).writebacks.find? (fun w => decide (bankOf w.1.toNat = (7 : Fin 8).val)) = some (8191, 0) ∧
    bankState repairS 0 7 = .on ∧ siteHeld repairS 0 = false := by decide +kernel
def repairOff : State := regPut repairS (spadReg 0 0) 0
theorem wit_RowRepair : clusterOn repairOff (siteCluster 0) = true ∧ siteHeld repairOff 0 = false ∧ regBit repairOff (spadReg 0 0) 0 = false ∧
    8191 ∈ (tileOf repairOff 0).repairs ∧ freeRemap repairOff 0 (bankOf 8191) = some 0 := by decide +kernel
theorem wit_LinkErrors : clusterOn on0 (siteCluster 0) = true ∧ meshNeighbour (0 : Site) (1 : Fin 5) = some 1 ∧ regBit on0 (netReg 0 4) 1 = false ∧
    (tileOf on0 0).rtPending = [] := by decide +kernel

/-- A row of site 5 to HBM address 0; with 1 GiB of each stack in the spread pool the address is backed. -/
def hbmP (k : PacketKind) (a : Nat) : Packet := pkt 2 (some 5) a k
def hbmDead (p : Packet) : State :=
  (List.range 24).foldl (fun s h => setStack s h { StackRec.reset with dead := true }) (dputNum { regPut meshS (netReg 5 0) 1 with net := [p] } 0x4000 0x11 1 0)
def hbmS (p : Packet) : State := dputNum { regPut meshS (netReg 5 0) 1 with net := [p] } 0x4000 0x11 1 1
theorem wit_Hbm_write : PacketArrives (hbmS (hbmP (.writeRow (zeros 512) 0) 0)) 0 (hbmP (.writeRow (zeros 512) 0) 0) ∧
    targetOf (hbmS (hbmP (.writeRow (zeros 512) 0) 0)) 0 = .hbm ∧ hbmPlace (hbmS (hbmP (.writeRow (zeros 512) 0) 0)) 0 = some (0, 0) ∧
    (stackRec (hbmS (hbmP (.writeRow (zeros 512) 0) 0)) 0).st ≠ .failed ∧ (stackRec (hbmS (hbmP (.writeRow (zeros 512) 0) 0)) 0).retraining = false := by
  refine ⟨⟨?_, ?_, [5], [(0, true)], [0], ?_⟩, ?_⟩ <;> decide +kernel
theorem wit_Hbm_read : PacketArrives (hbmS (hbmP .readRow 0)) 0 (hbmP .readRow 0) ∧ hbmZeroing (hbmS (hbmP .readRow 0)) 0 512 = false := by
  refine ⟨⟨?_, ?_, [5], [(0, true)], [0], ?_⟩, ?_⟩ <;> decide +kernel
theorem wit_Hbm_unbacked : PacketArrives (hbmDead (hbmP .readRow 0)) 0 (hbmP .readRow 0) ∧
    targetOf (hbmDead (hbmP .readRow 0)) 0 = .hbm ∧ hbmPlace (hbmDead (hbmP .readRow 0)) 0 = none := by
  refine ⟨⟨?_, ?_, [5], [(0, true)], [0], ?_⟩, ?_⟩ <;> decide +kernel

def patrolM : Maint :=
  { id := 1, activity := 1, scope := 23, test := 0, urgency := 0, twinCover := false, requester := 0, time := 0, running := true, started := 0, waits := false }
def stackS (r : StackRec) : State :=
  setStack { dputNum State.reset 0x4000 0x14 2 1 with time := { TimeRec.reset with now := 62400 }, maint := [patrolM] } 23 r
def upS : State := stackS { StackRec.reset with st := .up }
theorem wit_Hbm_patrol : (stackRec upS 23).st = .up ∧ (stackRec upS 23).retraining = false ∧ dnum upS 0x4000 0x14 ≠ 0 ∧ (patrolRunning upS 23).isSome = true ∧
    patrolDue upS 23 (dnum upS 0x4017 0x0D) ≤ now upS ∧ hbmTagAt upS (hbmKey 23 0) 0 = false := by decide +kernel
theorem wit_Hbm_refresh : (stackRec upS 23).st = .up ∧ mget 0 (stackRec upS 23).lastRefresh (8191 : Fin 8192).val + (if (85 : Int) ≤ 85 then 62400 else 31200) ≤ now upS := by
  decide +kernel
theorem wit_Hbm_retrain : (stackRec (stackS { StackRec.reset with st := .up, retraining := true }) 23).retraining = true := by decide +kernel
def zeroS : State := { upS with hbmZero := [⟨63, (0, 4096), [23]⟩] }
theorem wit_Hbm_zeroing : (∃ z ∈ zeroS.hbmZero, zeroPart 63 23 z = true) ∧ (stackRec zeroS 23).st = .up ∧ (stackRec zeroS 23).retraining = false := by decide +kernel

end Sys2Proof.Tests

namespace Sys2Proof.Tests

/-! ### Witnesses: requests, writes and regions -/

/-- An open session of a role, and the state that has it as session 1 on host port 0. -/
def sess (role : Nat) : Session :=
  { role := role, token := 1, port := .hp0, ip := 1, udp := 4096, altIp := 0, altUdp := 0, odpPort := 4096, pair := false, low := 0, received := 0,
    answered := 0, held := [], started := [], cache := [], keepalive := 1000, lastFrame := 0, rings := [], consumer := 0, producer := 0,
    transfers := [], snapshot := none, mask := 0, watches := [], events := [], eventSeq := 0, sent := 0, lost := 0, bucket := 4096,
    bucketAt := 0, lastLimited := none, lastLimitLog := none, limitedCount := 0 }
def withSession (s : State) (role : Nat) : State :=
  { setPort (dputNum s 0x1100 0x02 1 1) 0 { Port.reset with up := true } with
    sessions := [(1, sess role)], qps := [(17, ⟨1, false, 0⟩)], boot := { s.boot with firmware := true, inReset := false } }
def fr1 : Frame := { port := .hp0, toPair := false, mac := 0, ip := 1, udp := 4096, dport := 4096, session := 1, seq := 1, ack := 0 }
def odpS (role : Nat) : State := withSession meshS role

theorem ready_of (s : State) (x : Session) (h : (portUp s 0 = true ∧ udpOpen s 4096 = true) ∧ sessionOf s 1 = some x ∧ s.deferred = []) (hx : x = sess 0 ∨ x = sess 1 ∨ x = sess 2) :
    FrameReady fr1 s x := by
  refine ⟨h.1, rfl, by decide, h.2.1, ?_⟩
  rcases hx with rfl | rfl | rfl <;> refine ⟨?_, ?_, ?_, ?_, ?_, ?_, h.2.2, ?_⟩ <;> decide +kernel

theorem wit_Requests : FrameReady fr1 (odpS 1) (sess 1) ∧ (sess 1).role ≠ 2 := ⟨ready_of _ _ (by decide +kernel) (by decide), by decide⟩
theorem wit_Requests_monitor : FrameReady fr1 (odpS 2) (sess 2) ∧ (sess 2).role = 2 := ⟨ready_of _ _ (by decide +kernel) (by decide), by decide⟩
/-- The last number of the window of 256 and the first beyond it. -/
theorem wit_Requests_window : ((255 : BitVec 32) + 1 - 0).toNat ≤ 256 ∧ ¬ ((256 : BitVec 32) + 1 - 0).toNat ≤ 256 := by decide

def odpA : State := arrived fr1 (odpS 1) (sess 1)
def odpC : Caller := frameCaller fr1 (sess 1)
theorem wit_Writes_refused : writeOf (.write ⟨fr1, []⟩ 0x1000 0 [0]) = some (fr1, 0x1000, 0, [0], []) ∧ (writeChecked odpA odpC 0x1000 0 [0] []).2 ≠ 0 := by
  decide +kernel
theorem wit_Writes_plain : (writeChecked odpA odpC 0x5000 0x06 [1] []).2 = 0 ∧ journaledObj 0x5000 0x06 = false := by decide +kernel
def jw : Nat × Nat × List Byte := (0x3100, 0x02, [5])
theorem wit_Writes_journaled : (writeChecked odpA odpC jw.1 jw.2.1 jw.2.2 []).2 = 0 ∧ journaledObj jw.1 jw.2.1 = true ∧
    twinSolo (writeRecord (writeChecked odpA odpC jw.1 jw.2.1 jw.2.2 []).1 jw.1 jw.2.1 jw.2.2) = true := by decide +kernel
def pairS : State := { odpS 1 with twin := { Twin.reset with st := .paired, mode := 1 } }
def pairA : State := arrived fr1 pairS (sess 1)
theorem wit_Writes_paired : FrameReady fr1 pairS (sess 1) ∧ (writeChecked pairA odpC jw.1 jw.2.1 jw.2.2 []).2 = 0 ∧
    twinSolo (writeRecord (writeChecked pairA odpC jw.1 jw.2.1 jw.2.2 []).1 jw.1 jw.2.1 jw.2.2) = false :=
  ⟨ready_of _ _ (by decide +kernel) (by decide), by decide +kernel, by decide +kernel⟩
def gw : ObjWrite := ⟨0x5000, 0x06, [1]⟩
theorem wit_Writes_group : requestLength (.writeGroup [gw] []) ≤ 8256 ∧ groupFails odpC [] [gw] [] 0 odpA = none ∧
    ([gw].all fun w => !journaledObj w.idx.toNat w.sub.toNat) = true ∧ (∀ w ∈ [gw], w.idx ≠ 0) := by decide +kernel
theorem wit_Writes_groupFails : groupFails odpC [] [gw, ⟨0x1000, 0, [0]⟩] [] 0 odpA ≠ none := by decide +kernel
def segOne (i : BitVec 16) (b : BitVec 8) (v : List Byte) : Segment := ⟨i, b, true, true, 0, v.length, true, v⟩
def segSt (g : Segment) : Nat := firstOf [indexCheck g.idx.toNat g.sub.toNat, roleCheck odpC g.idx.toNat g.sub.toNat true, accessCheck odpA g.idx.toNat g.sub.toNat g.data]
theorem wit_Writes_segmentRefused : segSt (segOne 0x1000 0 [0]) ≠ 0 := by decide +kernel
theorem wit_Writes_segment : segSt (segOne 0x5000 0x06 [1]) = 0 ∧ segmentFits (segOne 0x5000 0x06 [1]) = true ∧ (sess 1).transfers = [] ∧
    (writeCheck odpA odpC 0x5000 0x06 [1] []).2 = 0 := by decide +kernel
theorem wit_Writes_segmentBad : segSt (segOne 0x5000 0x06 [0]) = 0 ∧ (writeCheck odpA odpC 0x5000 0x06 [0, 0] []).2 ≠ 0 := by decide +kernel
def segFirst : Segment := ⟨0x5810, 0, true, false, 0, 16384, true, List.replicate 8192 0⟩
theorem wit_Writes_segmentFirst : segSt segFirst = 0 ∧ segmentFits segFirst = true := by decide +kernel

/-- Region 1's set is logical cluster 0, free in this state. -/
def freeS : State := dput (modRegion meshS 0 fun _ => Region.reset) 0x3101 0x03 (1 :: zeros 22)
theorem wit_Regions_configure : commandCheck freeS (1 : RegionId) 1 = 0 ∧ (regionOf freeS 1).state = .free := by decide +kernel
theorem wit_Regions_holed : (regionOf (modRegion meshS 63 fun g => { g with state := .holed }) 63).state = .holed := by decide +kernel
theorem wit_Regions_killGroup : (regionOf (bgS 0 1) 0).state ≠ .holed ∧ bgRegion (bgS 0 1) (63 : Fin 64) = 0 ∧ bgEn (bgS 0 1) 63 = true ∧
    bgEn (clearGroups (bgS 0 1) 0) 63 = false := by decide +kernel
theorem wit_Regions_kill : (regionOf meshS 0).state ≠ .holed ∧ commandCheck meshS (0 : RegionId) 5 = 0 := by decide +kernel

/-- Hood 5's image: grain and residency fields only. -/
def image0 (bytes : List (Nat × Byte)) : List Byte := bytes.foldl (fun m b => splice m b.1 [b.2]) (zeros 512)
def withHood (s : State) (m : List Byte) : State := setHood s 5 { HoodRec.none with state := 2, image := m }
def stageRegion (s : State) : State :=
  modRegion s 0 fun g => { g with state := .staging, slotA := .staging, hoodA := 5, stageMask := 1, stagingLeft := 1 }
theorem wit_Staging_ends : (regionOf (stageRegion (withHood meshS (image0 [(7, 3), (11, 1), (12, 1)]))) 0).state = .staging ∧
    (regionOf (stageRegion meshS) 0).stageMask = BitVec.ofNat 2 (2 ^ (0 : Fin 2).val) ∧ (regionOf (stageRegion meshS) 0).adopted = false ∧
    slotStateOf (regionOf (stageRegion meshS) 0) 0 = .staging ∧ slotStateOf (regionOf (stageRegion meshS) 0) 1 = .empty ∧
    slotVerdict (stageRegion (withHood meshS (image0 [(7, 3), (11, 1), (12, 1)]))) 0 0 = 0 := by decide +kernel
theorem wit_Staging_fails : slotVerdict (stageRegion meshS) 0 0 ≠ 0 := by decide +kernel
def drainS : State := modRegion meshS 0 fun g => { g with state := .draining }
theorem wit_Drain : (regionOf drainS 0).state = .draining ∧ regionOrders drainS 0 = [] ∧ (regionOf drainS 0).batch = none := by decide +kernel
def scrubS : State := modRegion meshS 0 fun g => { g with state := .scrub, fmBase := 124 }
theorem wit_Scrub : (regionOf scrubS 0).state = .scrub ∧ (regionOf scrubS 0).fmBase ≤ 124 ∧ (∀ lc ∈ regionLcs scrubS 0, (clusterOfLc scrubS lc).isSome = true) := by
  decide +kernel
def scrubHoled : State := modCluster scrubS 0 fun c => { c with holed := true }
theorem wit_Scrub_holed : (regionOf scrubHoled 0).state = .scrub ∧ (∃ lc ∈ regionLcs scrubHoled 0, clusterOfLc scrubHoled lc = none) := by decide +kernel

def loadV (id : Nat) : List Byte := splice (zeros 28) 0 (leBytes 2 id ++ [0, 0] ++ zeros 4 ++ leBytes 8 4096)
theorem wit_Hoods_taken : (hoodOf (withHood meshS []) (leAt (loadV 5) 0 2)).state ≠ 0 := by decide +kernel
def hoodsFull : State := { meshS with hoods := (List.range 128).map fun i => (i + 100, { HoodRec.none with state := 2 }) }
theorem wit_Hoods_full : (hoodOf hoodsFull (leAt (loadV 5) 0 2)).state = 0 ∧ 128 ≤ hoodsFull.hoods.length := by decide +kernel
theorem wit_Hoods_load : (hoodOf (odpS 1) (leAt (loadV 5) 0 2)).state = 0 ∧ (odpS 1).hoods.length < 128 ∧
    (hbmFree (odpS 1) (decide (leAt (loadV 5) 2 1 = 1)) (leAt (loadV 5) 3 1) (leAt (loadV 5) 8 8)).isSome = true ∧
    dataQp (odpS 1) odpC.session = some 17 ∧ qpOk (odpS 1) 17 = true := by decide +kernel
def loadingS : State := setAdapter (setHood meshS 5 { HoodRec.none with state := 1, len := 4096 }) 5 { AdapterRec.none with state := 1, len := 4096 }
theorem wit_Hoods_fetched : (hoodOf loadingS 5).state = 1 ∧ rangeHolds loadingS ((hoodOf loadingS 5).base, (hoodOf loadingS 5).len) = false ∧ (hoodOf loadingS 5).image = [] := by decide +kernel
theorem wit_Adapters_fetched : (adapterOf loadingS 5).state = 1 ∧ rangeHolds loadingS ((adapterOf loadingS 5).base, (adapterOf loadingS 5).len) = false := by
  decide +kernel
theorem wit_Hoods_unload : hoodUnloadCheck (withHood meshS []) 5 = 0 := by decide +kernel
theorem wit_Adapters_unload : adapterUnloadCheck (setAdapter meshS 5 { AdapterRec.none with state := 2 }) 5 = 0 := by decide +kernel

end Sys2Proof.Tests

namespace Sys2Proof.Tests

/-! ### Witnesses: orders, steps, the journal and replay -/

/-- An EMBED order of one token on hood 5 and region 0, with room for its result. -/
def orderRec : List Byte :=
  leBytes 4 9 ++ [4, 0, 0, 0] ++ leBytes 2 5 ++ leBytes 2 0xFFFF ++ leBytes 4 1 ++ zeros 32 ++ leBytes 16 (2 ^ 128 - 1) ++ zeros 16 ++ zeros 8 ++ leBytes 4 1 ++ leBytes 4 4 ++ zeros 32
def order0 : Order :=
  { tag := 9, record := orderRec, session := 1, region := 0, state := .pending, heldSlot := none, context := [], landed := false, fieldsLeft := [],
    processed := 0, generated := [], resultBytes := [], pages := [], slots := [], committed := 0, resumes := 0, cancelPending := false, stepsDone := 0,
    latestStep := 0, accepted := 0, mirrored := 0, replayed := false, admitNo := 0, admitStep := 0, shadowOnly := false, prefixTokens := [], prefixPages := [] }
/-- Region 0 serves hood 5; ring 0 of session 1 lies on its queue pair. -/
def serveS : State :=
  let s := withHood (odpS 1) (image0 [(9, 15), (24, 16), (32, 1)])
  let s := modRegion s 0 fun g => { g with state := .serving, slotA := .active, hoodA := 5 }
  setRing s 0 { Ring.none with desc := ⟨0x1000, 1, 16, 0, 17, false⟩ }
def serveA : State := arrived fr1 serveS (sess 1)

theorem wit_Submit_refused : FrameReady fr1 serveS (sess 1) ∧ resentOrder serveA (zeros 128) = none ∧ submitCheck serveA 1 (zeros 128) ≠ 0 :=
  ⟨ready_of _ _ (by decide +kernel) (by decide), by decide +kernel, by decide +kernel⟩
theorem wit_Submit_accepted : orderRec.length = 128 ∧ resentOrder serveA orderRec = none ∧ submitCheck serveA 1 orderRec = 0 ∧ recKind orderRec ≠ 6 ∧
    twinSolo serveS = true ∧ chooseRegion serveA orderRec = some 0 ∧ recContext orderRec + recCont orderRec ≠ 0 ∧ dataQp serveS 1 = some 17 ∧
    qpOk serveS 17 = true := by decide +kernel
def ordered (o : Order) : State := { serveS with orders := [o] }
theorem wit_Cancel_unknown : jRoom serveA 5 false = true ∧ findOrder serveS 9 = none := by decide +kernel
theorem wit_Cancel_pending : FrameReady fr1 (ordered order0) (sess 1) ∧ jRoom (arrived fr1 (ordered order0) (sess 1)) 5 false = true ∧
    findOrder (ordered order0) 9 = some order0 ∧ order0.state = .pending :=
  ⟨ready_of _ _ (by decide +kernel) (by decide), by decide +kernel⟩
def running0 : Order := { order0 with state := .running, landed := true, context := [7] }
theorem wit_Cancel_running : FrameReady fr1 (ordered running0) (sess 1) ∧ findOrder (ordered running0) 9 = some running0 ∧ running0.state = .running :=
  ⟨ready_of _ _ (by decide +kernel) (by decide), by decide +kernel⟩
theorem wit_Context : findOrder (ordered order0) 9 = some order0 ∧ order0.state = .pending ∧ order0.landed = false ∧
    [(7 : BitVec 32)].length = recContext order0.record + recCont order0.record ∧ landingHeld (ordered order0) order0 1 = false := by decide +kernel
theorem wit_AdapterCopied : findOrder (ordered { order0 with fieldsLeft := [11] }) 9 = some { order0 with fieldsLeft := [11] } ∧
    (11 : Field).val ∈ ({ order0 with fieldsLeft := [11] } : Order).fieldsLeft ∧
    rangeHolds serveS ((adapterOf serveS 0xFFFF).base, (adapterOf serveS 0xFFFF).len) = false := by decide +kernel

def eligible0 : Order := { running0 with state := .eligible }
def later (s : State) (t : Nat) : State := { s with time := { s.time with now := t, ticks := t / 8 } }
theorem wit_BatchClose : closeInstant (later (ordered eligible0) 16000000) (0 : RegionId) = some (16000000 - 320000) ∧
    steppable (ordered eligible0) (0 : RegionId) = true ∧
    (regionOf (ordered eligible0) 0).batch = none ∧ (regionOf (ordered eligible0) 0).recovering = [] ∧
    (∀ o ∈ regionOrders (ordered eligible0) 0, o.cancelPending = false) ∧ nextSlot (later (ordered eligible0) 16000000) 0 = some 0 ∧
    batchMembers (later (ordered eligible0) 16000000) (0 : RegionId) 0 ≠ [] := by decide +kernel
def slower0 : State := dput (later (ordered eligible0) 16000000) 0x3100 0x08 (leBytes 8 32000000)
theorem test_period_waits_for_close : stepPeriod slower0 0 = 16000000 ∧ stepPeriod (latchParams slower0 0) 0 = 32000000 ∧
    closeInstant slower0 0 = some (16000000 - 320000) := by decide +kernel
def batch0 : Batch := { slot := 0, members := [(9, 1)], closedAt := 0, releaseAt := none, recovery := false, switching := false }
def withBatch (b : Batch) : State := later (modRegion (ordered running0) 0 fun g => { g with batch := some b }) 16000000000
theorem wit_StepRelease : (regionOf (withBatch batch0) 0).batch = some batch0 ∧ batch0.releaseAt = none ∧ steppable (withBatch batch0) (0 : RegionId) = true ∧
    (regionOf (withBatch batch0) 0).pounceHold = false ∧ jRoom (withBatch batch0) 512 true = true ∧ admitsAcked (withBatch batch0) (0 : RegionId) = true := by
  decide +kernel
def released : Batch := { batch0 with releaseAt := some 0 }
theorem wit_StepEnd : (regionOf (withBatch released) 0).batch = some released ∧ 0 ≤ now (withBatch released) ∧
    allHalted (withBatch released) (0 : RegionId) = true ∧ (regionOf (withBatch released) 0).trapSeen = false ∧
    (regionOf (withBatch released) 0).cmdFault = false ∧
    (∀ m ∈ released.members, ∀ o ∈ (withBatch released).orders, o.tag = m.1 → adapterLost (withBatch released) o = false ∧
      openPoisoned (withBatch released) o (memberStep (withBatch released) o m.2 (outOf [] m.1)).order.processed (outOf [] m.1) = false) ∧
    rangeHolds (withBatch released) (regionOf (withBatch released) 0).kvRange = false := by decide +kernel
theorem wit_StepEnd_recovery : (regionOf (withBatch { released with recovery := true }) 0).batch = some { released with recovery := true } ∧
    allHalted (withBatch { released with recovery := true }) (0 : RegionId) = true ∧
    rangeHolds (withBatch { released with recovery := true }) (regionOf (withBatch { released with recovery := true }) 0).kvRange = false := by decide +kernel
def recovS : State := modRegion serveS 0 fun g => { g with recovering := [9] }
theorem wit_RecoveryStep : steppable recovS (0 : RegionId) = true ∧ (regionOf recovS 0).recovering ≠ [] ∧ (regionOf recovS 0).batch = none ∧
    (regionOf recovS 0).pounceHold = false ∧ jRoom recovS 512 true = true := by decide +kernel
theorem wit_StepLimit : 0 + dnum (withBatch released) 0x3100 0x1B ≤ now (withBatch released) ∧ steppable (withBatch released) (0 : RegionId) = true := by
  decide +kernel

def jrec (type : Byte) (seq : Nat) (payload : List Byte) : JRecord := { time := 0, seq := seq, type := type, region := 0, payload := payload }
def jent (r : JRecord) : JEntry := { record := r, tag := none, key := [], streamed := false }
def journalS (es : List JEntry) : State := later { serveS with journal := { Journal.reset with started := true, entries := es, next := 1 } } 16000000
theorem wit_EpochOpen : (journalS []).journal.started = true ∧ 0 < (journalS []).journal.period ∧
    ((journalS []).journal.epochAt / (journalS []).journal.period + 1) * (journalS []).journal.period ≤ unitTime (journalS []) 11000 ∧
    jRoom (journalS []) 16 true = true := by decide +kernel
/-- A journal of 1 MiB with a record of 920,000 bytes leaves less than an eighth. -/
def smallS (p : List Byte) : State := dputNum (journalS [jent (jrec 2 0 p)]) 0x3600 0x0A 4 1
theorem sj1 (p : List Byte) : (smallS p).dict = (smallS []).dict := rfl
theorem sj2 : jCap (smallS []) = 1048576 := by decide +kernel
theorem sj3 (p : List Byte) : (smallS p).journal.entries = [jent (jrec 2 0 p)] := rfl
theorem small_journal (p : List Byte) (n : Nat) (h : p.length = n) (h1 : 917600 ≤ n) (h2 : n ≤ 1000000) :
    jCap (smallS p) - jUsed (smallS p) < jCap (smallS p) / 8 := by
  have c := sj2
  have u : jUsed (smallS p) = 24 + pad8 p.length := by unfold jUsed; rw [sj3]; simp [jent, jSize, jrec]
  unfold jCap dnum dget at c ⊢
  rw [sj1 p, c, u, h]
  unfold pad8 ceilDiv
  omega
theorem wit_Compaction : ∃ s : State, jCap s - jUsed s < jCap s / 8 :=
  ⟨_, small_journal (List.replicate 920000 0) 920000 List.length_replicate (by omega) (by omega)⟩
theorem wit_Stream : (dget (dput (journalS [jent (jrec 2 0 (zeros 8))]) 0x3600 0x0D (leBytes 8 0 ++ leBytes 4 1 ++ leBytes 4 4096 ++ [1] ++ zeros 7)) 0x3600 0x0D).getD 16 0 = 1 ∧
    streamQp (journalS [jent (jrec 2 0 (zeros 8))]) = some 17 ∧ qpOk (journalS [jent (jrec 2 0 (zeros 8))]) 17 = true ∧
    (journalS [jent (jrec 2 0 (zeros 8))]).journal.entries.find? (fun x => !x.streamed) = some (jent (jrec 2 0 (zeros 8))) ∧
    jSize (jrec 2 0 (zeros 8)) ≤ 4096 := by decide +kernel
/-- A VERIFY replay of one step. -/
def replayS (keys : List (List Byte)) : State :=
  { later serveS 16384 with replay := { Replay.reset with state := 1, request := zeros 48, records := [jrec 8 1 (zeros 64)], keys := keys } }
theorem wit_Replay : (replayS []).replay.state = 1 ∧ rpMode (replayS []).replay.request = 0 ∧
    (replayS []).replay.records.drop (replayS []).replay.at_ = [] ++ jrec 8 1 (zeros 64) :: [] ∧ isStepDigest (jrec 8 1 (zeros 64)) = true ∧
    alignUp ((replayS []).replay.lastEnd + 6400) 2048 ≤ now (replayS []) ∧ profileExtended (replayS []) = false ∧
    (rpFold [] (rpEnter (replayS []))).isSome = true := by decide +kernel
def replayX : State := dputNum (replayS [[1]]) 0x3600 0x02 1 1
theorem wit_Replay_key : profileExtended replayX = true ∧ (∃ k ∈ replayX.replay.keys, k ≠ dget replayX 0x3600 0x03) := by decide +kernel
theorem wit_Replay_stops : isStepDigest (jrec 3 0 (zeros 76)) = false ∧ rpFold [jrec 3 0 (zeros 76)] (rpEnter { replayS [] with hoods := [] }) = none := by decide +kernel

end Sys2Proof.Tests

namespace Sys2Proof.Tests

/-! ### Witnesses: time, clocks and power -/

def timeS (f : TimeRec → TimeRec) : State := { dputNum State.reset 0x1140 0x03 1 3 with time := f { TimeRec.reset with enabled := true } }
theorem wit_Ptp : (timeS id).time.enabled = true ∧ timeSource (timeS id) = 0 ∧ (dnum (timeS id) 0x1140 0x03).testBit (1 : Fin 2) = true := by decide +kernel
def ptpS (st : TimeState) (loaded : Bool) : State := dputNum (timeS fun t => { t with st := st, loaded := loaded }) 0x1140 0x06 1 1
theorem wit_Ptp_own : ownSource (ptpS .free false) 0 = true ∧ dnum (ptpS .free false) 0x1140 0x06 = (1 : Fin 2).val ∧ (ptpS .free false).time.st = .free := by
  decide +kernel
theorem wit_Ptp_acquiring : ownSource (ptpS .acquiring true) 0 = true ∧ (ptpS .acquiring true).time.st = .acquiring ∧ (ptpS .acquiring true).time.loaded = true ∧
    (1600 : Int).natAbs ≤ 1600 ∧ ¬ (-1601 : Int).natAbs ≤ 1600 := by decide +kernel
theorem wit_Ptp_locked : ownSource (ptpS .locked true) 0 = true ∧ (ptpS .locked true).time.st = .locked := by decide +kernel

theorem wit_ReferenceLoss : State.reset.time.refA = true ∧ State.reset.time.refB = true ∧ refSelect State.reset = 0 ∧ State.reset.time.useB = false := by decide +kernel
theorem wit_ReferenceLoss_last : (timeS fun t => { t with st := .locked, refB := false }).time.refA = true ∧
    (timeS fun t => { t with st := .locked, refB := false }).time.st = .locked := by decide +kernel
def presentS (last : Nat) : State := timeS fun t => { t with st := .holdover, refBGoodSince := some 0, now := 16000000000, lastDiscipline := last }
theorem wit_ReferencePresent : (presentS 0).time.refBGoodSince = some 0 ∧ 0 + 16000000000 ≤ now (presentS 0) ∧ (presentS 0).time.st = .holdover ∧
    now (presentS 0) < (presentS 0).time.lastDiscipline + 48000000000 := by decide +kernel
def lossS : State := timeS fun t => { t with st := .locked, now := 48000000000 }
theorem wit_DisciplineLoss : lossS.time.lastDiscipline + 48000000000 ≤ now lossS ∧ timeSource lossS ≠ 2 ∧ lossS.time.st = .locked := by decide +kernel
def holdoverS : State := timeS fun t => { t with st := .holdover, holdStart := some 0, now := 2 ^ 64 }
theorem wit_HoldoverExpiry : holdoverS.time.st = .holdover ∧ dnum holdoverS 0x2200 0x0A ≤ holdoverElapsed holdoverS := by decide +kernel
theorem wit_AnnounceTimeout : (ptpS .locked true).time.enabled = true ∧ dnum (ptpS .locked true) 0x1140 0x06 = (1 : Fin 2).val ∧
    dnum (ptpS .locked true) 0x1140 0x06 ≠ 0xFF := by decide +kernel
def packetS : State := { timeS fun t => { t with now := 16384 } with boot := { Boot.reset with inReset := false } }
theorem wit_TimePacket : packetS.time.lastPacket + 16384 ≤ now packetS ∧ packetS.boot.inReset = false := by decide +kernel
/-- The packet of 16,384 has reached cluster hub 0 with 8 DTU of residence; the tile reads 16,384 + 8 − x. -/
def receiveS (x : Nat) : State :=
  let s : State := { on0 with time := { TimeRec.reset with now := 16384, ticks := 2048, lastPacket := 16384 } }
  setUnit (setUnit s (.tile 0) { UnitClock.reset with value := 16392 - x, at_ := 2048 }) (.clusterHub 0) { UnitClock.reset with packet := some (16384, 8) }
theorem wit_TimePacket_received : unitAnswers (receiveS 0) (.tile 0) = true ∧ packetCame (receiveS 0) (.tile 0) 16384 8 = true ∧
    packetCame (receiveS 0) (.fieldHub 0) 16384 0 = true ∧ linkDelayOf (receiveS 0) (.tile 0) = 0 ∧
    unitTime (receiveS 64) (unitKey (.tile 0)) = 16384 + 8 - 64 ∧ unitTime (receiveS 65) (unitKey (.tile 0)) = 16384 + 8 - 65 := by decide +kernel
theorem wit_TimePacket_missed : unitAnswers on0 (.clusterHub 0) = true ∧ (unitClock on0 (.clusterHub 0)).missed ≠ 3 := by decide +kernel

/-- A lower point requested at 1,638,400 from code 6, with cluster 0 on. -/
def clockS (code : Nat) (f : ClusterRec → ClusterRec) (t : Nat) : State :=
  { modCluster State.reset 0 fun r => f { r with power := .on, code := code } with
    power := { PowerRec.reset with nextPoint := some (2, 1638400), appliedCode := 6 }, time := { TimeRec.reset with now := t, ticks := t / 8 } }
theorem wit_VoltageRaise : (∃ i ∈ changeInstants (clockS 6 id 38400), i ≤ now (clockS 6 id 38400) + 1600000) ∧ (clusterRec (clockS 6 id 38400) 0).power = .on ∧
    codeAt (clockS 6 id 38400) 0 (now (clockS 6 id 38400) + 1600000) < (clusterRec (clockS 6 id 38400) 0).code := by decide +kernel
theorem wit_FrequencyChange : (∃ i ∈ changeInstants (clockS 6 id 1638400), tilesReach (clockS 6 id 1638400) i = true) ∧
    (takeRises (clusterRec (clockS 6 id 1638400) 0) 1638400).raised = none ∧ pointAt (clockS 6 id 1638400) 1638400 < 6 ∧
    (takeRises (clusterRec (clockS 6 (fun r => { r with raised := some 2 }) 1638400) 0) 1638400).raised ≠ none := by decide +kernel
theorem wit_FrequencyChange_slower : (takeRises (clusterRec (clockS 0 id 1638400) 0) 1638400).code < pointAt (clockS 0 id 1638400) 1638400 := by decide +kernel
theorem wit_FreqLagConfirm : (clusterRec (clockS 6 (fun r => { r with lagging := true }) 0) 0).lagging = true := by decide +kernel
theorem wit_Droop : clusterOn on0 (siteCluster (15 : Site)) = true := by decide +kernel

def phases (off : BitVec 8) : State := modCluster on0 0 fun r => { r with offOver := off }
/-- Seven, six and five phases are left after one more. -/
theorem wit_PhaseDisable : regulatorRuns (phases 0) (0 : Cluster) = true ∧ phaseDisabled (phases 0) (0 : Cluster) (7 : Fin 8) = false ∧
    workingPhases (phases 0) 0 = 8 ∧ workingPhases (phases 1) 0 = 7 ∧ workingPhases (phases 3) 0 = 6 ∧ phaseDisabled (phases 3) (0 : Cluster) (7 : Fin 8) = false := by
  decide +kernel
def derateS : State := modCluster on0 0 fun r => { r with derateAt := some 0 }
theorem wit_DerateCap : (clusterRec derateS 0).derateAt = some 0 ∧ 0 ≤ now derateS := by decide +kernel
theorem wit_Fuse : (zoneRec on0 23).fuseOpen = false ∧ (zoneRec on0 23).inputFault = false ∧
    ({ on0 with pins := { on0.pins with powerGood := true } } : State).pins.powerGood = true := by decide +kernel
/-- Cluster 0 is off and asked for, its zone's stage is valid. -/
def wantS (ma : Nat) : State :=
  setZone { dputNum State.reset 0x2010 0x08 1 1 with time := { TimeRec.reset with now := 160000 } } 0 { ZoneRec.reset with stageValid := true, milliAmps := ma }
theorem wit_PowerUp : powerWaits (wantS 0) (0 : Cluster) = true ∧ zonePowers (wantS 0) (clusterZone 0) = true ∧
    ((clusterRec (wantS 0) 0).since / 160000 + 1) * 160000 ≤ now (wantS 0) ∧
    (∀ d ∈ zoneClusters (clusterZone 0), (clusterRec (wantS 0) d).power ≠ .softStart ∧ (d < 0 → powerWaits (wantS 0) d = false)) := by decide +kernel
theorem wit_PowerUp_deferred : 100 * (zoneRec (wantS 1000000) (clusterZone 0)).milliAmps > 85 * 1000 * dnum (wantS 1000000) 0x2010 0x02 := by decide +kernel
def atPower (p : ClusterPower) : State := { modCluster State.reset 0 fun r => { r with power := p } with time := { TimeRec.reset with now := 800000 } }
theorem wit_SoftStart : (clusterRec (atPower .softStart) 0).power = .softStart ∧ (clusterRec (atPower .softStart) 0).since + 800000 ≤ now (atPower .softStart) := by
  decide +kernel
theorem wit_PowerDown : (clusterRec (atPower .poweringDown) 0).power = .poweringDown ∧ (clusterRec (atPower .poweringDown) 0).since + 160000 ≤ now (atPower .poweringDown) := by
  decide +kernel
def boostS : State := modCluster (atPower .on) 0 fun r => { r with warnBoost := some (0, 800000), relBoosts := [(800000, 900000)], relActive := some 800000 }
theorem wit_Boosts : (clusterRec boostS 0).warnBoost = some (0, 800000) ∧ 800000 ≤ now boostS ∧
    (clusterRec boostS 0).relBoosts.find? (fun b => decide (b.1 ≤ now boostS)) = some (800000, 900000) ∧ (clusterRec boostS 0).relActive = some 800000 := by decide +kernel
theorem wit_MarginTrim : (clusterRec on0 0).power = .on ∧ clusterHeld on0 (0 : Cluster) = false ∧
    max (clusterRec on0 0).trim ((clusterRec on0 0).trimPending.getD 0) < min 60 (5 / 5 * 5) ∧ min 60 (4 / 5 * 5) ≤ (clusterRec on0 0).trim := by decide +kernel
theorem wit_MarginTrim_held : (clusterRec meshS 0).power = .on ∧ clusterHeld meshS (0 : Cluster) = true := by decide +kernel
theorem wit_PathResistance : (40000 : Nat) ≤ 40000 ∧ (39999 : Nat) < 40000 ∧ dnum on0 (0x2010 + (0 : Zone)) 0x07 = 0 := by decide +kernel

theorem wit_Estimate : State.reset.power.bucketCount < 99 ∧ 99 ≤ ({ State.reset with power := { PowerRec.reset with bucketCount := 99 } } : State).power.bucketCount := by
  decide +kernel
theorem wit_ZoneGain : (zoneRec on0 23).replaced = false := by decide +kernel
theorem wit_Thermal : (clusterRec on0 0).power = .on ∧ thermalLimit on0 ≤ 200 ∧ (clusterRec on0 0).fastDropAt = none ∧ (clusterRec on0 0).lastDrop = none := by
  decide +kernel
theorem wit_ZoneCurrent : clusterZone 7 = (0 : Zone).val ∧ clusterOn on0 0 = true ∧ 1000 * dnum on0 (0x2010 + (0 : Zone)) 0x02 < 1000000 := by decide +kernel
def dropS : State := modCluster on0 0 fun r => { r with fastDropAt := some 0 }
theorem wit_FastCapDrop : clusterOn dropS (0 : Cluster) = true ∧ due dropS (clusterRec dropS 0).fastDropAt = true ∧ due dropS (clusterRec dropS 0).zoneDropAt = false := by
  decide +kernel
def capS : State := { State.reset with time := { TimeRec.reset with now := 10 ^ 18, ticks := 10 ^ 18 / 8 } }
theorem wit_CapEpoch : (capS.power.capAt / capPeriod capS + 1) * capPeriod capS ≤ crownTime capS ∧ due capS (capS.power.nextCap.map (·.2)) = false := by decide +kernel
def capHigh : State :=
  { capS with power := { PowerRec.reset with a1 := 10 ^ 12 }, dict := [0, 1, 2, 3, 17, 18].map fun i => (objKey 0x2000 i, leBytes 4 1000) }
theorem wit_CapEpoch_code : nextCapCode capHigh 0 = 2 := by decide +kernel
/-- A running group of one period, its time locked. -/
def budgetS (computed : Bool) (t : Nat) : State :=
  { dputNum State.reset 0x2100 0x06 4 1600000 with budget := { GroupBudget.reset with running := true, computed := computed }, time := { TimeRec.reset with now := t, st := .locked } }
theorem wit_GroupEpoch : groupRuns (budgetS true 1600000) = true ∧ (budgetS true 1600000).budget.epoch < now (budgetS true 1600000) / groupPeriod (budgetS true 1600000) := by
  decide +kernel
theorem wit_ShareCompute : groupRuns (budgetS false 800000) = true ∧ (budgetS false 800000).budget.computed = false ∧
    (budgetS false 800000).budget.epoch * groupPeriod (budgetS false 800000) + groupPeriod (budgetS false 800000) / 2 ≤ now (budgetS false 800000) := by decide +kernel

end Sys2Proof.Tests

namespace Sys2Proof.Tests

/-! ### Witnesses: sessions, ports, registers, mailboxes and the fabric -/

def openF : Frame := { fr1 with session := 0 }
/-- No owner key is installed in any slot. -/
def unowned (s : State) : State := { s with otp := { s.otp with ownerState := [(0, 0), (1, 0), (2, 0), (3, 0)] } }
theorem wit_SessionOpen : portUp (unowned (odpS 1)) (portNo openF.port) = true ∧ openF.toPair = false ∧ openF.session = 0 ∧
    (portOf (unowned (odpS 1)) (portNo openF.port)).loose < 1000 ∧ owned (unowned (odpS 1)) = false ∧
    [(⟨0x1000, 1, 64, 0x2000, 17, true⟩ : RingDesc)].all descOk = true ∧ freeSession (unowned (odpS 1)) = some 2 := by decide +kernel
theorem wit_SessionOpen_edges : descOk ⟨0, 1, 64, 0, 17, true⟩ = true ∧ descOk ⟨0, 1, 65536, 0, 17, true⟩ = true ∧ descOk ⟨0, 1, 32, 0, 17, true⟩ = false := by
  decide +kernel
theorem wit_SessionOpen_management : owned (unowned (odpS 1)) = false ∧ managementFrom (unowned (odpS 1)) openF = false := by decide +kernel
/-- A session with an unacknowledged event, a snapshot and every event class. -/
def busy (tries : Nat) : Session := { sess 1 with events := [⟨1, [], 0, tries⟩], eventSeq := 1, snapshot := some ⟨0x5010, 1, [], 0⟩, mask := 0x7F }
def busyS (tries : Nat) : State := { odpS 1 with sessions := [(16, busy tries)], time := { TimeRec.reset with now := 16000000000 } }
theorem wit_SessionEnds : sessionOf (busyS 0) (16 : Fin 17) = some (busy 0) ∧ (busy 0).lastFrame + (busy 0).keepalive * 16000000 ≤ now (busyS 0) ∧
    (busy 0).snapshot = some ⟨0x5010, 1, [], 0⟩ ∧ 0 + 16000000000 ≤ now (busyS 0) := by decide +kernel
theorem wit_SessionLives : sessionOf (odpS 1) (1 : Fin 17) = some (sess 1) ∧ now (odpS 1) < (sess 1).lastFrame + (sess 1).keepalive * 16000000 := by decide +kernel
theorem wit_EventSend : (6 : BitVec 16).toNat < 7 ∧ (busy 0).mask.toNat.testBit (6 : BitVec 16).toNat = true := by decide +kernel
theorem wit_EventResend : (busy 7).events.find? (fun v => decide (v.seq = 1)) = some ⟨1, [], 0, 7⟩ ∧ 0 + 160000000 ≤ now (busyS 7) ∧
    (busy 8).events.find? (fun v => decide (v.seq = 1)) = some ⟨1, [], 0, 8⟩ := by decide +kernel
theorem wit_FrameReject : portUp (odpS 1) (portNo .hp0) = true ∧ ([] : List Byte).length < 4 := by decide +kernel

def portS (p q : Port) : State := { dputNum (dputNum State.reset 0x1100 0x02 1 1) 0x1101 0x02 1 1 with ports := [(0, p), (1, q)], time := { TimeRec.reset with now := 16000000000 } }
theorem wit_PortDown : (portOf (portS { Port.reset with up := true } { Port.reset with up := true }) (0 : Fin 2)).up = true ∧
    portUp (portS { Port.reset with up := true } { Port.reset with up := true }) 1 = true ∧
    portUp (portS { Port.reset with up := true } { Port.reset with training := true }) 1 = false := by decide +kernel
def backS : State := portS { Port.reset with up := true, movedAway := true, upSince := some 0 } { Port.reset with training := true }
theorem wit_PortRestore : (portOf backS (0 : Fin 2)).up = true ∧ (portOf backS (0 : Fin 2)).movedAway = true ∧ (portOf backS (0 : Fin 2)).upSince = some 0 ∧
    0 + 16000000000 ≤ now backS ∧ portUp backS (0 : Fin 2) = true := by decide +kernel
theorem wit_PortUp : portOn backS (1 : Fin 3) = true ∧ (portOf backS (1 : Fin 3)).up = false ∧ (portOf backS (1 : Fin 3)).training = true := by decide +kernel
theorem wit_Connection : (∃ x, sessionOf (odpS 1) (1 : BitVec 16).toNat = some x ∧ x.token = 1 ∧ x.token ≠ 2) ∧ (sessionQps (odpS 1) 1).length < 64 ∧
    (odpS 1).qps.length < 1024 ∧ qpOf (odpS 1) (18 : BitVec 24).toNat = QueuePair.none := by
  exact ⟨⟨sess 1, by decide +kernel⟩, by decide +kernel⟩
theorem wit_Rdma : qpOf (odpS 1) (17 : BitVec 24).toNat ≠ QueuePair.none ∧ (qpOf (odpS 1) 17).error = false ∧ (qpOf (odpS 1) 17).retries < 7 ∧
    7 ≤ (qpOf { odpS 1 with qps := [(17, ⟨1, false, 7⟩)] } 17).retries := by decide +kernel
theorem wit_Send_monitor : sessionOf (odpS 2) (qpOf (odpS 2) 17).session = some (sess 2) ∧ (sess 2).role = 2 ∧ orderRec.length = 128 := by decide +kernel
theorem wit_Send_submit : sessionOf serveS (qpOf serveS 17).session = some (sess 1) ∧ resentOrder serveS orderRec = none ∧
    submitCheck serveS (qpOf serveS 17).session orderRec = 0 ∧ recKind orderRec ≠ 6 ∧ twinSolo serveS = true ∧ chooseRegion serveS orderRec = some 0 ∧
    recContext orderRec + recCont orderRec ≠ 0 ∧ dataQp serveS (qpOf serveS 17).session = some 17 ∧ qpOk serveS 17 = true := by decide +kernel
/-- Channel 48 is bound from the ODP engine to the work-order engine, with doorbells. -/
def bellS : State :=
  regPut (regPut (odpS 1) (mboxReg (0x1000 + 8 * 48)) (BitVec.ofNat 32 (0x094 + 0x010 * 2 ^ 10 + 2 ^ 20 + 2 ^ 21))) (mboxReg 0x1800) 1
theorem wit_Doorbell : mbIsSender bellS (47 + (1 : Fin 17)) 0x094 = true ∧ mbIsReceiver bellS (47 + (1 : Fin 17)) 0x010 = true ∧ mbFull bellS (47 + (1 : Fin 17)) = false ∧
    sessionOf bellS (1 : Fin 17) = some (sess 1) ∧ fld (0x10000 : BitVec 64).toNat 0 16 = (1 : Fin 17).val - 1 ∧
    (BitVec.ofNat 32 (fld (0x10000 : BitVec 64).toNat 16 32) - (sess 1).consumer).toNat = [orderRec].length := by decide +kernel
def ring0 (w : Nat) : Ring := { Ring.none with desc := ⟨0x1000, 1, 64, 0x2000, 17, true⟩, written := w, due := [(zeros 32, [])] }
theorem wit_ResultWrite : (ringOf (setRing (odpS 1) 0 (ring0 63)) 0).due = (zeros 32, []) :: [] ∧ (ring0 63).written - (ring0 63).consumer < (ring0 63).desc.entries ∧
    (ring0 63).bad = false ∧ qpOk (setRing (odpS 1) 0 (ring0 63)) (ring0 63).desc.qp.toNat = true ∧ twinSolo (setRing (odpS 1) 0 (ring0 63)) = true := by decide +kernel
theorem wit_ConsumerRead : (ring0 64).desc.entries ≤ (ring0 64).written - (ring0 64).consumer ∧ (ring0 64).lastRead = none := by decide +kernel

theorem wit_Registers_nowhere : regTarget on0 (0xEFFFFFFFFFFF : BitVec 48).toNat (0x010 : Master).toNat = none := by decide +kernel
/-- A pair's low half is excluded, and so is the write-masked SP_PWR, which is no register of these blocks. -/
theorem wit_Registers_plain : regTarget on0 (vrReg 0 0) (0 : Master).toNat = some (.vr 0, 0) ∧ plainBlock (.vr 0) 0 = true ∧
    reachesField (.vr 0) 0 (0 : Master).toNat = true ∧ isPairLo (.vr 0) 0 = false ∧ isPairHi (.vr 0) 0 = false ∧
    regSpec (.vr 0) 0 = some ⟨0x1, 0xFF00, 0, false⟩ := by decide +kernel
theorem wit_Registers_clash : regBit (regPut on0 (vrReg 0 0) 1) (regEnable (.vr 0) 0).1 (regEnable (.vr 0) 0).2 = true ∧
    ((1 : Word32) ^^^ 0x101) &&& BitVec.ofNat 32 0xFF00 ≠ 0 ∧ anyIgnored (regPut (regPut on0 (vrReg 0 0) 1) (vrReg 0 4) 0x10000) (.vr 0) = true := by decide +kernel
theorem wit_Registers_pairRead : regTarget on0 (vrReg 0 0x020) (0x010 : Master).toNat = some (.vr 0, 0x020) ∧ isPairLo (.vr 0) 0x020 = true := by decide +kernel
theorem wit_Registers_pairWrite : regTarget on0 (fieldReg 0 0x00C) (0x010 : Master).toNat = some (.field 0, 0x00C) ∧ isPairHi (.field 0) 0x00C = true ∧
    isPairLo (.field 0) 0x00C = false ∧ reachesField (.field 0) 0x00C (0x010 : Master).toNat = true := by decide +kernel
theorem wit_Registers_enable : regTarget on0 (hubReg (0 : Cluster) 0) (0x010 : Master).toNat = some (.hub 0, 0) ∧ regBit on0 (hubReg 0 0) 0 = false ∧
    regTarget on0 (fieldReg (11 : Field) 0) (0x010 : Master).toNat = some (.field 11, 0) ∧ regBit on0 (fieldReg 11 0) 0 = false := by decide +kernel

/-- Channel 63 is bound from master 0 to master 1. -/
def mboxS (full door : Nat) : State :=
  regPut (regPut (regPut State.reset (mboxReg (0x1000 + 8 * 63)) (BitVec.ofNat 32 (1 * 2 ^ 10 + 2 ^ 20 + door * 2 ^ 21))) (mboxReg 0x1800) 1) (mbReg 63 8) (BitVec.ofNat 32 full)
theorem wit_Mailbox_commit : mbIsSender (mboxS 0 0) (63 : Fin 64) (0 : Master).toNat = true ∧ mbFull (mboxS 0 0) (63 : Fin 64) = false := by decide +kernel
theorem wit_Mailbox_overrun : mbIsSender (mboxS 1 0) (63 : Fin 64) (0 : Master).toNat = true ∧ mbFull (mboxS 1 0) (63 : Fin 64) = true ∧
    mbDoorbell (mboxS 1 0) (63 : Fin 64) = false := by decide +kernel
theorem wit_Mailbox_take : mbIsReceiver (mboxS 1 0) (63 : Fin 64) (1 : Master).toNat = true ∧ (mboxS 1 0).boot.answers = [] := by decide +kernel
def lateMbox : State := { mboxS 1 0 with time := { TimeRec.reset with now := 16000 * 0x2710 } }
theorem wit_Mailbox_timeout : mbFull lateMbox (63 : Fin 64) = true ∧ (regGet lateMbox (mboxReg (0x1004 + 8 * 63))).toNat ≠ 0 ∧
    mget 0 lateMbox.mbSince 63 + (regGet lateMbox (mboxReg (0x1004 + 8 * 63))).toNat * 16000 ≤ now lateMbox + 1 := by decide +kernel
theorem wit_Mailbox_reset : (isCrown (1 : Master).toNat || isEngine (1 : Master).toNat || decide ((1 : Master).toNat = 3)) = true ∧
    mbIsSender (mboxS 1 0) (63 : Fin 64) (1 : Master).toNat = false ∧ mbIsReceiver (mboxS 1 0) (62 : Fin 64) (1 : Master).toNat = false := by decide +kernel
theorem wit_Mailbox_lock : (0 : Master).toNat = 0 ∧ regBit State.reset (mboxReg 0x1800) 0 = false ∧ regBit (mboxS 0 0) (mboxReg 0x1800) 0 = true := by decide +kernel
def errS (n : Nat) : State := { regPut State.reset (errReg 0) 1 with errBuf := List.replicate n ⟨0, 0x0103, 0, 0, 0, 0, zeros 32⟩ }
theorem wit_Errors : regBit (errS 255) (errReg 0) 0 = true ∧ (errS 255).errBuf.length < 256 ∧ 256 ≤ (errS 256).errBuf.length ∧
    regBit State.reset (errReg 0) 0 = false ∧ (errS 1).errBuf = ⟨0, 0x0103, 0, 0, 0, 0, zeros 32⟩ :: [] := by decide +kernel

/-- A fabric packet for this device's identifier, and a state whose aperture 0 shows one row of HBM. -/
def fabP (kind : BitVec 8) (n : Nat) : FabPacket :=
  { dst := 5, src := 6, kind := kind, channel := 0, aperture := 0, sem := 0x3F, generation := 0, offset := 0, transaction := 0, poison := 0,
    status := 0, payload := zeros n, linkSeq := 1, linkAck := 0 }
def fabS (rights : Byte) : State :=
  let s := dputNum (dputNum (later meshS 32000) 0x4400 0x20 2 5) 0x4000 0x11 1 1
  let s := dput s 0x4400 0x22 (leBytes 8 0 ++ leBytes 8 512 ++ [1, rights, 0xFF, 0] ++ zeros 492)
  setLink s 17 { Link.reset with st := 2, lanes := 15 }
theorem wit_Link_training : (linkOf (setLink State.reset 17 { Link.reset with st := 1 }) (17 : LinkId)).st = 1 ∧
    trainedState 4 = (2, 4) ∧ trainedState 3 = (3, 2) ∧ trainedState 2 = (3, 2) ∧ trainedState 1 = (0, 0) := by decide +kernel
def replayL (st : Nat) : State := setLink (fabS 3) 17 { Link.reset with st := st, lanes := 15, replay := [(fabP 0 512, 0)] }
theorem wit_Link_resend : (linkOf (replayL 2) (17 : LinkId)).replay = (fabP 0 512, 0) :: [] ∧ linkUsable (replayL 2) (17 : LinkId) = true ∧ 0 + 32000 ≤ now (replayL 2) := by
  decide +kernel
theorem wit_Link_reroute : linkUsable (replayL 0) (17 : LinkId) = false ∧ (linkOf (replayL 0) (17 : LinkId)).replay ≠ [] := by decide +kernel
def keyedL : State := { fabS 3 with sec := { Sec.reset with keys := [⟨19, 0, 1, 0, true, []⟩] } }
theorem wit_Link_auth : linkUsable keyedL (17 : LinkId) = true ∧ keyed keyedL (2 + (17 : LinkId)) = true := by decide +kernel
theorem wit_Link_relay : linkUsable (fabS 3) (17 : LinkId) = true ∧ (fabP 0 512).linkSeq = ((linkOf (fabS 3) (17 : LinkId)).expectSeq + 1) % 2 ^ 32 ∧
    (linkOf (fabS 3) (17 : LinkId)).queue = [] ∧ heldFor (fabS 3) (fabP 0 512).dst = false ∧ relayPort (fabS 3) (fabP 0 512).dst.toNat = some 18 := by decide +kernel
/-- Destination 6 lies behind port 17, whose link has room, or a full replay buffer. -/
def routedS (n : Nat) : State :=
  setLink (dput (fabS 3) 0x4400 0x21 (zeros 12 ++ leBytes 2 (17 + 32 * 31 + 32768))) 17
    { Link.reset with st := 2, lanes := 15, replay := List.replicate n (fabP 3 0, 0) }
def outP : FabPacket := { fabP 0 512 with dst := 6, channel := 1 }
theorem wit_Link_atOnce : relayPort (routedS 0) 6 = some 17 ∧ heldFor (routedS 0) 6 = false ∧ (linkOf (routedS 0) 17).queue = [] ∧
    portReady (linkOf (routedS 0) 17) outP = true := by decide +kernel
theorem wit_Link_full : relayPort (routedS 64) 6 = some 17 ∧ heldFor (routedS 64) 6 = false ∧ 64 ≤ (linkOf (routedS 64) 17).replay.length := by decide +kernel
/-- R497: a full grant of VC0 holds a VC0 packet back, and VC1 sends. -/
theorem test_port_credits : portPick { Link.reset with st := 2, replay := List.replicate 60 (fabP 3 0, 0), queue := [fabP 0 512, outP] } = some outP ∧
    portPick { Link.reset with st := 2, queue := [outP, fabP 0 512] } = some (fabP 0 512) := by decide +kernel
theorem wit_Fabric_refused : (fabP 0 64).dst.toNat = fabricId (fabS 0) ∧ (fabP 0 64).payload.length ≠ 0 ∧ (fabP 0 64).payload.length % 64 = 0 ∧
    apAdmits (fabS 0) (apEntry (fabS 0) (fabP 0 64)) 6 0 64 1 = false ∧ apAdmits (fabS 0) (apEntry (fabS 0) (fabP 1 0)) 6 0 512 0 = false := by decide +kernel
theorem wit_Fabric_write : (fabP 0 512).dst.toNat = fabricId (fabS 3) ∧ (apBase (apEntry (fabS 3) (fabP 0 512)) + 0) % 512 = 0 ∧ apKind (apEntry (fabS 3) (fabP 0 512)) = 1 ∧
    apAdmits (fabS 3) (apEntry (fabS 3) (fabP 0 512)) 6 0 512 1 = true ∧ targetOf (fabS 3) (apBase (apEntry (fabS 3) (fabP 0 512)) + 0) = .hbm ∧
    hbmPlace (fabS 3) 0 = some (0, 0) ∧ (stackRec (fabS 3) 0).st ≠ .failed ∧ (stackRec (fabS 3) 0).retraining = false := by decide +kernel
theorem wit_Fabric_read : apKind (apEntry (fabS 3) (fabP 1 0)) = 1 ∧ apAdmits (fabS 3) (apEntry (fabS 3) (fabP 1 0)) 6 0 512 0 = true ∧
    hbmZeroing (fabS 3) (apBase (apEntry (fabS 3) (fabP 1 0)) + 0) 512 = false := by decide +kernel
/-- A move of site 0 to a fabric address awaiting its only row. -/
def fabMove (op : Nat) : State :=
  modTile { withBanks (withQ (fabS 3) .move [entP (moveD op 0x400000000000) .running]) with net := [] } 0 fun t => { t with moves := [ansM] }
theorem wit_Fabric_answer : transactionSite (fabMove 2) (fabP 3 0).transaction = some 0 ∧ findMove (fabMove 2) 0 0 = some ansM ∧
    moveEntry (fabMove 2) 0 0 = some (entP (moveD 2 0x400000000000) .running) ∧ ansM.pending = [(fabP 3 0).transaction.toNat / 2 ^ 32] ∧
    addrRange (moveAddr (fabMove 2) 0 (moveD 2 0x400000000000)) = some 4 ∧ moveVc2 (moveD 2 0x400000000000) = false := by decide +kernel
theorem wit_Fabric_readAnswer : findMove (fabMove 1) 0 0 = some ansM ∧ moveEntry (fabMove 1) 0 0 = some (entP (moveD 1 0x400000000000) .running) ∧
    (fabP 2 512).payload.length = 512 ∧ bankServes (fabMove 1) 0 (moveLocal (moveD 1 0x400000000000) + 0) 5 = true := by decide +kernel
/-- Tree 15: parent port 17, one child, port 3. -/
def redTree : List Byte := zeros 480 ++ ([17, 1, 3] ++ zeros 29)
def redS (rs : List Reduction) : State := { dput (dputNum (fabS 3) 0x3600 0x02 1 1) 0x4400 0x23 redTree with reductions := rs }
def redR : Reduction := ⟨15, 0, 0, [(18, zeros 512, 0)], 0⟩
/-- The same with nine children. -/
def badTree : State := dput (redS []) 0x4400 0x23 (zeros 480 ++ ([17, 9, 3] ++ zeros 29))
theorem wit_Reduce_refused : profileExtended (fabS 3) = false ∧ treeValid (treeEntry badTree (15 : Fin 16)) = false ∧ (treeChildren (treeEntry (redS []) (15 : Fin 16))).contains 4 = false := by decide +kernel
theorem wit_Reduce_first : profileExtended (redS []) = true ∧ treeValid (treeEntry (redS []) (15 : Fin 16)) = true ∧ (treeChildren (treeEntry (redS []) (15 : Fin 16))).contains (3 : Fin 19).val = true ∧
    (redS []).reductions.find? (fun r => decide (r.tree = 15 ∧ r.offset = 0 ∧ r.gen = 0)) = none := by decide +kernel
theorem wit_Reduce_complete : (redS [redR]).reductions.find? (fun r => decide (r.tree = 15 ∧ r.offset = 0 ∧ r.gen = 0)) = some redR ∧
    (redR.contributions.any fun c => decide (c.1 = 3)) = false ∧ treeComplete (treeEntry (redS [redR]) 15) (withContribution redR 3 (fabP 4 512)) = true ∧
    treeParent (treeEntry (redS [redR]) 15) < 18 ∧ linkUsable (redS [redR]) (treeParent (treeEntry (redS [redR]) 15)) = true := by decide +kernel
theorem wit_Reduce_order : (redR.contributions.map (·.1)).Nodup ∧ redR.contributions.Perm redR.contributions := by decide +kernel
theorem wit_Reduce_timeout : redR.since + dnum (later (redS [redR]) (10 ^ 18)) 0x4400 0x25 ≤ now (later (redS [redR]) (10 ^ 18)) := by decide +kernel
/-- The acceptance instant is the first 6,400 DTU ahead. -/
theorem wit_Schedule : timeRefused (timeS fun t => { t with st := .untrusted }) = true ∧ timeRefused State.reset = false ∧
    (6399 : BitVec 64).toNat < now State.reset + 6400 ∧ now State.reset + 6400 ≤ (6400 : BitVec 64).toNat := by decide +kernel
def schedS (k : Nat) : State := { State.reset with schedules := [⟨7, k, 0, 160000⟩] }
theorem wit_ScheduledInstant : ((schedS 3).schedules.find? fun x => decide (x.id = 7)) = some ⟨7, 3, 0, 160000⟩ ∧ (0 : Nat) ≤ now (schedS 3) ∧
    160000 ≤ (160000 : BitVec 64).toNat := by decide +kernel
def groupTwo : State := dputNum (dput (dputNum { schedS 2 with schedules := [⟨7, 2, 0, 0⟩] } 0x4400 0x20 2 5) 0x2100 0x03 (leBytes 2 5 ++ leBytes 2 6 ++ List.replicate 124 0xFF)) 0x2100 0x05 4 60000
theorem wit_ScheduledInstant_group : groupCheck groupTwo [1] = 0 := by decide +kernel

end Sys2Proof.Tests

namespace Sys2Proof.Tests

/-! ### Witnesses: keys, the twin pair, bring-up, resets and maintenance -/

def keyK (slot at_ : Nat) : KeyRec := ⟨19, slot, 1, at_, false, zeros 72⟩
def keysS : State := later { State.reset with sec := { Sec.reset with keys := [keyK 2 16000000], previous := [(17, 1)] } } 16000000
theorem wit_Keys : keysS.sec.keys.find? (fun k => decide (k.target = (19 : Fin 20).val ∧ k.slot = (2 : Fin 3).val) && !k.active) = some (keyK 2 16000000) ∧
    (keyK 2 16000000).activeAt ≤ keyTime keysS (19 : Fin 20) ∧ mget 0 keysS.sec.previous (17 : LinkId) ≠ 0 ∧
    mget 0 keysS.sec.previous (17 : LinkId) - 1 + 16000000 ≤ now keysS := by decide +kernel
theorem wit_Report : ({ keysS with sec := { keysS.sec with reportTime := some (0, []) } } : State).sec.reportTime = some (0, []) ∧ keysS.sec.identityOk = true ∧
    keysS.sec.reportTime = none ∧ (zeros 64).length = 64 := by decide +kernel

/-- Both twin links are up, the partner's serial number is entered, and the pair is in a state. -/
def twinS (f : Twin → Twin) : State :=
  let s := setLink (setLink (dput State.reset 0x4800 0x04 (List.replicate 24 0x31)) 16 { Link.reset with st := 2, lanes := 15 }) 17 { Link.reset with st := 2, lanes := 15 }
  { s with twin := f { Twin.reset with partnerSerial := List.replicate 24 0x31 } }
def hdr (epoch : Nat) : TwinHdr := ⟨0, epoch, 1⟩
def helloM (serial : Byte) : HelloMsg := ⟨List.replicate 24 serial, slice (dget State.reset 0x1000 0x07) 0 72, 0, [], 0, false⟩
theorem wit_Hello_ignored : twinArrives State.reset (hdr 0) = false ∧ dget State.reset 0x4800 0x04 = [] := by decide +kernel
theorem wit_Hello_stranger : twinArrives (twinS id) (hdr 0) = true ∧ dget (twinS id) 0x4800 0x04 ≠ [] ∧ (helloM 0x32).serial ≠ dget (twinS id) 0x4800 0x04 := by
  decide +kernel
theorem wit_Hello_forms : (helloM 0x31).serial = dget (twinS id) 0x4800 0x04 ∧ otherPeer (twinS id) 0 = none ∧
    (helloM 0x31).build = slice (dget (twinS id) 0x1000 0x07) 0 72 ∧ (twinS id).twin.mode = 0 ∧ (twinS id).twin.st = .solo := by decide +kernel
theorem wit_Hello_reserved : 3 < ({ helloM 0x31 with modeRequest := 4 } : HelloMsg).modeRequest.toNat ∧ 2 < ({ helloM 0x31 with profile := 3 } : HelloMsg).profile.toNat := by decide +kernel
theorem wit_Hello_build : ({ helloM 0x31 with build := [1] } : HelloMsg).build ≠ slice (dget (twinS id) 0x1000 0x07) 0 72 := by decide +kernel
def pairT (st : PairState) (t : Nat) : State := later (twinS fun w => { w with st := st, mode := 1, member := some 1 }) t
theorem wit_HeartbeatSend : streaming (pairT .paired (10 ^ 12)) = true ∧
    (pairT .paired (10 ^ 12)).twin.beatSent + dnum (pairT .paired (10 ^ 12)) 0x4800 0x0B ≤ now (pairT .paired (10 ^ 12)) := by decide +kernel
theorem wit_Heartbeat : TwinTakes (pairT .suspect 0) (hdr 0) ∧ streaming (pairT .suspect 0) = true ∧ TwinTakes (twinS id) (hdr 0) ∧ (twinS id).twin.st = .solo := by
  decide +kernel
def epochTwo : State := { pairT .paired 0 with journal := { Journal.reset with epoch := 2 } }
theorem wit_Heartbeat_stale : twinArrives epochTwo (hdr 0) = true ∧ streaming epochTwo = true ∧ (hdr 0).epoch + 1 < epochTwo.journal.epoch ∧
    epochTwo.journal.epoch ≤ (hdr 1).epoch + 1 := by decide +kernel
theorem wit_HeartbeatLoss : (pairT .paired (10 ^ 12)).twin.st = .paired ∧ (pairT .paired (10 ^ 12)).twin.lastBeat +
    dnum (pairT .paired (10 ^ 12)) 0x4800 0x0B * dnum (pairT .paired (10 ^ 12)) 0x4800 0x0C ≤ now (pairT .paired (10 ^ 12)) := by decide +kernel
def suspectT (front answered : Bool) : State :=
  later (twinS fun w => { w with st := .suspect, suspectSince := some 0, probeNonce := some 9, front := front, answered := answered }) (10 ^ 12)
theorem wit_ProbeAnswer : (suspectT false false).twin.st = .suspect ∧ (suspectT false false).twin.probeNonce = some 9 ∧
    slice (List.replicate 24 0x31) 0 24 = slice (suspectT false false).twin.partnerSerial 0 24 := by decide +kernel
theorem wit_ProbeWindow : (suspectT false true).twin.suspectSince = some 0 ∧ 0 + dnum (suspectT false true) 0x4800 0x0D ≤ now (suspectT false true) ∧
    (suspectT false true).deferred = [] ∧ (suspectT false true).twin.front = false ∧ (suspectT false true).twin.answered = true ∧
    (suspectT true true).twin.front = true := by decide +kernel
theorem wit_TwinTime : StreamTakes (pairT .paired 0) (hdr 0) ∧ (pairT .paired 0).twin.mode ≠ 0 ∧ (pairT .paired 0).twin.member = some 1 ∧ (hdr 0).link = 0 := by
  decide +kernel
def modeT : State := twinS fun w => { w with modeAt := some (2, 0) }
theorem wit_ModeEffect : modeT.twin.modeAt = some (2, 0) ∧ 0 ≤ modeT.journal.epochAt ∧ modeT.twin.mode < 2 := by decide +kernel

theorem wit_Stream_takes : StreamTakes (pairT .paired 0) (hdr 0) ∧ (pairT .paired 0).deferred = [] ∧ (pairT .paired 0).twin.digests = [] ∧
    (pairT .paired 0).twin.ownDigests = [] ∧ (pairT .paired 0).twin.incoming = [] ∧ (pairT .paired 0).twin.front = false := by decide +kernel
/-- Type codes 0 and 10 are reserved, 1 and 9 are not. -/
theorem wit_Stream_types : (∃ y ∈ [jrec 10 1 []], y.type = 0 ∨ 9 < y.type.toNat) ∧ (∀ y ∈ [jrec 1 1 [], jrec 9 2 []], 1 ≤ y.type.toNat ∧ y.type.toNat ≤ 9) := by
  decide +kernel
theorem wit_Stream_next : (pairT .paired 0).twin.shadowNext = 0 ∧ ({ pairT .paired 0 with twin := { (pairT .paired 0).twin with shadowNext := 5 } } : State).twin.shadowNext < 6 := by
  decide +kernel
/-- Region 63 is home at member 0, so this member, 1, holds its shadow. -/
theorem wit_Stream_shadow : shadowHeld (pairT .paired 0) (63 : RegionId) = true ∧ homed (pairT .paired 0) 63 = false ∧
    shadowHeld (dput (pairT .paired 0) 0x4800 0x08 (List.replicate 8 0xFF)) (63 : RegionId) = false := by decide +kernel
def usedT (own : List (Nat × Nat × BitVec 32 × BitVec 64 × Bool)) : State :=
  modRegion { pairT .paired 0 with twin := { (pairT .paired 0).twin with ownDigests := own } } 63 fun g => { g with state := .serving }
/-- The same with region 63 at home here. -/
def homeT (own : List (Nat × Nat × BitVec 32 × BitVec 64 × Bool)) : State := dput (usedT own) 0x4800 0x08 (List.replicate 8 0xFF)
theorem wit_Stream_digest : regionUsed (usedT []) (63 : RegionId) = true ∧ StreamTakes (usedT [(63, 0, 9, 1, false)]) (hdr 0) ∧
    (usedT [(63, 0, 9, 1, false)]).twin.ownDigests = [((63 : RegionId).val, 0, 9, 1, false)] ∧ (usedT [(63, 0, 9, 1, false)]).twin.digests = [] ∧
    (regionOf (usedT []) (63 : RegionId)).cover = false ∧ homed (usedT []) (63 : RegionId) = false ∧
    (regionOf (homeT []) (63 : RegionId)).coverStep < 1 ∧ homed (homeT []) (63 : RegionId) = true := by decide +kernel
/-- The same order while its hood is under the referee. -/
theorem wit_Stream_referee : let s := usedT [(63, 0, 9, 1, false)]
    let w : State := { s with twin := { s.twin with refereed := [⟨63, 0, 9, 5, none, none⟩] } }
    awaitsReferee w (63 : RegionId) 9 = true ∧ awaitsReferee s (63 : RegionId) 9 = false ∧ StreamTakes w (hdr 0) ∧ w.twin.digests = [] ∧
    w.twin.ownDigests = [((63 : RegionId).val, 0, 9, 1, false)] := by decide +kernel
/-- A hood whose weight section is empty, with the digest SHAKE256 gives the empty string (FIPS 202). -/
def emptyDigest : List Byte := [0x46, 0xB9, 0xDD, 0x2B, 0x0B, 0xA8, 0x8D, 0x13, 0x23, 0x3B, 0x3F, 0xEB, 0x74, 0x3E, 0xEB, 0x24, 0x3F, 0xCD, 0x52, 0xEA, 0x62, 0xB8, 0x1B, 0x82, 0xB5, 0x0C,
  0x27, 0x64, 0x6E, 0xD5, 0x76, 0x2F]
def weightS (dig : List Byte) : State := withHood (pairT .paired 0) (splice (zeros 512) 288 dig)
theorem wit_Weights : StreamTakes (weightS emptyDigest) (hdr 0) ∧ hoodLoaded (weightS emptyDigest) (5 : BitVec 16).toNat = true ∧
    hoodLoaded (weightS emptyDigest) (6 : BitVec 16).toNat = false ∧ (weightDigest (weightS emptyDigest) 5).2 = ((mfSection (manifest (weightS emptyDigest) 5) 4).2.2, false) ∧
    rangeHolds (weightS emptyDigest) ((hoodOf (weightS emptyDigest) 5).base, (hoodOf (weightS emptyDigest) 5).len) = false := by
  decide +kernel
theorem wit_Weights_differ : (weightDigest (weightS []) 5).2 ≠ ((mfSection (manifest (weightS []) 5) 4).2.2, false) ∧ (weightS []).twin.mode ≠ 0 ∧ hoodStaged (weightS []) 5 = [] ∧
    (hoodOf (weightS []) 5).partnerBad = false := by
  decide +kernel
/-- An order that waits for the verdict on hood 5; the hood's copy stands here, waits to be restored, or is not held. -/
def refS (own : Option Bool) : State :=
  { weightS emptyDigest with twin := { (weightS emptyDigest).twin with refereed := [⟨63, 0, 9, 5, own, none⟩] } }
def restoringS : State := setHood (weightS emptyDigest) 5 { hoodOf (weightS emptyDigest) 5 with state := 1 }
theorem wit_Weights_referee : holdsCopy (refS none) 5 = true ∧ StreamTakes (refS none) (hdr 0) ∧ (hoodOf (refS none) 5).partnerBad = false ∧
    (refS (some true)).twin.refereed = [⟨63, 0, 9, 5, some true, none⟩] ∧ emptyDigest = (mfSection (manifest (refS none) 5) 4).2.2 ∧
    holdsCopy restoringS 5 = true ∧ hoodLoaded restoringS 5 = false ∧ holdsCopy (weightS emptyDigest) 6 = false ∧ (weightS emptyDigest).twin.refereed = [] ∧
    hoodStaged (weightS emptyDigest) 5 = [] ∧ ([] : List Byte) ≠ (mfSection (manifest (weightS emptyDigest) 5) 4).2.2 := by decide +kernel
/-- A region whose slot A holds hood 5, with one pinned copy of no rows and the digest noted for it. -/
def pinS (dig : List Byte) : State :=
  modRegion { weightS emptyDigest with twin := Twin.reset } 63 fun g => { g with state := .serving, slotA := .active, hoodA := 5, pins := [(0, 0, dig)] }
/-- R515, R516: a pinned copy that differs from its noted digest kills the region with cause 2 in SOLO, and one that agrees does not. -/
theorem test_pinned_copy : after (exec (.weightDigestCheck 5 []) (pinS [])) (fun t => (regionOf t 63).killCause) = some 2 ∧
    after (exec (.weightDigestCheck 5 []) (pinS emptyDigest)) (fun t => (regionOf t 63).killCause) = some 0 := by decide +kernel
theorem wit_Forward : (5 : Nat) < (6 : Byte).toNat ∧ ({ pairT .paired 0 with twin := { (pairT .paired 0).twin with front := true } } : State).twin.front = true := by
  decide +kernel
def sessM (n : Fin 17) (role : BitVec 8) : SessionMsg := ⟨n, true, role, 1, 0, [], []⟩
theorem wit_TwinSession : (sessM 0 0).number.val = 0 ∧ 2 < (sessM 1 3).role.toNat ∧ (sessM 16 2).number.val ≠ 0 ∧ (sessM 16 2).role.toNat ≤ 2 := by decide +kernel
theorem wit_Protected : (usedT []).twin.mode ≠ 0 ∧ regionUsed (usedT []) (63 : RegionId) = true ∧ StreamTakes (usedT []) (hdr 0) := by decide +kernel

/-- A bring-up word in MB00 after a completed step. -/
def bootS (f : Boot → Boot) (word : Nat) : State :=
  { reg64Put (regPut State.reset (mbReg 0 8) 1) (mbReg 0 0) word with boot := f { Boot.reset with firmware := true, inReset := false, lastStep := 3 } }
theorem wit_BringUp_begins : (bootS id 4).boot.firmware = true ∧ mbFull (bootS id 4) 0 = true ∧ reg64 (bootS id 4) (mbReg 0 0) % 256 = 4 ∧
    (bootS id 4).boot.answers.length < 16 ∧ bringAccepted (bootS id 4) 4 = true ∧ bringBadArg (bootS id 4) 4 0 = false ∧
    ¬ ((bootS id 4).boot.running.isSome = true ∨ (bootS id 4).boot.auto.isSome = true) := by decide +kernel
theorem wit_BringUp_refused : bringAccepted (bootS id 5) 5 = false ∧ bringBadArg (bootS id 4) 4 (2 ^ 24) = true ∧ bringBadArg (bootS id 4) 4 1 = true ∧
    (bootS (fun b => { b with running := some (3, 0, 0) }) 4).boot.running.isSome = true ∧ reg64 (bootS id 15) (mbReg 0 0) % 256 = 15 := by decide +kernel
theorem wit_BringUp_auto : bringAccepted (bootS id 10) 10 = true ∧ bringAccepted (bootS (fun b => { b with lastStep := 1 }) 10) 10 = true ∧
    bringAccepted (bootS (fun b => { b with lastStep := 8 }) 10) 10 = true ∧ bringAccepted (bootS (fun b => { b with lastStep := 9 }) 10) 10 = false := by decide +kernel
theorem wit_BringUp_warm : bringAccepted (bootS (fun b => { b with lastStep := 9 }) 11) 11 = true := by decide +kernel

def obs0 : BringObs := ⟨none, [], [], [], [], [], [], [], []⟩
def stepS (n : Nat) (f : Boot → Boot) : State :=
  { State.reset with boot := f { Boot.reset with firmware := true, inReset := false, running := some (n, 0, 0) }, time := { TimeRec.reset with now := 80000000000 } }
theorem wit_Start : State.reset.boot.inReset = true ∧ State.reset.time.refA = true := by decide +kernel
theorem wit_Restart : (stepS 0 fun b => { b with restart := true }).boot.restart = true ∧ (stepS 0 id).otp.appending = [] := by decide +kernel
theorem wit_Steps : StepRuns (stepS 2 id) 2 0 0 ∧ StepRuns (stepS 3 id) 3 0 0 ∧ (stepS 3 id).boot.warm = false ∧ obs0.hbmStacks = [] ∧
    StepRuns (stepS 7 id) 7 0 0 ∧ StepRuns (stepS 8 id) 8 0 0 ∧ StepRuns (stepS 9 id) 9 0 0 := by decide +kernel
/-- Every stack trains; stack 0 exceeds its lanes. -/
def mixedObs : BringObs := { obs0 with hbmStacks := (List.finRange 24).map fun h => ⟨h, [], true, true, true, 0, h.val == 0, true⟩ }
theorem wit_Step3_trained : StepRuns (stepS 3 id) 3 0 0 ∧ (stepS 3 id).boot.warm = false ∧ dnum (stepS 3 id) 0x4000 0x12 ≠ 1 ∧
    trainCause false (mixedObs.hbmStacks.find? fun x => decide (x.stack.val = 0)) = 1 := by decide +kernel
theorem wit_Step4 : StepRuns (stepS 4 id) 4 0 0 ∧ clustersSettled (stepS 4 id) = true ∧
    clustersSettled (dputNum (stepS 4 fun b => { b with zoneMask := 1 }) 0x2010 0x08 1 1) = false := by decide +kernel
theorem wit_Step5 : StepRuns (stepS 5 id) 5 0 0 ∧ timeDone (stepS 5 id) 0 = false ∧ timeDone (stepS 5 id) 1 = true := by decide +kernel
def waitS (auto : Option (BitVec 8)) (n : Nat) : State := stepS n fun b => { b with lockWait := some 0, auto := auto }
theorem wit_Step6 : StepRuns (waitS none 6) 6 0 0 ∧ (waitS none 6).boot.lockWait = some 0 ∧ 0 + 32000000 ≤ now (waitS none 6) := by decide +kernel
theorem wit_LockWait : (waitS none 5).boot.running = some (5, 0, 0) ∧ (waitS none 5).boot.lockWait = some 0 ∧ 0 + 80000000000 ≤ now (waitS none 5) ∧
    timeDone (waitS none 5) 0 = false ∧ (waitS none 5).boot.auto = none ∧ (waitS (some 7) 5).boot.auto = some 7 := by decide +kernel

theorem wit_Rail : ({ State.reset with pins := { State.reset.pins with powerGood := true } } : State).pins.powerGood = true := by decide +kernel
theorem wit_ThermalTrip : State.reset.pins.thermTrip = false ∧ (23 < 24 ∧ (100 : Int) ≤ 100) ∧ (203 < 204 ∧ (105 : Int) ≤ 105) ∧
    (stackRec (setStack State.reset 23 { StackRec.reset with st := .up }) 23).st = .up := by decide +kernel
/-- An EEPROM whose link record gives every port a module cage, closed by its CRC. -/
def eepHead : List Byte := leBytes 4 0x4A584245 ++ leBytes 2 1 ++ leBytes 2 98 ++ [4] ++ leBytes 2 80 ++ List.replicate 80 3
def cagedS : State := dput (stepS 0 id) 0x7000 0x02 (eepHead ++ [0xFF] ++ leBytes 2 4 ++ leBytes 4 (crc32c eepHead))
theorem wit_Module : cagedS.boot.inReset = false ∧ linkMedia cagedS (19 : Fin 20) = 3 := by decide +kernel

def act (id activity scope test urgency : Nat) (running : Bool) : Maint :=
  { id := id, activity := activity, scope := scope, test := test, urgency := urgency, twinCover := false, requester := 0, time := 0,
    running := running, started := 0, waits := false }
def maintS (ms : List Maint) : State := later { on0 with maint := ms } 128000000
/-- A test of site 0 by its physical number waits. -/
def tst1 : Maint := act 1 2 0x8000 0 0 false
theorem wit_Maint_start : ActivityWaits (maintS [tst1]) tst1 ∧ startCondition (maintS [tst1]) tst1 = true ∧ blocked (maintS [tst1]) tst1 = false ∧
    targetDark (maintS [tst1]) tst1 = false := by decide +kernel
def row1 : Maint := act 1 8 0 0 0 false
theorem wit_Maint_condition : ActivityWaits (regPut (maintS [row1]) (spadReg 0 0) 1) row1 ∧ startCondition (regPut (maintS [row1]) (spadReg 0 0) 1) row1 = false := by
  decide +kernel
theorem wit_Maint_conflict : ∃ y ∈ (maintS [tst1, act 2 2 0x8000 1 0 true]).maint, y.running = true ∧ conflicts (maintS [tst1, act 2 2 0x8000 1 0 true]) tst1 y = true := by
  decide +kernel
def darkS : State := { maintS [tst1] with clusters := [] }
theorem wit_Maint_dark : ActivityWaits darkS tst1 ∧ startCondition darkS tst1 = true ∧ blocked darkS tst1 = false ∧ targetDark darkS tst1 = true := by decide +kernel
def window (s : State) : State := dput s 0x5200 0x04 (leBytes 8 0 ++ leBytes 8 (10 ^ 12) ++ leBytes 8 (10 ^ 9))
def hbm1 : Maint := act 1 6 0 0 0 false
theorem wit_Window : inWindow (maintS []) (crownTime (maintS [])) = false ∧ inWindow (window (maintS [hbm1])) (crownTime (window (maintS [hbm1]))) = true ∧
    ActivityWaits (window (maintS [hbm1])) hbm1 ∧ (window (maintS [hbm1])).maint.filter (fun m => decide (m.activity = 6 ∨ (m.activity = 2 ∧ m.urgency = 2))) = [hbm1] ∧
    startCondition (window (maintS [hbm1])) hbm1 = true ∧ blocked (window (maintS [hbm1])) hbm1 = false ∧ targetDark (window (maintS [hbm1])) hbm1 = false := by
  decide +kernel
def run1 : Maint := act 1 2 0x8000 0 0 true
theorem wit_TestEnd : TestRuns (maintS [run1]) run1 ∧ run1.started + testTime run1.test ≤ now (maintS [run1]) ∧
    now (later (maintS [run1]) 19199999) < run1.started + testTime run1.test ∧ targetSite (maintS [run1]) run1.scope = some 0 := by decide +kernel
theorem wit_TestEnd_dark : TestRuns { maintS [run1] with clusters := [] } run1 ∧ targetDark { maintS [run1] with clusters := [] } run1 = true := by decide +kernel
def d0 : Defect := ⟨1, 2, 0, 0, 0⟩
theorem wit_Append : ({ maintS [] with otp := { Otp.reset with appending := [(d0, 0)] } } : State).otp.appending = (d0, 0) :: [] ∧ 0 + 32000000 ≤ now (maintS []) := by
  decide +kernel

theorem wit_Generator : (zeros 32).length = 32 := by decide +kernel
theorem wit_RowWrite : (zeros 512).length = 512 ∧ (rowTags { on0 with spadTag := [(0, 7)] } (rowKey on0 0 0)).toNat.testBit 0 = true := by decide +kernel
/-- The smallest subnormal of FP8A (R33). -/
theorem wit_Formats : ∃ f, formatOf 6 = some f ∧ 1 < 2 ^ f.bits ∧ decodeVal f 1 ≠ .nan := ⟨_, rfl, by decide +kernel, by decide +kernel⟩
theorem wit_Alert : State.reset.alertFollows = true := by decide +kernel

end Sys2Proof.Tests

end
end

section
/-! PROOF. Requests in order: what a frame that carries a write, a group or a segment answers (R410, R414, R438, R439, R445). -/
namespace Sys2Proof.Machine
open Sys2Proof

/-! ## A request in order is performed -/

/-- The session of a request in order, as its performance finds it. -/
theorem sessionOf_arrived (f : Frame) (s : State) (x : Session) :
    sessionOf (arrived f s x) f.session.toNat = some (startedSession f s x) := sessionOf_setSession_same ..

/-- No request of a session that is not a pair session goes to the partner. -/
theorem forPartner_arrived (f : Frame) (s : State) (x : Session) (req : OdpRequest) (h : FrameReady f s x) :
    forPartner (arrived f s x) f.session.toNat req = false := by
  obtain ⟨-, -, -, -, -, -, -, -, -, hpair, -⟩ := h
  have hp : (startedSession f s x).pair = false := hpair
  simp [forPartner, sessionOf_arrived, hp]

/-- A command that carries a request in order performs the request and starts what waited for it. -/
theorem exec_ready (i : Instr) (f : Frame) (req : OdpRequest) (s : State) (x : Session)
    (he : exec i s = answer (odpArrive f req s)) (h : FrameReady f s x) (hlen : requestLength req ≤ 8256) :
    exec i s = .next (settlePins (pump f.session.toNat 256 (perform (arrived f s x) (frameCaller f x) f.seq req))) := by
  rw [he, odpArrive_ready f req s x h hlen, answer]

/-- A command whose request, once performed, has been answered replies to its frame. -/
theorem replies_of_perform (i : Instr) (f : Frame) (req : OdpRequest) (s a : State) (x : Session) (r : Response)
    (he : exec i s = answer (odpArrive f req s)) (h : FrameReady f s x) (hlen : requestLength req ≤ 8256)
    (hp : perform (arrived f s x) (frameCaller f x) f.seq req = finish a f.session.toNat f.seq r) : Replies i f s a r := by
  rw [Replies, exec_ready i f req s x he h hlen, hp]

/-! ## What the writes perform -/

/-- No request of a session that is not a pair session leaves for the partner when it is performed. -/
theorem not_forPartner_arrived (f : Frame) (s : State) (x : Session) (req : OdpRequest) (h : FrameReady f s x) :
    ¬ forPartner (arrived f s x) (frameCaller f x).session req = true := by
  rw [Bool.not_eq_true]
  exact forPartner_arrived f s x req h

theorem perform_write (f : Frame) (s : State) (x : Session) (i : BitVec 16) (b : BitVec 8) (v : List Byte) (aid : List JRecord) (h : FrameReady f s x) :
    perform (arrived f s x) (frameCaller f x) f.seq (.write i b v aid) =
      performWrite (arrived f s x) (frameCaller f x) f.seq i.toNat b.toNat v aid :=
  (if_neg (by simp [observerMay])).trans (if_neg (not_forPartner_arrived f s x _ h))

theorem perform_writeGroup (f : Frame) (s : State) (x : Session) (ws : List ObjWrite) (aid : List JRecord) (h : FrameReady f s x) :
    perform (arrived f s x) (frameCaller f x) f.seq (.writeGroup ws aid) =
      performWriteGroup (arrived f s x) (frameCaller f x) f.seq ws aid :=
  (if_neg (by simp [observerMay])).trans (if_neg (not_forPartner_arrived f s x _ h))

theorem perform_blockWrite (f : Frame) (s : State) (x : Session) (g : Segment) (aid : List JRecord) (h : FrameReady f s x) :
    perform (arrived f s x) (frameCaller f x) f.seq (.blockWrite g aid) =
      performBlockWrite (arrived f s x) (frameCaller f x) f.seq g aid :=
  (if_neg (by simp [observerMay])).trans (if_neg (not_forPartner_arrived f s x _ h))

/-! ## The commands behind the rows -/

/-- The command that a row's write frame carries: its object's index and subindex fit their fields. -/
theorem writeFrame_arrive (f : Frame) (idx sub : Nat) (v : List Byte) (s : State) (hi : idx < 2 ^ 16) (hb : sub < 2 ^ 8) :
    ∃ (i : BitVec 16) (b : BitVec 8), i.toNat = idx ∧ b.toNat = sub ∧ writeFrame f idx sub v s = answer (odpArrive f (.write i b v []) s) :=
  ⟨BitVec.ofNat 16 idx, BitVec.ofNat 8 sub, by simpa using hi, by simpa using hb, rfl⟩

/-- Every command that is a write carries a WRITE frame of its object. -/
theorem exec_of_writeOf (c : Instr) (f : Frame) (idx sub : Nat) (v : List Byte) (aid : List JRecord) (s : State)
    (h : writeOf c = some (f, idx, sub, v, aid)) :
    ∃ (i : BitVec 16) (b : BitVec 8), i.toNat = idx ∧ b.toNat = sub ∧ exec c s = answer (odpArrive f (.write i b v aid) s) := by
  unfold writeOf at h
  split at h <;> cases h
  case h_1 a i b => exact ⟨i, b, rfl, rfl, rfl⟩
  case h_16 => exact ⟨0x3600, 0x0F, rfl, rfl, rfl⟩
  all_goals exact writeFrame_arrive f _ _ _ s (by omega) (by omega)

/-- Every command that carries a segment carries a BLOCK_WRITE frame of it. -/
theorem exec_of_segmentOf (c : Instr) (f : Frame) (g : Segment) (aid : List JRecord) (s : State) (h : segmentOf c = some (f, g, aid)) :
    exec c s = answer (odpArrive f (.blockWrite g aid) s) := by
  unfold segmentOf at h
  split at h <;> cases h <;> rfl

theorem requestLength_write (i : BitVec 16) (b : BitVec 8) (v : List Byte) (aid : List JRecord) :
    requestLength (.write i b v aid) = 4 + v.length := by
  simp [requestLength, requestBytes, leBytes_length]; omega

theorem requestLength_blockWrite (g : Segment) (aid : List JRecord) : requestLength (.blockWrite g aid) = 64 + g.data.length := by
  simp [requestLength, requestBytes, leBytes_length, zeros]; omega

/-! ## What waits for the partner, or does not (R20, R439) -/

/-- At once in SOLO. -/
theorem deferOrRun_solo (s : State) (d : Deferred) (h : twinSolo s = true) : deferOrRun s d = runDeferred s d := by
  rw [deferOrRun, if_pos h]

/-- Otherwise behind every record written so far. -/
theorem deferOrRun_paired (s : State) (d : Deferred) (h : twinSolo s = false) :
    deferOrRun s d = { s with deferred := s.deferred ++ [{ d with upTo := s.journal.next }] } := by
  rw [deferOrRun, if_neg (by simp [h])]

/-- Writes of objects take effect in their order. -/
theorem foldl_writes (ws : List ObjWrite) (c : Caller) (aid : List JRecord) (s : State) (h : ∀ w ∈ ws, w.idx ≠ 0) :
    ws.foldl (fun s w => if w.idx = 0 then cancelApply s (BitVec.ofNat 32 (leNat w.value))
      else writeApply s c w.idx.toNat w.sub.toNat w.value aid) s =
      ws.foldl (fun s w => writeApply s c w.idx.toNat w.sub.toNat w.value aid) s := by
  induction ws generalizing s with
  | nil => rfl
  | cons w ws ih =>
    rw [List.foldl_cons, List.foldl_cons, if_neg (h w List.mem_cons_self)]
    exact ih _ fun y hy => h y (List.mem_cons_of_mem _ hy)

/-- Writes of objects that an open session waits for take effect and are answered. -/
theorem runDeferred_writes (s : State) (d : Deferred) (hs : d.session ≠ 0) (hw : ∀ w ∈ d.writes, w.idx ≠ 0) (hr : d.ringEntry = none) (hf : d.fetch = none) :
    runDeferred s d = finish (d.writes.foldl (fun t w => writeApply t (callerOf s d.session) w.idx.toNat w.sub.toNat w.value d.read_) s)
      d.session d.seq d.response := by
  unfold runDeferred
  dsimp only
  rw [foldl_writes _ _ _ _ hw, hr, hf]
  exact if_neg hs

/-- Index 0 has no object, so no journaled one. -/
theorem ne_zero_of_journaled (i : BitVec 16) (sub : Nat) (h : journaledObj i.toNat sub = true) : i ≠ 0 := by
  rintro rfl
  have hn : objRow 0 sub = none := by simp [objRow, objRowsAt]
  simp [journaledObj, hn] at h

/-! ## A checked write (R438) -/

/-- The request that a journaled write leaves. -/
def writeWaits (c : Caller) (seq : BitVec 32) (op : BitVec 8) (i : BitVec 16) (b : BitVec 8) (v : List Byte) (aid : List JRecord) : Deferred :=
  { session := c.session, seq := seq, upTo := 0, response := response op 0 [], writes := [⟨i, b, v⟩], read_ := aid, ringEntry := none, fetch := none }

theorem writeGo_plain (s : State) (c : Caller) (seq : BitVec 32) (op : BitVec 8) (idx sub : Nat) (v : List Byte) (aid : List JRecord)
    (h : journaledObj idx sub = false) :
    writeGo s c seq op idx sub v aid = finish (writeApply s c idx sub v aid) c.session seq (response op 0 []) := by
  simp [writeGo, h]

theorem writeGo_journaled (s : State) (c : Caller) (seq : BitVec 32) (op : BitVec 8) (i : BitVec 16) (b : BitVec 8) (v : List Byte) (aid : List JRecord)
    (h : journaledObj i.toNat b.toNat = true) :
    writeGo s c seq op i.toNat b.toNat v aid = deferOrRun (writeRecord s i.toNat b.toNat v) (writeWaits c seq op i b v aid) := by
  simp [writeGo, h, writeWaits]

/-- In SOLO a journaled write takes effect after its record and is answered. -/
theorem writeGo_solo (s : State) (c : Caller) (seq : BitVec 32) (op : BitVec 8) (i : BitVec 16) (b : BitVec 8) (v : List Byte) (aid : List JRecord)
    (hc : c.session ≠ 0) (h : journaledObj i.toNat b.toNat = true) (hs : twinSolo (writeRecord s i.toNat b.toNat v) = true) :
    writeGo s c seq op i.toNat b.toNat v aid =
      finish (writeApply (writeRecord s i.toNat b.toNat v) (callerOf (writeRecord s i.toNat b.toNat v) c.session) i.toNat b.toNat v aid)
        c.session seq (response op 0 []) := by
  have hw : ∀ w ∈ (writeWaits c seq op i b v aid).writes, w.idx ≠ 0 := by
    simpa [writeWaits] using ne_zero_of_journaled i b.toNat h
  rw [writeGo_journaled _ _ _ _ _ _ _ _ h, deferOrRun_solo _ _ hs, runDeferred_writes _ _ hc hw rfl rfl]
  rfl

theorem performWrite_refused (s : State) (c : Caller) (seq : BitVec 32) (idx sub : Nat) (v : List Byte) (aid : List JRecord)
    (h : (writeChecked s c idx sub v aid).2 ≠ 0) :
    performWrite s c seq idx sub v aid =
      finish (writeChecked s c idx sub v aid).1 c.session seq (response 0x11 (writeChecked s c idx sub v aid).2 []) := if_pos h

theorem performWrite_passed (s : State) (c : Caller) (seq : BitVec 32) (idx sub : Nat) (v : List Byte) (aid : List JRecord)
    (h : (writeChecked s c idx sub v aid).2 = 0) :
    performWrite s c seq idx sub v aid = writeGo (writeChecked s c idx sub v aid).1 c seq 0x11 idx sub v aid := if_neg (not_not_intro h)

/-! ## Groups (R445) -/

theorem performWriteGroup_failed (s : State) (c : Caller) (seq : BitVec 32) (ws : List ObjWrite) (aid : List JRecord) (i st : Nat)
    (hn : ws ≠ []) (hl : ws.length ≤ 32) (h : groupFails c aid ws [] 0 s = some (i, st)) :
    performWriteGroup s c seq ws aid = finish (groupTraces c aid (ws.take (i + 1)) s) c.session seq ⟨0x13, BitVec.ofNat 16 st, leBytes 2 i⟩ := by
  have hb : ¬ (ws = [] ∨ 32 < ws.length) := by simp [hn, hl]
  simp [performWriteGroup, hb, h]

theorem performWriteGroup_passed (s : State) (c : Caller) (seq : BitVec 32) (ws : List ObjWrite) (aid : List JRecord)
    (hc : c.session ≠ 0) (hn : ws ≠ []) (hl : ws.length ≤ 32) (h : groupFails c aid ws [] 0 s = none)
    (hj : (ws.all fun w => !journaledObj w.idx.toNat w.sub.toNat) = true) (hw : ∀ w ∈ ws, w.idx ≠ 0) :
    performWriteGroup s c seq ws aid =
      finish (ws.foldl (fun t w => writeApply t (callerOf (groupTraces c aid ws s) c.session) w.idx.toNat w.sub.toNat w.value aid) (groupTraces c aid ws s))
        c.session seq (response 0x13 0 []) := by
  have hb : ¬ (ws = [] ∨ 32 < ws.length) := by simp [hn, hl]
  have hf : (ws.filter fun w => journaledObj w.idx.toNat w.sub.toNat) = [] := by simpa [List.filter_eq_nil_iff] using hj
  simp only [performWriteGroup, hb, h, hf, if_false, if_true, List.foldl_nil]
  exact runDeferred_writes _ _ hc hw rfl rfl

/-! ## Segments (R414) -/

/-- The checks of a segment before its transfer: index, role and access. -/
def segmentCheck (s : State) (c : Caller) (g : Segment) : Nat :=
  firstOf [indexCheck g.idx.toNat g.sub.toNat, roleCheck c g.idx.toNat g.sub.toNat true, accessCheck s g.idx.toNat g.sub.toNat g.data]

theorem performBlockWrite_refused (s : State) (c : Caller) (seq : BitVec 32) (g : Segment) (aid : List JRecord) (h : segmentCheck s c g ≠ 0) :
    performBlockWrite s c seq g aid = finish s c.session seq (response 0x15 (segmentCheck s c g) []) := if_pos h

/-- A session that keeps no transfer of an object has none to drop. -/
theorem modSession_self (s : State) (n : Nat) (x : Session) (f : Session → Session) (hf : f x = x) : modSession (setSession s n x) n f = setSession s n x := by
  simp [modSession, hf]

/-- The first segment of a value, of a session without transfers: alone it is the write of its bytes, else it is kept. -/
theorem performBlockWrite_first (s : State) (n : Nat) (x : Session) (c : Caller) (seq : BitVec 32) (g : Segment) (aid : List JRecord)
    (hn : c.session = n) (hx : x.transfers = []) (h : segmentCheck (setSession s n x) c g = 0) (hfit : segmentFits g = true) (hfirst : g.first = true) :
    performBlockWrite (setSession s n x) c seq g aid =
      if g.last = true then
        (if (writeCheck (setSession s n x) c g.idx.toNat g.sub.toNat g.data aid).2 ≠ 0 then
          finish (writeCheck (setSession s n x) c g.idx.toNat g.sub.toNat g.data aid).1 n seq
            (response 0x15 (writeCheck (setSession s n x) c g.idx.toNat g.sub.toNat g.data aid).2 [])
        else writeGo (writeCheck (setSession s n x) c g.idx.toNat g.sub.toNat g.data aid).1 c seq 0x15 g.idx.toNat g.sub.toNat g.data aid)
      else finish (modSession (setSession s n x) n fun y => { y with transfers := [⟨g.idx, g.sub, g.total, g.data, now s⟩] }) n seq (response 0x15 0 []) := by
  subst hn
  have hdrop (p : Transfer → Bool) : modSession (setSession s c.session x) c.session (fun y => { y with transfers := y.transfers.filter p }) = setSession s c.session x :=
    modSession_self _ _ _ _ (by cases x; cases hx; rfl)
  have hkeep (t : Transfer) : modSession (setSession s c.session x) c.session (fun y => { y with transfers := y.transfers ++ [t] }) =
      modSession (setSession s c.session x) c.session (fun y => { y with transfers := [t] }) := by
    simp [modSession, hx]
  unfold segmentCheck at h
  simp only [performBlockWrite, h, hfit, hfirst, hdrop, hkeep, ne_eq, not_true_eq_false, if_false, Bool.true_or, Bool.and_self, Bool.not_true,
    Bool.false_eq_true, if_true]
  rfl

/-- An open session's number is not 0. -/
theorem frameCaller_session_ne_zero (f : Frame) (s : State) (x : Session) (h : FrameReady f s x) : (frameCaller f x).session ≠ 0 := by
  obtain ⟨-, -, ⟨hpos, -⟩, -⟩ := h
  exact Nat.ne_of_gt hpos

/-! ## What each of the three requests answers -/

section
variable (f : Frame) (s : State) (x : Session) (c : Instr) (aid : List JRecord)

/-- A command that is a write replies with its failing status, or replies OK once it has taken effect. -/
theorem write_replies (i : BitVec 16) (b : BitVec 8) (v : List Byte) (hr : FrameReady f s x) (he : exec c s = answer (odpArrive f (.write i b v aid) s))
    (hl : v.length ≤ 8252) (a : State) (r : Response)
    (hp : performWrite (arrived f s x) (frameCaller f x) f.seq i.toNat b.toNat v aid = finish a f.session.toNat f.seq r) : Replies c f s a r :=
  replies_of_perform c f _ s a x r he hr (by rw [requestLength_write]; omega) (by rw [perform_write f s x i b v aid hr, hp])

/-- Outside SOLO a passing write of a journaled object waits behind its WRITE record. -/
theorem write_waits (i : BitVec 16) (b : BitVec 8) (v : List Byte) (hr : FrameReady f s x) (he : exec c s = answer (odpArrive f (.write i b v aid) s))
    (hl : v.length ≤ 8252) (w : State)
    (hw : w = writeRecord (writeChecked (arrived f s x) (frameCaller f x) i.toNat b.toNat v aid).1 i.toNat b.toNat v)
    (hk : (writeChecked (arrived f s x) (frameCaller f x) i.toNat b.toNat v aid).2 = 0) (hj : journaledObj i.toNat b.toNat = true) (hs : twinSolo w = false) :
    exec c s = .next (settlePins (pump f.session.toNat 256
      { w with deferred := w.deferred ++ [{ writeWaits (frameCaller f x) f.seq 0x11 i b v aid with upTo := w.journal.next }] })) := by
  subst hw
  rw [exec_ready c f _ s x he hr (by rw [requestLength_write]; omega), perform_write f s x i b v aid hr, performWrite_passed _ _ _ _ _ _ _ hk,
    writeGo_journaled _ _ _ _ _ _ _ _ hj, deferOrRun_paired _ _ hs]

theorem writeGroup_replies (ws : List ObjWrite) (hr : FrameReady f s x) (hl : requestLength (.writeGroup ws aid) ≤ 8256) (a : State) (r : Response)
    (hp : performWriteGroup (arrived f s x) (frameCaller f x) f.seq ws aid = finish a f.session.toNat f.seq r) :
    Replies (.writeGroup ⟨f, aid⟩ ws) f s a r :=
  replies_of_perform _ f _ s a x r rfl hr hl (by rw [perform_writeGroup f s x ws aid hr, hp])

theorem blockWrite_replies (g : Segment) (hr : FrameReady f s x) (he : exec c s = answer (odpArrive f (.blockWrite g aid) s)) (hl : g.data.length ≤ 8192)
    (a : State) (r : Response) (hp : performBlockWrite (arrived f s x) (frameCaller f x) f.seq g aid = finish a f.session.toNat f.seq r) :
    Replies c f s a r :=
  replies_of_perform c f _ s a x r he hr (by rw [requestLength_blockWrite]; omega) (by rw [perform_blockWrite f s x g aid hr, hp])

/-- The first segment of a ready session without transfers. -/
theorem performBlockWrite_arrived (seq : BitVec 32) (g : Segment) (hx : x.transfers = []) (h : segmentCheck (arrived f s x) (frameCaller f x) g = 0)
    (hfit : segmentFits g = true) (hfirst : g.first = true) :
    performBlockWrite (arrived f s x) (frameCaller f x) seq g aid =
      if g.last = true then
        (if (writeCheck (arrived f s x) (frameCaller f x) g.idx.toNat g.sub.toNat g.data aid).2 ≠ 0 then
          finish (writeCheck (arrived f s x) (frameCaller f x) g.idx.toNat g.sub.toNat g.data aid).1 f.session.toNat seq
            (response 0x15 (writeCheck (arrived f s x) (frameCaller f x) g.idx.toNat g.sub.toNat g.data aid).2 [])
        else writeGo (writeCheck (arrived f s x) (frameCaller f x) g.idx.toNat g.sub.toNat g.data aid).1 (frameCaller f x) seq 0x15 g.idx.toNat g.sub.toNat
          g.data aid)
      else finish (modSession (arrived f s x) f.session.toNat fun y => { y with transfers := [⟨g.idx, g.sub, g.total, g.data, now s⟩] })
        f.session.toNat seq (response 0x15 0 []) :=
  performBlockWrite_first _ _ (startedSession f s x) _ seq g aid rfl hx h hfit hfirst

end

/-- Settles O31: each request is performed in the state its frame leaves (`exec_ready`), and the branch of its performance that the checks choose answers it. -/
theorem writesTakeEffectOrAreRefused : Obligations.WritesTakeEffectOrAreRefused := by
  intro f s x hr
  have hc := frameCaller_session_ne_zero f s x hr
  refine ⟨?_, ?_, ?_⟩
  · intro c idx sub v aid hof hl
    obtain ⟨i, b, rfl, rfl, he⟩ := exec_of_writeOf c f idx sub v aid s hof
    refine ⟨fun hk => ?_, fun hk hj => ?_, fun hk hj hs => ?_, fun hk hj hs => ?_⟩
    · exact write_replies f s x c aid i b v hr he hl _ _ (performWrite_refused _ _ _ _ _ _ _ hk)
    · exact write_replies f s x c aid i b v hr he hl _ _ ((performWrite_passed _ _ _ _ _ _ _ hk).trans (writeGo_plain _ _ _ _ _ _ _ _ hj))
    · exact write_replies f s x c aid i b v hr he hl _ _ ((performWrite_passed _ _ _ _ _ _ _ hk).trans (writeGo_solo _ _ _ _ _ _ _ _ hc hj hs))
    · exact ⟨_, rfl, rfl, rfl, rfl, by simp [writeWaits], write_waits f s x c aid i b v hr he hl _ rfl hk hj hs⟩
  · intro ws aid hlen hn hl
    refine ⟨fun i st hfail => ?_, fun hpass hj hw => ?_⟩
    · exact writeGroup_replies f s x aid ws hr hlen _ _ (performWriteGroup_failed _ _ _ _ _ _ _ hn hl hfail)
    · exact writeGroup_replies f s x aid ws hr hlen _ _ (performWriteGroup_passed _ _ _ _ _ hc hn hl hpass hj hw)
  · intro c g aid hof hl
    have he := exec_of_segmentOf c f g aid s hof
    refine ⟨fun hst => ?_, fun hst hfit hfirst hlast hx => ⟨fun hk => ?_, fun hk hj => ?_⟩, fun hst hfit hfirst hlast hx => ?_⟩
    · exact blockWrite_replies f s x c aid g hr he hl _ _ (performBlockWrite_refused _ _ _ _ _ hst)
    all_goals
      refine blockWrite_replies f s x c aid g hr he hl _ _ ?_
      rw [performBlockWrite_arrived f s x aid f.seq g hx hst hfit hfirst, hlast]
    · exact (if_pos rfl).trans (if_pos hk)
    · exact (if_pos rfl).trans ((if_neg (not_not_intro hk)).trans (writeGo_plain _ _ _ _ _ _ _ _ hj))
    · rfl

end Sys2Proof.Machine
end

section
/-! PROOF. Orders: what a SUBMIT enters, what a CANCEL closes or marks, and what a context or an
adapter copy that lands makes of its order (R20, R287, R296, R297, R299, R300). -/
namespace Sys2Proof.Machine
open Sys2Proof

/-! ## Orders in their list -/

theorem findOrder_tag (s : State) (tag : BitVec 32) (o : Order) (h : findOrder s tag = some o) : o.tag = tag := by
  simpa using List.find?_some h

theorem findOrder_mem (s : State) (tag : BitVec 32) (o : Order) (h : findOrder s tag = some o) : o ∈ s.orders := List.mem_of_find?_eq_some h

/-- An order is found by the list of orders alone. -/
theorem findOrder_congr (s t : State) (tag : BitVec 32) (h : t.orders = s.orders) : findOrder t tag = findOrder s tag := by
  rw [findOrder, h, findOrder]

/-- A change that keeps tags changes the order that is found. -/
theorem findOrder_modOrder (s : State) (u tag : BitVec 32) (f : Order → Order) (hf : ∀ o, (f o).tag = o.tag) :
    findOrder (modOrder s u f) tag = (findOrder s tag).map fun o => if o.tag = u then f o else o := by
  have hp : ((fun o : Order => decide (o.tag = tag)) ∘ fun o => if o.tag = u then f o else o) = fun o => decide (o.tag = tag) := by
    funext o
    simp only [Function.comp]
    split <;> simp [hf]
  rw [findOrder, modOrder, List.find?_map, hp, findOrder]

theorem findOrder_modOrder_same (s : State) (tag : BitVec 32) (o : Order) (f : Order → Order) (hf : ∀ o, (f o).tag = o.tag) (h : findOrder s tag = some o) :
    findOrder (modOrder s tag f) tag = some (f o) := by
  rw [findOrder_modOrder s tag tag f hf, h, Option.map_some, if_pos (findOrder_tag s tag o h)]

/-- A new order behind the others is found by its tag. -/
theorem findOrder_entered (s t : State) (tag : BitVec 32) (o : Order) (hs : findOrder s tag = none) (ho : o.tag = tag) (ht : t.orders = s.orders ++ [o]) :
    findOrder t tag = some o := by
  rw [findOrder] at hs
  rw [findOrder, ht, List.find?_append, hs]
  simp [ho]

/-! ## What the shared operations change, and nothing else -/

/-- What each step of a fold keeps, the fold keeps. -/
theorem foldl_related {α : Type} {R : State → State → Prop} (hr : ∀ s, R s s) (ht : ∀ {s t u}, R s t → R t u → R s u) (f : State → α → State)
    (h : ∀ s a, R s (f s a)) (l : List α) (s : State) : R s (l.foldl f s) := by
  induction l generalizing s with
  | nil => exact hr s
  | cons a l ih => exact ht (h s a) (ih _)

/-- `t` differs from `s` in the journal and in what has left at most. -/
def OnlyJournal (s t : State) : Prop := ∃ j o, t = { s with journal := j, out := s.out ++ o }

theorem onlyJournal_self (s : State) (j : Journal) : OnlyJournal s { s with journal := j } := ⟨j, [], by simp⟩

theorem onlyJournal_jPut (s : State) (type region : Nat) (tag : Option (BitVec 32)) (payload : List Byte) : OnlyJournal s (jPut s type region tag payload) := by
  unfold jPut
  dsimp only
  split
  · exact onlyJournal_self s _
  · exact ⟨_, [_], rfl⟩

theorem OnlyJournal.trans {s t u : State} (h : OnlyJournal s t) (k : OnlyJournal t u) : OnlyJournal s u := by
  obtain ⟨j, o, rfl⟩ := h
  obtain ⟨j', o', rfl⟩ := k
  exact ⟨j', o ++ o', by simp⟩

/-- A record appended changes the journal and the twin stream alone. -/
theorem onlyJournal_jAppend (s : State) (type region : Nat) (tag : Option (BitVec 32)) (payload : List Byte) : OnlyJournal s (jAppend s type region tag payload) := by
  refine OnlyJournal.trans ?_ (onlyJournal_jPut _ _ _ _ _)
  unfold jStart
  split
  · exact onlyJournal_self s s.journal
  · exact ((onlyJournal_self s _).trans (onlyJournal_self _ _)).trans (onlyJournal_jPut _ _ _ _ _)

/-- The record appended stands in the journal. -/
theorem mem_jAppend (s : State) (type region : Nat) (tag : Option (BitVec 32)) (payload : List Byte) :
    ∃ e ∈ (jAppend s type region tag payload).journal.entries, e.record.type = BitVec.ofNat 8 type ∧ e.record.payload = payload := by
  unfold jAppend jPut
  dsimp only
  split <;> exact ⟨_, List.mem_append_right _ List.mem_cons_self, rfl, rfl⟩

/-- What a reservation of an adapter can change: the caches, their counters and the owners of their units. -/
def OnlyReserved (s t : State) : Prop := ∃ cs dc rg, t = { s with caches := cs, dict := dc, regs := rg }

theorem OnlyReserved.trans {s t u : State} (h : OnlyReserved s t) (k : OnlyReserved t u) : OnlyReserved s u := by
  obtain ⟨_, _, _, rfl⟩ := h
  obtain ⟨cs, dc, rg, rfl⟩ := k
  exact ⟨cs, dc, rg, rfl⟩

theorem OnlyReserved.refl (s : State) : OnlyReserved s s := ⟨_, _, _, rfl⟩

theorem onlyReserved_fmTake (s : State) (n u k owner : Nat) : OnlyReserved s (fmTake s n u k owner) :=
  foldl_related OnlyReserved.refl OnlyReserved.trans _ (fun _ _ => ⟨_, _, _, rfl⟩) _ _

theorem onlyReserved_cacheUnits (s t : State) (n : Nat) (h : cacheUnits s n = some t) : OnlyReserved s t := by
  unfold cacheUnits at h
  dsimp only at h
  split at h
  · cases h
    exact OnlyReserved.refl _
  · split at h
    · cases h
    · cases h
      exact foldl_related OnlyReserved.refl OnlyReserved.trans _ (fun _ _ => onlyReserved_fmTake _ _ _ _ _) _ _

theorem onlyReserved_cacheMake (n k fuel : Nat) (s t : State) (h : cacheMake n k fuel s = some t) : OnlyReserved s t := by
  induction fuel generalizing s with
  | zero => cases h
  | succ fuel ih =>
    unfold cacheMake at h
    split at h
    · cases h
      exact OnlyReserved.refl _
    · split at h
      · exact OnlyReserved.trans ⟨_, _, _, rfl⟩ (ih _ h)
      · cases h

theorem onlyReserved_cacheReserve (s t : State) (tag : BitVec 32) (a n : Nat) (c : Bool) (h : cacheReserve s tag a n = some (t, c)) : OnlyReserved s t := by
  unfold cacheReserve at h
  dsimp only at h
  split at h
  · cases h
    exact ⟨_, _, _, rfl⟩
  · split at h
    · cases h
    · rename_i u hu
      obtain ⟨v, hv, hm⟩ := Option.bind_eq_some_iff.mp hu
      cases h
      exact ((onlyReserved_cacheUnits s v n hv).trans (onlyReserved_cacheMake _ _ _ _ _ hm)).trans ⟨_, _, _, rfl⟩

/-- An adapter reserved in every field changes what one reservation can. -/
theorem onlyReserved_reserveAll (tag : BitVec 32) (a : Nat) (ns : List Nat) (s t : State) (left : List Nat) (h : reserveAll tag a ns s = some (t, left)) :
    OnlyReserved s t := by
  induction ns generalizing s t left with
  | nil =>
    cases h
    exact OnlyReserved.refl _
  | cons n ns ih =>
    unfold reserveAll at h
    split at h
    · cases h
    · rename_i u c hu
      split at h
      · cases h
      · rename_i v l hv
        cases h
        exact (onlyReserved_cacheReserve s u tag a n c hu).trans (ih u _ _ hv)

/-! ## Answers, with nothing waiting behind them -/

/-- No request of a session is held. -/
def Idle (s : State) (n : Nat) : Prop := ∀ x, sessionOf s n = some x → x.held = []

theorem idle_arrived (f : Frame) (s : State) (x : Session) : Idle (arrived f s x) f.session.toNat := by
  intro y hy
  cases (sessionOf_arrived f s x).symm.trans hy
  rfl

theorem idle_setSession (s : State) (n : Nat) (x : Session) (h : x.held = []) : Idle (setSession s n x) n := by
  intro y hy
  cases (sessionOf_setSession_same s n x).symm.trans hy
  exact h

/-- With nothing held nothing starts. -/
theorem pump_idle (s : State) (n k : Nat) (h : Idle s n) : pump n k s = s := by
  cases k with
  | zero => rfl
  | succ k =>
    unfold pump
    split
    · rfl
    · rename_i x hx
      rw [h x hx]

/-- A command whose request is performed with nothing waiting behind it answers what the request left. -/
theorem answers_of_perform (i : Instr) (f : Frame) (req : OdpRequest) (s t : State) (x : Session)
    (he : exec i s = answer (odpArrive f req s)) (h : FrameReady f s x) (hlen : requestLength req ≤ 8256)
    (hp : perform (arrived f s x) (frameCaller f x) f.seq req = t) (hi : Idle t f.session.toNat) : Answers i s (settlePins t) := by
  rw [Answers, exec_ready i f req s x he h hlen, hp, pump_idle t _ _ hi]

/-- `t` differs from `s` in the sessions, in the counter of frames sent and in what has left at most, and no request waits in session `n`. -/
def OnlyAnswer (n : Nat) (s t : State) : Prop :=
  Idle t n ∧ dnum t 0x3400 0x05 = dnum s 0x3400 0x05 ∧ ∃ ss dc o, t = { s with sessions := ss, dict := dc, out := s.out ++ o }

theorem dnum_sendFrame (s : State) (p : HostPort) (o : Output) : dnum (sendFrame s p o) 0x3400 0x05 = dnum s 0x3400 0x05 :=
  dnum_dcount_other _ _ _ _ _ _ _ (by unfold objKey; omega)

/-- An answer to a session of the device's own changes its session, the counter of its port and what has left. -/
theorem onlyAnswer_finish (s : State) (n : Nat) (seq : BitVec 32) (r : Response) (hn : n ≤ 16) (hi : Idle s n) : OnlyAnswer n s (finish s n seq r) := by
  have hself : OnlyAnswer n s s := ⟨hi, rfl, s.sessions, s.dict, [], by simp⟩
  unfold finish
  rw [if_neg (by omega)]
  split
  · exact hself
  · rename_i x hx
    split
    · exact hself
    · dsimp only
      split
      · exact ⟨idle_setSession s n _ (hi x hx), dnum_sendFrame _ _ _, _, _, [_], rfl⟩
      · exact ⟨idle_setSession s n _ (hi x hx), rfl, _, s.dict, [], by rw [List.append_nil]; rfl⟩

/-- A started request is answered by its own port while frames pass there. -/
theorem mem_out_finish (s : State) (n : Nat) (seq : BitVec 32) (p : HostPort) (x : Session) (r : Response) (hn : n ≤ 16) (hx : sessionOf s n = some x)
    (hs : x.started = [(seq, p)]) (hp : portUp s (portNo p) = true) : .odp p n seq x.received r ∈ (finish s n seq r).out := by
  have ho (y : Session) : outPort (setSession s n y) p = some p := if_pos hp
  unfold finish
  rw [if_neg (by omega), hx]
  simp only [hs, List.find?_cons, decide_true, ho]
  exact List.mem_append_right _ List.mem_cons_self

/-- Whether frames pass through a port does not depend on counters. -/
theorem portUp_dcount (s : State) (i j n k p : Nat) (hj : j ≠ 2) (hj' : j < 256) : portUp (dcount s i j n k) p = portUp s p := by
  have h : dnum (dcount s i j n k) (0x1100 + p) 0x02 = dnum s (0x1100 + p) 0x02 := dnum_dcount_other _ _ _ _ _ _ _ (by unfold objKey; omega)
  simp only [portUp, portOn, h]
  rfl

theorem portUp_arrived (f : Frame) (s : State) (x : Session) (h : FrameReady f s x) : portUp (arrived f s x) (portNo f.port) = true := by
  obtain ⟨⟨hp, -⟩, -⟩ := h
  exact (portUp_dcount s _ 0x0E _ _ _ (by omega) (by omega)).trans hp

/-! ## The close of an order -/

/-- `t` differs from `s` at most in what the end of an order writes: journal, completion rings, held results, logs and the error block. -/
def OnlyWritten (s t : State) : Prop :=
  ∃ j o hr rn vl rg eb, t = { s with journal := j, out := o, heldResults := hr, rings := rn, vlog := vl, regs := rg, errBuf := eb }

theorem OnlyWritten.refl (s : State) : OnlyWritten s s := ⟨_, _, _, _, _, _, _, rfl⟩

theorem OnlyWritten.trans {s t u : State} (h : OnlyWritten s t) (k : OnlyWritten t u) : OnlyWritten s u := by
  obtain ⟨_, _, _, _, _, _, _, rfl⟩ := h
  obtain ⟨j, o, hr, rn, vl, rg, eb, rfl⟩ := k
  exact ⟨j, o, hr, rn, vl, rg, eb, rfl⟩

theorem OnlyWritten.kept {s t : State} (h : OnlyWritten s t) : t.orders = s.orders ∧ t.sessions = s.sessions ∧ t.dict = s.dict := by
  obtain ⟨_, _, _, _, _, _, _, rfl⟩ := h
  exact ⟨rfl, rfl, rfl⟩

theorem OnlyJournal.written {s t : State} (h : OnlyJournal s t) : OnlyWritten s t := by
  obtain ⟨_, _, rfl⟩ := h
  exact ⟨_, _, _, _, _, _, _, rfl⟩

theorem KeepsButErr.eq {s t : State} (h : KeepsButErr s t) : t = { s with regs := t.regs, errBuf := t.errBuf } := by
  unfold KeepsButErr at h
  rw [← h]

theorem onlyWritten_record (s : State) (kind region tile unit : Nat) (body : List Byte) : OnlyWritten s (record s kind region tile unit body) :=
  ⟨_, _, _, _, _, _, _, (record_keeps s kind region tile unit body).eq⟩

theorem onlyWritten_ringPush (s : State) (ring : Nat) (entry : List Byte) (data : List (Nat × Nat × List Byte)) : OnlyWritten s (ringPush s ring entry data) := by
  unfold ringPush
  split
  · dsimp only
    split
    · exact OnlyWritten.refl s
    · split
      · unfold vlogRoce vlogAdd
        dsimp only
        split <;> exact ⟨_, _, _, _, _, _, _, rfl⟩
      · exact ⟨_, _, _, _, _, _, _, rfl⟩
  · exact ⟨_, _, _, _, _, _, _, rfl⟩

theorem onlyWritten_applyDelivery (s : State) (d : Delivery) : OnlyWritten s (applyDelivery s d) := by
  unfold applyDelivery
  refine OnlyWritten.trans ?_ (onlyWritten_ringPush _ _ _ _)
  split
  · exact ⟨_, _, _, _, _, _, _, rfl⟩
  · exact OnlyWritten.refl s

/-- A delivery that does not wait for a comparison is made, or a shadow's is dropped. -/
theorem onlyWritten_deliver (s : State) (d : Delivery) : OnlyWritten s (deliver s false d) := by
  unfold deliver
  split
  · exact OnlyWritten.refl s
  · exact onlyWritten_applyDelivery s d

theorem onlyWritten_cancelLapsed (s : State) (o : Order) : OnlyWritten s (cancelLapsed s o) := by
  unfold cancelLapsed
  split
  · exact (onlyJournal_jAppend _ _ _ _ _).written
  · exact OnlyWritten.refl s

/-- The close of an order up to its CLOSE record. -/
def closeRecorded (s : State) (o : Order) (status step : Nat) : State :=
  let s := if status = 0x10 then s else cancelLapsed s o
  if o.shadowOnly then s else jAppend s 7 o.region (some o.tag) (leBytes 4 o.tag.toNat ++ leBytes 4 status ++ leBytes 8 step)

/-- The close of an order up to its counter. -/
def closeCounted (s : State) (o : Order) (status step : Nat) : State :=
  if o.shadowOnly then closeRecorded s o status step else countFinal (closeRecorded s o status step) status

theorem onlyWritten_closeRecorded (s : State) (o : Order) (status step : Nat) : OnlyWritten s (closeRecorded s o status step) := by
  have hl : OnlyWritten s (if status = 0x10 then s else cancelLapsed s o) := by
    split
    · exact OnlyWritten.refl s
    · exact onlyWritten_cancelLapsed s o
  unfold closeRecorded
  dsimp only
  split
  · exact hl
  · exact hl.trans (onlyJournal_jAppend _ _ _ _ _).written

/-- The close of an order once it is counted: its delivery, and a record of a loss, before it leaves. -/
theorem closeOrder_writes (s : State) (o : Order) (status step before : Nat) :
    ∃ v, OnlyWritten (closeCounted s o status step) v ∧ closeOrder s o status step before false = jTrim (forgetOrder v o) := by
  refine ⟨_, ?_, rfl⟩
  split
  · exact (onlyWritten_deliver _ _).trans (onlyWritten_record _ _ _ _ _ _)
  · exact onlyWritten_deliver _ _

/-- `t` differs from `s` in the regions at most. -/
def OnlyRegions (s t : State) : Prop := ∃ g, t = { s with regions := g }

theorem OnlyRegions.refl (s : State) : OnlyRegions s s := ⟨_, rfl⟩

theorem OnlyRegions.trans {s t u : State} (h : OnlyRegions s t) (k : OnlyRegions t u) : OnlyRegions s u := by
  obtain ⟨_, rfl⟩ := h
  obtain ⟨g, rfl⟩ := k
  exact ⟨g, rfl⟩

/-- Slots that return to their pools change the regions alone. -/
theorem onlyRegions_settleOrphans (s : State) : OnlyRegions s (settleOrphans s) := by
  refine foldl_related OnlyRegions.refl OnlyRegions.trans _ (fun t r => ?_) _ _
  dsimp only
  split
  · exact OnlyRegions.refl t
  · exact ⟨_, rfl⟩

/-- An order that leaves is dropped from the orders; sessions and objects stay. -/
theorem forgetOrder_leaves (s : State) (o : Order) :
    (forgetOrder s o).orders = s.orders.filter (fun p => decide (p.tag ≠ o.tag)) ∧ (forgetOrder s o).sessions = s.sessions ∧
      (forgetOrder s o).dict = s.dict := by
  unfold forgetOrder
  dsimp only
  generalize hm : modRegion (releaseAdapter (dropOrder s o.tag) o.tag) o.region _ = m
  obtain ⟨g, hg⟩ := onlyRegions_settleOrphans m
  rw [hg]
  subst hm
  exact ⟨rfl, rfl, rfl⟩

@[simp] theorem jTrim_orders (s : State) : (jTrim s).orders = s.orders := rfl
@[simp] theorem jTrim_sessions (s : State) : (jTrim s).sessions = s.sessions := rfl
@[simp] theorem jTrim_dict (s : State) : (jTrim s).dict = s.dict := rfl

/-- What the close of an order leaves: the other orders, and the sessions and objects as they were once it was counted. -/
theorem closeOrder_leaves (s : State) (o : Order) (status step before : Nat) :
    (closeOrder s o status step before false).orders = s.orders.filter (fun p => decide (p.tag ≠ o.tag)) ∧
      (closeOrder s o status step before false).sessions = s.sessions ∧
      (closeOrder s o status step before false).dict = (closeCounted s o status step).dict := by
  obtain ⟨v, hv, hc⟩ := closeOrder_writes s o status step before
  obtain ⟨hfo, hfs, hfd⟩ := forgetOrder_leaves v o
  obtain ⟨hro, hrs, -⟩ := (onlyWritten_closeRecorded s o status step).kept
  obtain ⟨hvo, hvs, hvd⟩ := hv.kept
  have hcount : (closeCounted s o status step).orders = s.orders ∧ (closeCounted s o status step).sessions = s.sessions := by
    rw [← hro, ← hrs]
    unfold closeCounted countFinal
    refine ⟨?_, ?_⟩ <;> split <;> (try split) <;> (try split) <;> rfl
  obtain ⟨ho, hs⟩ := hcount
  rw [hc, jTrim_orders, jTrim_sessions, jTrim_dict, hfo, hfs, hfd, hvo, hvs, hvd]
  exact ⟨by rw [ho], hs, rfl⟩

/-- A cancelled order of this member's own is counted. -/
theorem closeOrder_counts (s : State) (o : Order) (step before : Nat) (h : o.shadowOnly = false) :
    dnum (closeOrder s o 0x10 step before false) 0x3400 0x05 = (dnum s 0x3400 0x05 + 1) % 2 ^ 64 := by
  obtain ⟨-, -, hd⟩ := closeOrder_leaves s o 0x10 step before
  obtain ⟨-, -, hr⟩ := (onlyWritten_closeRecorded s o 0x10 step).kept
  calc dnum (closeOrder s o 0x10 step before false) 0x3400 0x05
      = dnum (closeCounted s o 0x10 step) 0x3400 0x05 := by rw [dnum, dget, hd]; rfl
    _ = (dnum (closeRecorded s o 0x10 step) 0x3400 0x05 + 1) % 2 ^ 64 := by
      rw [closeCounted, if_neg (by simp [h])]
      exact dnum_dcount_same ..
    _ = (dnum s 0x3400 0x05 + 1) % 2 ^ 64 := by rw [dnum, dget, hr]; rfl

theorem session_le_of_ready (f : Frame) (s : State) (x : Session) (h : FrameReady f s x) : f.session.toNat ≤ 16 := by
  obtain ⟨-, -, ⟨-, hn⟩, -⟩ := h
  exact hn

/-! ## CANCEL (R300) -/

theorem perform_cancel (f : Frame) (s : State) (x : Session) (target : BitVec 32) (h : FrameReady f s x) (hx : x.role ≠ 2) :
    perform (arrived f s x) (frameCaller f x) f.seq (.cancel target) = performCancel (arrived f s x) (frameCaller f x) f.seq target :=
  (if_neg (by simp [frameCaller, hx])).trans (if_neg (not_forPartner_arrived f s x _ h))

/-- In SOLO a CANCEL with room for its record is journaled, applied and answered. -/
theorem performCancel_solo (s : State) (c : Caller) (seq target : BitVec 32) (hc : c.session ≠ 0) (hr : jRoom s 5 false = true)
    (hs : twinSolo (cancelJournal s target 1) = true) :
    performCancel s c seq target = finish (cancelApply (cancelJournal s target 1) target) c.session seq (response 0x31 0 []) := by
  have ht : BitVec.ofNat 32 (leNat (leBytes 4 target.toNat)) = target := by
    rw [leNat_leBytes, show 256 ^ 4 = 2 ^ 32 from rfl, Nat.mod_eq_of_lt target.isLt, BitVec.ofNat_toNat, BitVec.setWidth_eq]
  unfold performCancel
  rw [hr, Bool.not_true, if_neg (by decide), deferOrRun_solo _ _ hs]
  unfold runDeferred
  simp only [List.foldl_cons, List.foldl_nil, if_true, ht]
  exact if_neg hc

theorem onlyJournal_cancelJournal (s : State) (target : BitVec 32) (by_ : Nat) : OnlyJournal s (cancelJournal s target by_) := onlyJournal_jAppend ..

theorem onlyJournal_cancelEffect (s : State) (r : Nat) (target : BitVec 32) (step : Nat) (n : Bool) : OnlyJournal s (cancelEffect s r target step n) :=
  onlyJournal_jAppend ..

/-- What a command of the journal keeps. -/
theorem OnlyJournal.kept {s t : State} (h : OnlyJournal s t) :
    t.orders = s.orders ∧ t.regions = s.regions ∧ t.sessions = s.sessions ∧ t.dict = s.dict ∧ t.twin = s.twin := by
  obtain ⟨_, _, rfl⟩ := h
  exact ⟨rfl, rfl, rfl, rfl, rfl⟩

/-- A CANCEL of an unknown tag writes its effect in the journal. -/
theorem cancelApply_unknown (s : State) (target : BitVec 32) (h : findOrder s target = none) : OnlyJournal s (cancelApply s target) := by
  unfold cancelApply
  rw [h]
  exact onlyJournal_cancelEffect _ _ _ _ _

/-- A CANCEL closes a target that has not started, after its effect is journaled. -/
theorem cancelApply_waiting (s : State) (target : BitVec 32) (o : Order) (h : findOrder s target = some o) (hw : o.state = .pending ∨ o.state = .eligible) :
    ∃ t step, OnlyJournal s t ∧ cancelApply s target = closeOrder t o 0x10 step 0 false := by
  refine ⟨_, (regionOf s o.region).stepNo + 1, onlyJournal_cancelEffect s o.region target ((regionOf s o.region).stepNo + 1) false, ?_⟩
  unfold cancelApply
  rw [h]
  rcases hw with hw | hw <;> simp only [hw]

/-- A CANCEL marks a target that runs. -/
theorem cancelApply_running (s : State) (target : BitVec 32) (o : Order) (h : findOrder s target = some o) (hw : o.state = .running) :
    cancelApply s target = modOrder s target fun o => { o with cancelPending := true } := by
  unfold cancelApply
  rw [h]
  simp only [hw]

section
variable (f : Frame) (s : State) (x : Session) (target : BitVec 32)

/-- A CANCEL in order in SOLO answers the state that its application leaves, but for the answer itself. -/
theorem cancel_answers (h : FrameReady f s x) (hx : x.role ≠ 2) (hr : jRoom (arrived f s x) 5 false = true) (hs : twinSolo s = true) (b : State)
    (hb : cancelApply (cancelJournal (arrived f s x) target 1) target = b) (hbs : b.sessions = (arrived f s x).sessions) :
    ∃ t, Answers (.cancel f target) s (settlePins t) ∧ OnlyAnswer f.session.toNat b t := by
  obtain ⟨-, -, -, -, htw⟩ := (onlyJournal_cancelJournal (arrived f s x) target 1).kept
  have hsolo : twinSolo (cancelJournal (arrived f s x) target 1) = true := by
    rw [← hs, twinSolo, htw]
    rfl
  have hidle : Idle b f.session.toNat := by
    intro y hy
    rw [sessionOf, hbs] at hy
    exact idle_arrived f s x y hy
  have hans := onlyAnswer_finish b f.session.toNat f.seq (response 0x31 0 []) (session_le_of_ready f s x h) hidle
  refine ⟨_, answers_of_perform _ f (.cancel target) s _ x rfl h ?_ ?_ hans.1, hans⟩
  · simp [requestLength, requestBytes, leBytes_length]
  · rw [perform_cancel f s x target h hx, performCancel_solo _ _ _ _ (frameCaller_session_ne_zero f s x h) hr hsolo, hb]
    rfl

/-- The counter of cancelled orders is not one that a frame's arrival advances. -/
theorem dnum_arrived : dnum (arrived f s x) 0x3400 0x05 = dnum s 0x3400 0x05 := dnum_dcount_other _ _ _ _ _ _ _ (by unfold objKey; omega)

end

theorem OnlyAnswer.kept {n : Nat} {s t : State} (h : OnlyAnswer n s t) : t.orders = s.orders ∧ t.regions = s.regions ∧ t.journal = s.journal := by
  obtain ⟨-, -, _, _, _, rfl⟩ := h
  exact ⟨rfl, rfl, rfl⟩

/-- A CANCEL of an unknown tag changes no order and no region. -/
theorem cancel_unknown (f : Frame) (s : State) (x : Session) (target : BitVec 32) (h : FrameReady f s x) (hx : x.role ≠ 2)
    (hr : jRoom (arrived f s x) 5 false = true) (hs : twinSolo s = true) (ht : findOrder s target = none) :
    ∃ t, Answers (.cancel f target) s t ∧ t.orders = s.orders ∧ t.regions = s.regions := by
  have hj := onlyJournal_cancelJournal (arrived f s x) target 1
  have ha := hj.trans (cancelApply_unknown _ target ((findOrder_congr _ _ _ hj.kept.1).trans ht))
  obtain ⟨hao, har, has, -⟩ := ha.kept
  obtain ⟨t, he, hk⟩ := cancel_answers f s x target h hx hr hs _ rfl has
  obtain ⟨hto, htr, -⟩ := hk.kept
  exact ⟨_, he, hto.trans hao, htr.trans har⟩

/-- A CANCEL closes an order that has not started, counts it, and leaves the others. -/
theorem cancel_waiting (f : Frame) (s : State) (x : Session) (target : BitVec 32) (o : Order) (h : FrameReady f s x) (hx : x.role ≠ 2)
    (hr : jRoom (arrived f s x) 5 false = true) (hs : twinSolo s = true) (ho : findOrder s target = some o) (hw : o.state = .pending ∨ o.state = .eligible) :
    ∃ t, Answers (.cancel f target) s t ∧ findOrder t target = none ∧ (∀ p ∈ s.orders, p.tag ≠ target → p ∈ t.orders) ∧
      (o.shadowOnly = false → dnum t 0x3400 0x05 = (dnum s 0x3400 0x05 + 1) % 2 ^ 64) := by
  have hj := onlyJournal_cancelJournal (arrived f s x) target 1
  obtain ⟨u, step, hu, hc⟩ := cancelApply_waiting _ target o ((findOrder_congr _ _ _ hj.kept.1).trans ho) hw
  obtain ⟨huo, -, hus, hud, -⟩ := (hj.trans hu).kept
  obtain ⟨hco, hcs, -⟩ := closeOrder_leaves u o 0x10 step 0
  obtain ⟨t, he, hk⟩ := cancel_answers f s x target h hx hr hs _ hc (hcs.trans hus)
  have hto : (settlePins t).orders = s.orders.filter fun p => decide (p.tag ≠ target) := by
    rw [← findOrder_tag s target o ho]
    exact hk.kept.1.trans (hco.trans (by rw [huo]; rfl))
  refine ⟨_, he, ?_, fun p hp hne => ?_, fun hsh => ?_⟩
  · rw [findOrder, hto]
    simp
  · rw [hto]
    simp [hp, hne]
  · obtain ⟨-, hd, -⟩ := hk
    have hdu : dnum u 0x3400 0x05 = dnum s 0x3400 0x05 := by
      rw [dnum, dget, hud]
      exact dnum_arrived f s x
    rw [← hdu]
    exact hd.trans (closeOrder_counts u o step 0 hsh)

/-- A CANCEL of an order that runs marks it alone. -/
theorem cancel_running (f : Frame) (s : State) (x : Session) (target : BitVec 32) (o : Order) (h : FrameReady f s x) (hx : x.role ≠ 2)
    (hr : jRoom (arrived f s x) 5 false = true) (hs : twinSolo s = true) (ho : findOrder s target = some o) (hw : o.state = .running) :
    ∃ t, Answers (.cancel f target) s t ∧ findOrder t target = some { o with cancelPending := true } ∧ t.regions = s.regions := by
  have hj := onlyJournal_cancelJournal (arrived f s x) target 1
  obtain ⟨hjo, hjr, hjs, -⟩ := hj.kept
  have hf := (findOrder_congr _ _ target hjo).trans ho
  obtain ⟨t, he, hk⟩ := cancel_answers f s x target h hx hr hs _ (cancelApply_running _ target o hf hw) hjs
  obtain ⟨hto, htr, -⟩ := hk.kept
  exact ⟨_, he, (findOrder_congr _ _ target hto).trans (findOrder_modOrder_same _ target o _ (fun _ => rfl) hf), htr.trans hjr⟩

/-! ## The record of an order with its region (R295, R326) -/

theorem withRegion_eq_set (b : List Byte) (r : Nat) (h : b.length = 128) : withRegion b r = b.set 6 (BitVec.ofNat 8 r) := by
  rw [List.set_eq_take_append_cons_drop, if_pos (by omega), withRegion, splice, h]
  simp

/-- The region's byte is none of another field's. -/
theorem leAt_withRegion (b : List Byte) (r o n : Nat) (h : b.length = 128) (ho : o + n ≤ 6 ∨ 6 < o) : leAt (withRegion b r) o n = leAt b o n := by
  have hs : ((b.set 6 (BitVec.ofNat 8 r)).drop o).take n = (b.drop o).take n := by
    rw [List.drop_set]
    split
    · rfl
    · rw [List.take_set, List.set_eq_of_length_le]
      simp; omega
  rw [leAt, slice, withRegion_eq_set b r h, hs]
  rfl

theorem contextTokens_withRegion (b : List Byte) (r : Nat) (h : b.length = 128) :
    recContext (withRegion b r) + recCont (withRegion b r) = recContext b + recCont b := by
  unfold recContext recCont recKind
  simp only [leAt_withRegion b r _ _ h (.inr (by omega : 6 < 12)), leAt_withRegion b r _ _ h (.inl (by omega : 4 + 1 ≤ 6)),
    leAt_withRegion b r _ _ h (.inr (by omega : 6 < 96))]

/-! ## What the choice and the slots of an order rest on -/

theorem chooseRegion_congr (s t : State) (b : List Byte) (ho : t.orders = s.orders) (hr : t.regions = s.regions) : chooseRegion t b = chooseRegion s b := by
  simp only [chooseRegion, holdsHood, openCount, regionOrders, regionOf, ho, hr] <;> rfl

theorem kvSlots_congr (s t : State) (r : Nat) (b : List Byte) (ho : t.orders = s.orders) (hr : t.regions = s.regions) (hh : t.hoods = s.hoods) :
    kvSlots t r b = kvSlots s r b := by
  simp only [kvSlots, kvUsed, slotSizes, orderManifest, manifest, hoodOf, totalContext, prefixLen, findOrder, regionOrders, regionOf, ho, hr, hh] <;> rfl

/-- An order that passes the checks has a tag that no order has (R296). -/
theorem findOrder_of_submitCheck (s : State) (n : Nat) (b : List Byte) (hk : recKind b ≠ 6) (h : submitCheck s n b = 0) :
    findOrder s (BitVec.ofNat 32 (leAt b 0 4)) = none := by
  refine Decidable.byContradiction fun hne => ?_
  have hsome : (findOrder s (BitVec.ofNat 32 (leAt b 0 4))).isSome = true := Option.isSome_iff_ne_none.mpr hne
  unfold submitCheck at h
  simp only [hk, hsome, if_false, Bool.true_or, if_true] at h
  repeat' split at h
  all_goals exact absurd h (by decide)

/-! ## SUBMIT (R20, R296) -/

theorem perform_submit (f : Frame) (s : State) (x : Session) (b : List Byte) (h : FrameReady f s x) (hx : x.role ≠ 2) :
    perform (arrived f s x) (frameCaller f x) f.seq (.submit b) = performSubmit (arrived f s x) (frameCaller f x) f.seq b :=
  (if_neg (by simp [frameCaller, hx])).trans (if_neg (not_forPartner_arrived f s x _ h))

/-- A SUBMIT with a failing check is answered with that status; at most it is counted. -/
theorem performSubmit_refused (s : State) (c : Caller) (seq : BitVec 32) (b : List Byte) (hb : b.length = 128) (hr : resentOrder s b = none)
    (hst : submitCheck s c.session b ≠ 0) :
    ∃ a, (a = s ∨ a = dcount s 0x3400 0x04 8 1) ∧
      performSubmit s c seq b = finish a c.session seq (response 0x30 (submitCheck s c.session b) []) := by
  refine ⟨if recKind b = 6 || ringActive s c.session (recRing b) then dcount s 0x3400 0x04 8 1 else s, ?_, ?_⟩
  · split
    · exact .inr rfl
    · exact .inl rfl
  · have hl : ¬ b.length ≠ 128 := not_not_intro hb
    simp only [performSubmit, submitEnter, hl, hr, hst, if_false, Option.isSome_none, Bool.false_eq_true, ne_eq, not_false_eq_true, if_true]

/-- A SUBMIT with a failing check is answered with its status and leaves orders, regions and journal. -/
theorem submit_refused (f : Frame) (s : State) (x : Session) (b : List Byte) (h : FrameReady f s x) (hx : x.role ≠ 2) (hb : b.length = 128)
    (hr : resentOrder (arrived f s x) b = none) (hst : submitCheck (arrived f s x) f.session.toNat b ≠ 0) :
    ∃ t, Answers (.submit f b) s t ∧ t.orders = s.orders ∧ t.regions = s.regions ∧ t.journal = s.journal ∧
      .odp f.port f.session.toNat f.seq f.seq (response 0x30 (submitCheck (arrived f s x) f.session.toNat b) []) ∈ t.out := by
  obtain ⟨a, ha, hp⟩ := performSubmit_refused (arrived f s x) (frameCaller f x) f.seq b hb hr hst
  have hsess : sessionOf a f.session.toNat = some (startedSession f s x) := by
    rcases ha with rfl | rfl
    · exact sessionOf_arrived f s x
    · exact sessionOf_arrived f s x
  have hport : portUp a (portNo f.port) = true := by
    have hup := portUp_arrived f s x h
    rcases ha with rfl | rfl
    · exact hup
    · rwa [portUp_dcount _ _ _ _ _ _ (by omega) (by omega)]
  have hsame : a.orders = s.orders ∧ a.regions = s.regions ∧ a.journal = s.journal := by
    rcases ha with rfl | rfl <;> exact ⟨rfl, rfl, rfl⟩
  have hidle : Idle a f.session.toNat := by
    intro y hy
    cases hsess.symm.trans hy
    rfl
  have hn := session_le_of_ready f s x h
  have hans := onlyAnswer_finish a f.session.toNat f.seq (response 0x30 (submitCheck (arrived f s x) f.session.toNat b) []) hn hidle
  obtain ⟨hto, htr, htj⟩ := hans.kept
  obtain ⟨hao, har, haj⟩ := hsame
  refine ⟨_, answers_of_perform _ f (.submit b) s _ x rfl h ?_ ((perform_submit f s x b h hx).trans hp) hans.1, hto.trans hao, htr.trans har, htj.trans haj, ?_⟩
  · simp [requestLength, requestBytes, hb]
  · exact mem_out_finish a _ f.seq f.port _ _ hn hsess rfl hport

/-- An order as a SUBMIT takes it in: it waits for its context, under its record and with the slots that its region's pool gives it (R294, R297). -/
structure NewOrder (s : State) (n : Nat) (b : List Byte) (r : Nat) (o : Order) : Prop where
  tag : o.tag = BitVec.ofNat 32 (leAt b 0 4)
  record : o.record = withRegion b r
  region : o.region = r
  session : o.session = n
  state : o.state = .pending
  landed : o.landed = false
  accepted : o.accepted = now s
  slots : o.slots = (kvSlots s r b).getD []
  processed : o.processed = 0

/-- What neither the reservation of an adapter nor a held result's slot changes. -/
structure ServingKept (s t : State) : Prop where
  orders : t.orders = s.orders
  regions : t.regions = s.regions
  hoods : t.hoods = s.hoods
  sessions : t.sessions = s.sessions
  qps : t.qps = s.qps
  twin : t.twin = s.twin
  journal : t.journal = s.journal
  now : now t = now s

/-- What a new order changes: it stands behind the others, and its slots are committed in the region's pool (R294). -/
structure Entered (s t : State) (b : List Byte) (r : Nat) (o : Order) : Prop where
  orders : t.orders = s.orders ++ [o]
  committed : (regionOf t r).kvCommitted = (regionOf s r).kvCommitted + rangeBytes ((kvSlots s r b).getD [])
  sessions : t.sessions = s.sessions
  qps : t.qps = s.qps
  twin : t.twin = s.twin
  journal : t.journal = s.journal

/-- The reservation of an order's adapter, when it names one. -/
theorem onlyReserved_adapter (s : State) (tag : BitVec 32) (a : Nat) (ns : List Nat) :
    OnlyReserved s (if a = 0xFFFF then (s, []) else (reserveAll tag a ns s).getD (s, [])).1 := by
  split
  · exact OnlyReserved.refl s
  · cases h : reserveAll tag a ns s with
    | none => exact OnlyReserved.refl s
    | some p => exact onlyReserved_reserveAll tag a ns s p.1 p.2 h

theorem OnlyReserved.servingKept {s t : State} (h : OnlyReserved s t) : ServingKept s t := by
  obtain ⟨_, _, _, rfl⟩ := h
  exact ⟨rfl, rfl, rfl, rfl, rfl, rfl, rfl, rfl⟩

theorem ServingKept.heldTake {s t : State} (h : ServingKept s t) (i : Nat) (tag : BitVec 32) : ServingKept s (heldTake t i tag) :=
  ⟨h.orders, h.regions, h.hoods, h.sessions, h.qps, h.twin, h.journal, h.now⟩

/-- An order put behind the others, with its slots committed. -/
theorem entered_behind {s v : State} (b : List Byte) (r : Nat) (o : Order) (h : ServingKept s v) :
    Entered s { modRegion v r fun g => { g with kvCommitted := g.kvCommitted + rangeBytes ((kvSlots s r b).getD []) } with orders := v.orders ++ [o] } b r o where
  orders := congrArg (· ++ [o]) h.orders
  committed := by
    refine (congrArg Region.kvCommitted (regionOf_setRegion_same v r _)).trans ?_
    rw [regionOf, h.regions, regionOf]
  sessions := h.sessions
  qps := h.qps
  twin := h.twin
  journal := h.journal

/-- An order enters as PENDING. -/
theorem enterOrder_entered (s : State) (n : Nat) (b : List Byte) (r : Nat) : ∃ o, NewOrder s n b r o ∧ Entered s (enterOrder s n b r false) b r o := by
  have hres := onlyReserved_adapter s (BitVec.ofNat 32 (leAt b 0 4)) (recAdapter b) (regionFields s r)
  unfold enterOrder
  dsimp only
  generalize (if recAdapter b = 0xFFFF then (s, []) else (reserveAll (BitVec.ofNat 32 (leAt b 0 4)) (recAdapter b) (regionFields s r) s).getD (s, [])) = p at hres ⊢
  obtain ⟨u, left⟩ := p
  have hu := hres.servingKept
  dsimp only at hu ⊢
  rw [kvSlots_congr s u r b hu.orders hu.regions hu.hoods]
  generalize (if recResKey b = 0 ∧ recKind b ≠ 2 ∧ (!false) = true then heldFree u else none) = slot
  cases slot with
  | none => exact ⟨_, ⟨rfl, rfl, rfl, rfl, rfl, rfl, hu.now, rfl, rfl⟩, entered_behind b r _ hu⟩
  | some i => exact ⟨_, ⟨rfl, rfl, rfl, rfl, rfl, rfl, hu.now, rfl, rfl⟩, entered_behind b r _ (hu.heldTake i _)⟩

/-- The state that takes a new order in: the SUBMIT is counted and its record journaled with the region (R20, R326). -/
def submitJournaled (s : State) (b : List Byte) (r : Nat) : State :=
  let s := dcount s 0x3400 0x02 8 1
  jAppend { s with boot := { s.boot with firstSubmit := true } } 1 r (some (BitVec.ofNat 32 (leAt b 0 4))) (withRegion b r)

/-- What the count and the record of a SUBMIT leave. -/
theorem submitJournaled_kept (s : State) (b : List Byte) (r : Nat) :
    ServingKept { s with journal := (submitJournaled s b r).journal } (submitJournaled s b r) := by
  obtain ⟨j, o, h⟩ := onlyJournal_jAppend { dcount s 0x3400 0x02 8 1 with boot := { s.boot with firstSubmit := true } } 1 r
    (some (BitVec.ofNat 32 (leAt b 0 4))) (withRegion b r)
  have hu : submitJournaled s b r = _ := h
  rw [hu]
  exact ⟨rfl, rfl, rfl, rfl, rfl, rfl, rfl, rfl⟩

/-- A SUBMIT that passes enters its order in the chosen region, behind its record. -/
theorem submitEnter_accepted (s : State) (n : Nat) (b : List Byte) (r : Nat) (hb : b.length = 128) (hr : resentOrder s b = none)
    (hst : submitCheck s n b = 0) (hk : recKind b ≠ 6) (hc : chooseRegion s b = some r) :
    ∃ slot, submitEnter s n b = (enterOrder (submitJournaled s b r) n b r false, 0, slot, some (BitVec.ofNat 32 (leAt b 0 4))) := by
  have hl : ¬ b.length ≠ 128 := not_not_intro hb
  have hc' : chooseRegion { dcount s 0x3400 0x02 8 1 with boot := { (dcount s 0x3400 0x02 8 1).boot with firstSubmit := true } } b = some r :=
    (chooseRegion_congr s _ b rfl rfl).trans hc
  simp only [submitEnter, hl, hr, hst, hk, hc', if_false, Option.isSome_none, Bool.false_eq_true, ne_eq, not_true_eq_false, Option.getD_some]
  exact ⟨_, rfl⟩

/-- In SOLO a SUBMIT that passes is answered at once, and then its context is read. -/
theorem performSubmit_accepted (s : State) (c : Caller) (seq : BitVec 32) (b : List Byte) (r : Nat) (hcs : c.session ≠ 0) (hb : b.length = 128)
    (hr : resentOrder s b = none) (hst : submitCheck s c.session b = 0) (hk : recKind b ≠ 6) (hc : chooseRegion s b = some r)
    (hs : twinSolo (enterOrder (submitJournaled s b r) c.session b r false) = true) :
    ∃ p, performSubmit s c seq b = fetchContext (finish (enterOrder (submitJournaled s b r) c.session b r false) c.session seq p) (BitVec.ofNat 32 (leAt b 0 4)) := by
  obtain ⟨slot, he⟩ := submitEnter_accepted s c.session b r hb hr hst hk hc
  have hw : cancelWrites b = [] := if_neg hk
  refine ⟨response 0x30 0 (leBytes 4 slot), ?_⟩
  unfold performSubmit
  rw [he]
  simp only [ne_eq, not_true_eq_false, if_false, deferOrRun_solo _ _ hs]
  unfold runDeferred
  simp only [hw, List.foldl_nil, if_neg hcs]

/-- The context of an order of the device's own session is read on its data queue pair (R297). -/
theorem fetchContext_reads (s : State) (tag : BitVec 32) (o : Order) (qp : Nat) (ho : findOrder s tag = some o)
    (hn : recContext o.record + recCont o.record ≠ 0) (hses : o.session ≤ 16) (hq : dataQp s o.session = some qp) (hok : qpOk s qp = true) :
    fetchContext s tag = emit s (.rdmaRead qp (BitVec.ofNat 64 (leAt o.record 16 8)) (BitVec.ofNat 32 (leAt o.record 24 4))
      (4 * (recContext o.record + recCont o.record))) := by
  unfold fetchContext
  rw [ho]
  dsimp only
  rw [if_neg hn, if_neg (by omega), hq]
  exact if_pos hok

/-- What an accepted SUBMIT has made of the state when its answer leaves. -/
structure OrderAccepted (s t : State) (n : Nat) (b : List Byte) (r : Nat) (o : Order) : Prop extends NewOrder s n b r o where
  orders : t.orders = s.orders ++ [o]
  committed : (regionOf t r).kvCommitted = (regionOf s r).kvCommitted + rangeBytes ((kvSlots s r b).getD [])
  qps : t.qps = s.qps
  twin : t.twin = s.twin
  journaled : ∃ e ∈ t.journal.entries, e.record.type = 1 ∧ e.record.payload = withRegion b r

/-- The new order of a request in order, entered behind its record. -/
theorem enterOrder_accepted (f : Frame) (s : State) (x : Session) (b : List Byte) (r : Nat) :
    ∃ o, OrderAccepted s (enterOrder (submitJournaled (arrived f s x) b r) f.session.toNat b r false) f.session.toNat b r o ∧
      (enterOrder (submitJournaled (arrived f s x) b r) f.session.toNat b r false).sessions = (arrived f s x).sessions := by
  have hkept := submitJournaled_kept (arrived f s x) b r
  have hmem : ∃ e ∈ (submitJournaled (arrived f s x) b r).journal.entries, e.record.type = 1 ∧ e.record.payload = withRegion b r := mem_jAppend _ _ _ _ _
  generalize submitJournaled (arrived f s x) b r = u at hkept hmem ⊢
  obtain ⟨o, hnew, hent⟩ := enterOrder_entered u f.session.toNat b r
  have hkv : kvSlots u r b = kvSlots s r b := kvSlots_congr _ _ r b hkept.orders hkept.regions hkept.hoods
  have hreg : regionOf u r = regionOf s r := by
    rw [regionOf, hkept.regions]
    rfl
  refine ⟨o, { hnew with
    accepted := hnew.accepted.trans hkept.now
    slots := hkv ▸ hnew.slots
    orders := hent.orders.trans (congrArg (· ++ [o]) hkept.orders)
    committed := hkv ▸ hreg ▸ hent.committed
    qps := hent.qps.trans hkept.qps
    twin := hent.twin.trans hkept.twin
    journaled := ?_ }, hent.sessions.trans hkept.sessions⟩
  rw [hent.journal]
  exact hmem

/-- The answer keeps what was accepted. -/
theorem OrderAccepted.answered {s t u : State} {n : Nat} {b : List Byte} {r : Nat} {o : Order} (h : OrderAccepted s t n b r o) (k : OnlyAnswer n t u) :
    OrderAccepted s u n b r o := by
  obtain ⟨-, -, _, _, _, rfl⟩ := k
  exact { h with }

/-- An accepted order's context is read once its tag is its own. -/
theorem OrderAccepted.fetch {s t : State} {n : Nat} {b : List Byte} {r : Nat} {o : Order} (h : OrderAccepted s t n b r o) (qp : Nat) (hb : b.length = 128)
    (ho : findOrder t (BitVec.ofNat 32 (leAt b 0 4)) = some o) (hle : n ≤ 16) (hn : recContext b + recCont b ≠ 0) (hq : dataQp s n = some qp) (hok : qpOk s qp = true) :
    fetchContext t (BitVec.ofNat 32 (leAt b 0 4)) =
      emit t (.rdmaRead qp (BitVec.ofNat 64 (leAt b 16 8)) (BitVec.ofNat 32 (leAt b 24 4)) (4 * (recContext b + recCont b))) := by
  have htok : recContext o.record + recCont o.record = recContext b + recCont b := by rw [h.record, contextTokens_withRegion b r hb]
  have hq' : dataQp t o.session = some qp := by rw [dataQp, sessionQps, h.qps, h.session]; exact hq
  have hok' : qpOk t qp = true := by rw [qpOk, h.qps]; exact hok
  rw [fetchContext_reads t _ o qp ho (htok ▸ hn) (h.session ▸ hle) hq' hok', htok, h.record, leAt_withRegion b r 16 8 hb (.inr (by omega)),
    leAt_withRegion b r 24 4 hb (.inr (by omega))]

/-- A SUBMIT that passes in SOLO leaves what it accepted, and its context is being read. -/
theorem submit_accepted (f : Frame) (s : State) (x : Session) (b : List Byte) (r qp : Nat) (h : FrameReady f s x) (hx : x.role ≠ 2) (hb : b.length = 128)
    (hr : resentOrder (arrived f s x) b = none) (hst : submitCheck (arrived f s x) f.session.toNat b = 0) (hk : recKind b ≠ 6) (hsolo : twinSolo s = true)
    (hc : chooseRegion (arrived f s x) b = some r) (hn : recContext b + recCont b ≠ 0) (hq : dataQp s f.session.toNat = some qp) (hok : qpOk s qp = true) :
    ∃ v o, OrderAccepted s v f.session.toNat b r o ∧ findOrder v (BitVec.ofNat 32 (leAt b 0 4)) = some o ∧
      Answers (.submit f b) s (settlePins (emit v (.rdmaRead qp (BitVec.ofNat 64 (leAt b 16 8)) (BitVec.ofNat 32 (leAt b 24 4)) (4 * (recContext b + recCont b))))) := by
  have hle := session_le_of_ready f s x h
  obtain ⟨o, hacc, hses⟩ := enterOrder_accepted f s x b r
  have hsolo' : twinSolo (enterOrder (submitJournaled (arrived f s x) b r) f.session.toNat b r false) = true := by rw [← hsolo, twinSolo, hacc.twin, twinSolo]
  have hperf := performSubmit_accepted (arrived f s x) (frameCaller f x) f.seq b r (frameCaller_session_ne_zero f s x h) hb hr hst hk hc hsolo'
  have hidle : Idle (enterOrder (submitJournaled (arrived f s x) b r) f.session.toNat b r false) f.session.toNat := by
    intro y hy
    rw [sessionOf, hses] at hy
    exact idle_arrived f s x y hy
  change ∃ p, _ = fetchContext (finish (enterOrder _ f.session.toNat b r false) f.session.toNat f.seq p) _ at hperf
  generalize enterOrder (submitJournaled (arrived f s x) b r) f.session.toNat b r false = e at hacc hidle hperf
  obtain ⟨p, hp⟩ := hperf
  have hans := onlyAnswer_finish e f.session.toNat f.seq p hle hidle
  generalize finish e f.session.toNat f.seq p = v at hans hp
  have hv := hacc.answered hans
  have hfind := findOrder_entered s v _ o (findOrder_of_submitCheck (arrived f s x) _ b hk hst) hv.tag hv.orders
  rw [hv.fetch qp hb hfind hle hn hq hok] at hp
  refine ⟨v, o, hv, hfind, answers_of_perform _ f (.submit b) s _ x rfl h ?_ ((perform_submit f s x b h hx).trans hp) hans.1⟩
  simp [requestLength, requestBytes, hb]

/-! ## What an engine's copy changes -/

/-- `t` differs from `s` in memories, in objects and in the error block at most. -/
def OnlyMemories (s t : State) : Prop :=
  ∃ rg eb dc hb ht fm fe ft, t = { s with regs := rg, errBuf := eb, dict := dc, hbm := hb, hbmTag := ht, fmem := fm, fmemErr := fe, fmemTag := ft }

theorem OnlyMemories.refl (s : State) : OnlyMemories s s := ⟨_, _, _, _, _, _, _, _, rfl⟩

theorem OnlyMemories.trans {s t u : State} (h : OnlyMemories s t) (k : OnlyMemories t u) : OnlyMemories s u := by
  obtain ⟨_, _, _, _, _, _, _, _, rfl⟩ := h
  obtain ⟨rg, eb, dc, hb, ht, fm, fe, ft, rfl⟩ := k
  exact ⟨rg, eb, dc, hb, ht, fm, fe, ft, rfl⟩

theorem OnlyMemories.kept {s t : State} (h : OnlyMemories s t) : t.orders = s.orders ∧ t.regions = s.regions ∧ t.caches = s.caches := by
  obtain ⟨_, _, _, _, _, _, _, _, rfl⟩ := h
  exact ⟨rfl, rfl, rfl⟩

theorem onlyMemories_dput (s : State) (i j : Nat) (v : List Byte) : OnlyMemories s (dput s i j v) := ⟨_, _, _, _, _, _, _, _, rfl⟩

theorem onlyMemories_errArrive (s : State) (r : ErrRecord) : OnlyMemories s (errArrive s r) := ⟨_, _, _, _, _, _, _, _, (errArrive_keeps s r).eq⟩

theorem onlyMemories_hbmRecord (s : State) (addr h off kind : Nat) (q : HbmReq) : OnlyMemories s (hbmRecord s addr h off kind q) :=
  (onlyMemories_dput _ _ _ _).trans (onlyMemories_errArrive _ _)

/- The kernel must not evaluate `hbmPlace` while it compares states (its products by 2^30 go too deep there). So the proofs about its callers open a
definition only as a value of its own (`generalize`, `delta`, `subst`), and take what rests on `hbmPlace` as a variable before any case split. -/

/-- A refused access leaves one record. -/
theorem onlyMemories_hbmRefused (s : State) (addr kind : Nat) (q : HbmReq) : OnlyMemories s (hbmRefused s addr kind q) := by
  generalize hg : hbmRefused = g
  delta hbmRefused at hg
  subst hg
  dsimp -zeta -iota -proj only
  generalize hbmPlace s addr = p
  cases p with
  | none => exact onlyMemories_hbmRecord _ _ _ _ _ _
  | some p => exact onlyMemories_hbmRecord _ _ _ _ _ _

theorem onlyMemories_engineSector (s : State) (q : HbmReq) (a : Nat) : OnlyMemories s (engineSector s q a).1 := by
  generalize hr : engineSector s q a = r
  generalize hg : engineSector = g at hr
  delta engineSector at hg
  subst hg
  dsimp -zeta -iota -proj only at hr
  generalize hbmPlace s a = p at hr
  cases p with
  | none =>
    subst hr
    exact onlyMemories_hbmRefused _ _ _ _
  | some p =>
    dsimp only at hr
    split at hr
    · subst hr
      exact onlyMemories_hbmRefused _ _ _ _
    · split at hr
      · subst hr
        exact onlyMemories_hbmRefused _ _ _ _
      · split at hr
        · subst hr
          exact onlyMemories_hbmRecord _ _ _ _ _ _
        · subst hr
          exact OnlyMemories.refl s

theorem onlyMemories_engineSectors (s : State) (q : HbmReq) (a n : Nat) : OnlyMemories s (engineSectors s q a n).1 := by
  have h := onlyMemories_engineSector
  generalize hf : engineSectors = f
  delta engineSectors engineSectors._f at hf
  obtain ⟨g, hg⟩ : ∃ g, engineSector = g := ⟨_, rfl⟩
  rw [hg] at h hf
  subst hf
  induction n generalizing s a with
  | zero => exact OnlyMemories.refl s
  | succ n ih => exact (h s q a).trans (ih _ _)

theorem onlyMemories_enginePart (s : State) (q : HbmReq) (a : Nat) (part : List Byte) (poison : Bool) : OnlyMemories s (enginePart s q a part poison) := by
  generalize hg : enginePart = g
  delta enginePart at hg
  subst hg
  dsimp -zeta -iota -proj only
  generalize hbmPlace s a = p
  cases p with
  | none => exact onlyMemories_hbmRefused _ _ _ _
  | some p =>
    dsimp only
    split
    · exact onlyMemories_hbmRefused _ _ _ _
    · split
      · exact ⟨_, _, _, _, _, _, _, _, rfl⟩
      · split <;> exact ⟨_, _, _, _, _, _, _, _, rfl⟩

theorem onlyMemories_engineCopy (s : State) (q : HbmReq) (src dst n : Nat) : OnlyMemories s (engineCopy s q src dst n) := by
  refine foldl_related OnlyMemories.refl OnlyMemories.trans _ (fun t i => ?_) _ _
  have h := onlyMemories_engineSector t q (src + 64 * i)
  generalize engineSector t q (src + 64 * i) = p at h ⊢
  obtain ⟨u, bytes, poison⟩ := p
  exact h.trans (onlyMemories_enginePart _ _ _ _ _)

theorem onlyMemories_fmRowWrite (s : State) (n off : Nat) (src : Src) (data : List Byte) (tags : BitVec 8) : OnlyMemories s (fmRowWrite s n off src data tags).1 := by
  unfold fmRowWrite
  dsimp only
  split
  · exact OnlyMemories.refl s
  · split
    · exact ⟨_, _, _, _, _, _, _, _, rfl⟩
    · refine OnlyMemories.trans (t := { s with fmem := memWrite s.fmem (fmKey n off) data, fmemErr := mdrop s.fmemErr (fmKey n off / 8) 64 })
        ⟨_, _, _, _, _, _, _, _, rfl⟩ ?_
      exact foldl_related OnlyMemories.refl OnlyMemories.trans _ (fun _ _ => ⟨_, _, _, _, _, _, _, _, rfl⟩) _ _

theorem onlyMemories_copyAdapter (s : State) (c : CacheEntry) : OnlyMemories s (copyAdapter s c) := by
  refine foldl_related OnlyMemories.refl OnlyMemories.trans _ (fun t i => ?_) _ _
  have h := onlyMemories_engineSectors t (engineReq c.field 0xFF) ((adapterOf s c.adapter.toNat).base + 512 * i) 8
  generalize engineSectors t (engineReq c.field 0xFF) ((adapterOf s c.adapter.toNat).base + 512 * i) 8 = p at h ⊢
  obtain ⟨u, xs⟩ := p
  exact h.trans (onlyMemories_fmRowWrite _ _ _ _ _ _)

/-! ## Contexts that land (R297, R299) -/

/-- An order whose context and adapter copies are present becomes ELIGIBLE. -/
def eligibleWhenReady (o : Order) : Order := if o.state = .pending ∧ o.landed ∧ o.fieldsLeft = [] then { o with state := .eligible } else o

theorem eligibleWhenReady_fields (o : Order) : (eligibleWhenReady o).tag = o.tag ∧ (eligibleWhenReady o).record = o.record ∧
    (eligibleWhenReady o).context = o.context ∧ (eligibleWhenReady o).landed = o.landed ∧ (eligibleWhenReady o).processed = o.processed ∧
    (eligibleWhenReady o).fieldsLeft = o.fieldsLeft := by
  unfold eligibleWhenReady
  split <;> exact ⟨rfl, rfl, rfl, rfl, rfl, rfl⟩

theorem settleEligible_eq (s : State) (tag : BitVec 32) : settleEligible s tag = modOrder s tag eligibleWhenReady := rfl

theorem findOrder_settleEligible (s : State) (tag : BitVec 32) (o : Order) (h : findOrder s tag = some o) :
    findOrder (settleEligible s tag) tag = some (eligibleWhenReady o) :=
  findOrder_modOrder_same s tag o _ (fun o => (eligibleWhenReady_fields o).1) h

/-- Page entries set one after another change an order's pages alone. -/
theorem findOrder_setPages (e : Nat → BitVec 64) (l : List Nat) (s : State) (tag : BitVec 32) (o : Order) (h : findOrder s tag = some o) :
    ∃ ps, findOrder (l.foldl (fun s p => setPage s tag p (e p)) s) tag = some { o with pages := ps } := by
  induction l generalizing s o with
  | nil => exact ⟨o.pages, h⟩
  | cons p l ih =>
    obtain ⟨ps, hps⟩ := ih _ _ (findOrder_modOrder_same s tag o (fun o => { o with pages := mset 0 o.pages p (e p) }) (fun _ => rfl) h)
    exact ⟨ps, hps⟩

/-- The entry of a context's pages changes the order's pages alone. -/
theorem findOrder_enterPages (s : State) (o : Order) (h : findOrder s o.tag = some o) :
    ∃ ps, findOrder (enterPages s o) o.tag = some { o with pages := ps } := by
  unfold enterPages
  dsimp only
  split
  · exact ⟨o.pages, h⟩
  · obtain ⟨ps, hps⟩ := findOrder_setPages (fun p => if p < sharedPages o then peMake (mfKvFormat (orderManifest s o.record)) true false (peAddr (mget 0 o.prefixPages p))
      else if p = sharedPages o ∨ o.context.length < 64 * p + 64 then openEntry o else storedEntry (orderManifest s o.record) o p)
      (List.range (ceilDiv o.context.length 64)) s o.tag o h
    refine ⟨ps, ?_⟩
    split
    · exact hps
    · exact (findOrder_congr _ _ _ (onlyMemories_engineCopy _ _ _ _ _).kept.1).trans hps

/-- An order whose context has landed, its page entries apart. -/
def withContext (o : Order) (ts : List (BitVec 32)) (ps : SMap (BitVec 64)) : Order :=
  { o with context := o.prefixTokens ++ ts, landed := true, processed := o.prefixTokens.length, pages := ps }

theorem findOrder_landContext (s : State) (tag : BitVec 32) (o : Order) (ts : List (BitVec 32)) (h : findOrder s tag = some o) :
    ∃ ps, findOrder (landContext s tag ts) tag = some (eligibleWhenReady (withContext o ts ps)) := by
  have hm := findOrder_modOrder_same s tag o
    (fun p => { p with context := o.prefixTokens ++ ts, landed := true, processed := o.prefixTokens.length }) (fun _ => rfl) h
  have htag := findOrder_tag _ _ _ hm
  unfold landContext
  rw [h]
  dsimp only
  rw [hm]
  dsimp only at htag ⊢
  subst htag
  obtain ⟨ps, hps⟩ := findOrder_enterPages _ (withContext o ts o.pages) hm
  exact ⟨ps, findOrder_settleEligible _ _ _ hps⟩

theorem contextRecords_orders (s : State) (o : Order) (first : Nat) (ts : List (BitVec 32)) : (contextRecords s o first ts).orders = s.orders :=
  foldl_related (R := fun s t => t.orders = s.orders) (fun _ => rfl) (fun h k => k.trans h) _ (fun _ _ => (onlyJournal_jAppend _ _ _ _ _).kept.1) _ _

/-- A context's records are journaled before it lands. -/
theorem contextEnds_landed (s : State) (o : Order) (ts : List (BitVec 32)) (hp : o.state = .pending) (hl : o.landed = false)
    (hn : ts.length = recContext o.record + recCont o.record) :
    ∃ u, u.orders = s.orders ∧ contextEnds s o (some ts) = landContext u o.tag ts := by
  have hnot : ¬ (o.state ≠ .pending ∨ o.landed = true) := by simp [hp, hl]
  unfold contextEnds
  rw [if_neg hnot]
  dsimp only
  rw [if_pos hn]
  refine ⟨_, ?_, rfl⟩
  rw [contextRecords_orders]
  unfold qpProgress
  split
  · split <;> rfl
  · rfl

/-- A context that lands makes its order ELIGIBLE unless adapter copies are awaited. -/
theorem contextLanded_lands (s : State) (tag : BitVec 32) (o : Order) (ts : List (BitVec 32)) (h : findOrder s tag = some o) (hp : o.state = .pending)
    (hl : o.landed = false) (hn : ts.length = recContext o.record + recCont o.record) (hw : landingHeld s o ts.length = false) :
    ∃ t o', Answers (.contextLanded tag (some ts)) s t ∧ findOrder t tag = some o' ∧ o'.context = o.prefixTokens ++ ts ∧ o'.landed = true ∧
      o'.processed = o.prefixTokens.length ∧ o'.record = o.record ∧ o'.state = (if o.fieldsLeft = [] then .eligible else .pending) := by
  obtain ⟨u, hu, he⟩ := contextEnds_landed s o ts hp hl hn
  rw [findOrder_tag s tag o h] at he
  obtain ⟨ps, hps⟩ := findOrder_landContext u tag o ts ((findOrder_congr _ _ _ hu).trans h)
  obtain ⟨-, hr, hc, hld, hpr, -⟩ := eligibleWhenReady_fields (withContext o ts ps)
  refine ⟨settlePins (landContext u tag ts), _, ?_, hps, hc, hld, hpr, hr, ?_⟩
  · rw [← he]
    change execContextLanded tag (some ts) s = _
    unfold execContextLanded
    rw [h]
    exact guarded_of_true _ _ _ (by simp [hw])
  · unfold eligibleWhenReady withContext
    by_cases hf : o.fieldsLeft = [] <;> simp [hf, hp]

/-- A context that fails closes its order. -/
theorem contextLanded_fails (s : State) (tag : BitVec 32) (o : Order) (h : findOrder s tag = some o) (hp : o.state = .pending) (hl : o.landed = false) :
    ∃ t, Answers (.contextLanded tag none) s t ∧ findOrder t tag = none ∧ ∀ p ∈ s.orders, p.tag ≠ tag → p ∈ t.orders := by
  have hnot : ¬ (o.state ≠ .pending ∨ o.landed = true) := by simp [hp, hl]
  have he : contextEnds s o none = closeOrder s o 0x30 0 0 false := if_neg hnot
  obtain ⟨ho, -⟩ := closeOrder_leaves s o 0x30 0 0
  rw [findOrder_tag s tag o h] at ho
  refine ⟨settlePins (closeOrder s o 0x30 0 0 false), ?_, ?_, fun p hm hne => ?_⟩
  · rw [← he]
    change execContextLanded tag none s = _
    unfold execContextLanded
    rw [h]
    exact guarded_of_true _ _ _ rfl
  · rw [findOrder, settlePins_orders, ho]
    simp
  · rw [settlePins_orders, ho]
    simp [hm, hne]

/-! ## Adapter copies (R287) -/

/-- An order that no longer waits for the copy in a field. -/
def copyArrived (n : Nat) (o : Order) : Order := { o with fieldsLeft := o.fieldsLeft.filter fun k => decide (k ≠ n) }

/-- The copy in a field told to the orders of some tags. -/
def tellCopied (n : Nat) (s : State) (o : Order) : State := settleEligible (modOrder s o.tag (copyArrived n)) o.tag

theorem tellCopied_kept (n : Nat) (l : List Order) (s : State) : (l.foldl (tellCopied n) s).caches = s.caches ∧ (l.foldl (tellCopied n) s).regions = s.regions :=
  foldl_related (R := fun s t => t.caches = s.caches ∧ t.regions = s.regions) (fun _ => ⟨rfl, rfl⟩) (fun h k => ⟨k.1.trans h.1, k.2.trans h.2⟩)
    (tellCopied n) (fun _ _ => ⟨rfl, rfl⟩) _ _

/-- One order told: its awaited fields are those that are left, and its context stands. -/
theorem findOrder_tellCopied (n : Nat) (s : State) (x : Order) (tag : BitVec 32) (o : Order) (h : findOrder s tag = some o) :
    ∃ o', findOrder (tellCopied n s x) tag = some o' ∧ o'.context = o.context ∧
      o'.fieldsLeft = if x.tag = tag then o.fieldsLeft.filter (fun k => decide (k ≠ n)) else o.fieldsLeft := by
  have htag := findOrder_tag s tag o h
  unfold tellCopied
  rw [settleEligible_eq, findOrder_modOrder _ _ _ _ fun o => (eligibleWhenReady_fields o).1, findOrder_modOrder _ _ _ (copyArrived n) fun _ => rfl, h]
  simp only [Option.map_some]
  refine ⟨_, rfl, ?_⟩
  by_cases hx : x.tag = tag
  · have ht : (copyArrived n o).tag = x.tag := htag.trans hx.symm
    obtain ⟨-, -, hc, -, -, hf⟩ := eligibleWhenReady_fields (copyArrived n o)
    rw [if_pos (htag.trans hx.symm), if_pos ht, if_pos hx]
    exact ⟨hc, hf⟩
  · have ho : ¬ o.tag = x.tag := fun e => hx (e.symm.trans htag)
    rw [if_neg ho, if_neg ho, if_neg hx]
    exact ⟨rfl, rfl⟩

/-- Every waiting order told: one of them no longer waits for the field. -/
theorem findOrder_tellAll (n : Nat) (l : List Order) (s : State) (tag : BitVec 32) (o : Order) (h : findOrder s tag = some o) :
    ∃ o', findOrder (l.foldl (tellCopied n) s) tag = some o' ∧ o'.context = o.context ∧
      o'.fieldsLeft = if ∃ x ∈ l, x.tag = tag then o.fieldsLeft.filter (fun k => decide (k ≠ n)) else o.fieldsLeft := by
  induction l generalizing s o with
  | nil => exact ⟨o, h, rfl, by simp⟩
  | cons x l ih =>
    obtain ⟨p, hp, hpc, hpf⟩ := findOrder_tellCopied n s x tag o h
    obtain ⟨q, hq, hqc, hqf⟩ := ih _ p hp
    refine ⟨q, hq, hqc.trans hpc, ?_⟩
    rw [hqf, hpf]
    by_cases hx : x.tag = tag <;> by_cases hl : ∃ x ∈ l, x.tag = tag <;> simp [hx, hl]

/-- A copied entry is ready, and nothing else of the state but memories has changed. -/
def cacheCopied (s : State) (a n : Nat) : State := match cacheEntry s a n with
  | some c => copyAdapter { s with caches := s.caches.map fun x => if x = c then { x with ready := true } else x } c
  | none => s

theorem cacheCopied_kept (s : State) (a n : Nat) : (cacheCopied s a n).orders = s.orders ∧ (cacheCopied s a n).regions = s.regions ∧
    ∀ e, cacheEntry s a n = some e → { e with ready := true } ∈ (cacheCopied s a n).caches := by
  unfold cacheCopied
  split
  · rename_i c hc
    obtain ⟨ho, hr, hcs⟩ := (onlyMemories_copyAdapter { s with caches := s.caches.map fun x => if x = c then { x with ready := true } else x } c).kept
    refine ⟨ho, hr, fun e he => ?_⟩
    cases hc.symm.trans he
    rw [hcs]
    exact List.mem_map.mpr ⟨c, List.mem_of_find?_eq_some hc, if_pos rfl⟩
  · rename_i hc
    exact ⟨rfl, rfl, fun e he => by cases hc.symm.trans he⟩

/-- An adapter copy that ends is awaited no longer, and its cache entry is ready. -/
theorem adapterCopied_lands (s : State) (tag : BitVec 32) (n : Field) (o : Order) (h : findOrder s tag = some o) (hn : n.val ∈ o.fieldsLeft)
    (hw : rangeHolds s ((adapterOf s (recAdapter o.record)).base, (adapterOf s (recAdapter o.record)).len) = false) :
    ∃ t o', Answers (.adapterCopied tag n) s t ∧ findOrder t tag = some o' ∧ o'.fieldsLeft = o.fieldsLeft.filter (fun k => decide (k ≠ n.val)) ∧
      o'.context = o.context ∧ (∀ e, cacheEntry s (recAdapter o.record) n = some e → { e with ready := true } ∈ t.caches) ∧ t.regions = s.regions := by
  obtain ⟨hco, hcr, hcc⟩ := cacheCopied_kept s (recAdapter o.record) n.val
  have hexec : execAdapterCopied tag n s = .next (settlePins (((cacheCopied s (recAdapter o.record) n.val).orders.filter fun x =>
      decide (recAdapter x.record = recAdapter o.record) && x.fieldsLeft.contains n.val).foldl (tellCopied n.val) (cacheCopied s (recAdapter o.record) n.val))) := by
    unfold execAdapterCopied
    rw [h]
    exact guarded_of_true _ _ _ (by simp [hn, hw])
  obtain ⟨o', ho', hctx, hleft⟩ := findOrder_tellAll n.val ((cacheCopied s (recAdapter o.record) n.val).orders.filter fun x =>
    decide (recAdapter x.record = recAdapter o.record) && x.fieldsLeft.contains n.val) _ tag o ((findOrder_congr _ _ _ hco).trans h)
  obtain ⟨htc, htr⟩ := tellCopied_kept n.val ((cacheCopied s (recAdapter o.record) n.val).orders.filter fun x =>
    decide (recAdapter x.record = recAdapter o.record) && x.fieldsLeft.contains n.val) (cacheCopied s (recAdapter o.record) n.val)
  have hwaits : ∃ x ∈ (cacheCopied s (recAdapter o.record) n.val).orders.filter fun x =>
      decide (recAdapter x.record = recAdapter o.record) && x.fieldsLeft.contains n.val, x.tag = tag :=
    ⟨o, List.mem_filter.mpr ⟨hco ▸ findOrder_mem s tag o h, by simp [hn]⟩, findOrder_tag s tag o h⟩
  rw [if_pos hwaits] at hleft
  refine ⟨_, o', hexec, ho', hleft, hctx, fun e he => ?_, htr.trans hcr⟩
  rw [settlePins_caches, htc]
  exact hcc e he

/-- Settles O34: an accepted SUBMIT, a refused one and each CANCEL are performed in the state their frame leaves; a context that lands changes the order it is found for, and a copy every order that waits for it. -/
theorem ordersAreAcceptedLandAndAreCancelled : Obligations.OrdersAreAcceptedLandAndAreCancelled := by
  intro s
  refine ⟨fun f x h hx => ⟨fun b hb hr hst => ?_, fun b r qp hb hr hst hk hs hc hn hq hok => ?_, fun target hr hs => ⟨fun ht => ?_, fun o ho hw => ?_, fun o ho hw => ?_⟩⟩,
    fun tag o ts h hp hl => ⟨?_, fun hn hw => ?_⟩, fun tag n o h hn hw => ?_⟩
  · exact submit_refused f s x b h hx hb hr hst
  · obtain ⟨v, o, hv, ho, he⟩ := submit_accepted f s x b r qp h hx hb hr hst hk hs hc hn hq hok
    exact ⟨_, o, he, ho, hv.record, hv.region, hv.session, hv.state, hv.landed, hv.accepted, hv.committed, hv.slots, hv.processed, hv.journaled,
      fun p hp => hv.orders ▸ List.mem_append_left _ hp, List.mem_append_right _ List.mem_cons_self⟩
  · exact cancel_unknown f s x target h hx hr hs ht
  · exact cancel_waiting f s x target o h hx hr hs ho hw
  · exact cancel_running f s x target o h hx hr hs ho hw
  · exact contextLanded_fails s tag o h hp hl
  · exact contextLanded_lands s tag o ts h hp hl hn hw
  · exact adapterCopied_lands s tag n o h hn hw

end Sys2Proof.Machine
end

section
/-! PROOF. Number formats: the codes of a floating format as canonical magnitudes, exact conversion to FP32, and the way back (R28, R32, R33, R53). -/
namespace Sys2Proof.Machine
open Sys2Proof

/-! ## Canonical magnitudes and their codes -/

/-- The exponent of a format's subnormal spacing, the least exponent its codes have (R32). -/
def FloatFmt.emin (f : FloatFmt) : Int := 1 - f.bias - f.man

/-- The form in which a code holds a magnitude m × 2^e: a significand with its hidden bit, or a subnormal one at the least exponent. -/
structure FloatFmt.Canonical (f : FloatFmt) (m : Nat) (e : Int) : Prop where
  emin_le : f.emin ≤ e
  lt : m < 2 ^ (f.man + 1)
  normal_or_emin : 2 ^ f.man ≤ m ∨ e = f.emin

/-- The magnitude code of a canonical magnitude: the hidden bit of m is the unit of the exponent field. -/
def FloatFmt.magCode (f : FloatFmt) (m : Nat) (e : Int) : Nat := (e - f.emin).toNat * 2 ^ f.man + m

section
variable {f : FloatFmt} {m : Nat} {e : Int}

theorem mul_two_pow_ne_zero (hm : m ≠ 0) (k : Nat) : m * 2 ^ k ≠ 0 := Nat.mul_ne_zero hm (Nat.ne_of_gt (Nat.two_pow_pos k))

theorem log2_mul_two_pow (hm : m ≠ 0) (k : Nat) : (m * 2 ^ k).log2 = m.log2 + k := by
  refine (Nat.log2_eq_iff (mul_two_pow_ne_zero hm k)).mpr ⟨?_, ?_⟩
  · rw [Nat.pow_add]
    exact Nat.mul_le_mul_right _ (Nat.log2_self_le hm)
  · rw [Nat.add_right_comm, Nat.pow_add]
    exact Nat.mul_lt_mul_of_pos_right Nat.lt_log2_self (Nat.two_pow_pos k)

theorem log2_le_of_lt {n : Nat} (h : m < 2 ^ (n + 1)) : m.log2 ≤ n := by
  by_cases hm : m = 0
  · simp [hm]
  · exact Nat.lt_succ_iff.mp ((Nat.log2_lt hm).mpr h)

/-- The spacing at which `roundCode` rounds a canonical magnitude is its own. -/
theorem FloatFmt.Canonical.spacing (h : f.Canonical m e) (hm : m ≠ 0) : max f.emin ((m.log2 : Int) + e - f.man) = e := by
  obtain ⟨he, hlt, hnorm | hsub⟩ := h
  · have hlog : m.log2 = f.man := (Nat.log2_eq_iff hm).mpr ⟨hnorm, hlt⟩
    omega
  · have hlog : m.log2 ≤ f.man := log2_le_of_lt hlt
    omega

theorem FloatFmt.Canonical.magCode_zero (h : f.Canonical 0 e) : f.magCode 0 e = 0 := by
  obtain ⟨-, -, hnorm | hsub⟩ := h
  · exact absurd hnorm (Nat.not_le.mpr (Nat.two_pow_pos _))
  · simp [FloatFmt.magCode, hsub]

/-- Any magnitude with few enough bits, at the least exponent or above, has a canonical form at the same or a lower exponent. -/
theorem FloatFmt.exists_canonical (hm : m < 2 ^ (f.man + 1)) (he : f.emin ≤ e) :
    ∃ k : Nat, f.Canonical (m * 2 ^ k) (e - k) ∧ (e - k = f.emin ∨ e - k = m.log2 + e - f.man) := by
  by_cases h0 : m = 0
  · subst h0
    exact ⟨(e - f.emin).toNat, ⟨by omega, by rwa [Nat.zero_mul], .inr (by omega)⟩, .inl (by omega)⟩
  have hlog : m.log2 ≤ f.man := log2_le_of_lt hm
  have hlt (k : Nat) (hk : m.log2 + k ≤ f.man) : m * 2 ^ k < 2 ^ (f.man + 1) := by
    rw [← Nat.log2_lt (mul_two_pow_ne_zero h0 _), log2_mul_two_pow h0]
    omega
  rcases Int.le_total (f.emin + (f.man - m.log2 : Nat)) e with hroom | hroom
  · refine ⟨f.man - m.log2, ⟨by omega, hlt _ (by omega), .inl ?_⟩, .inr (by omega)⟩
    rw [← Nat.le_log2 (mul_two_pow_ne_zero h0 _), log2_mul_two_pow h0]
    omega
  · exact ⟨(e - f.emin).toNat, ⟨by omega, hlt _ (by omega), .inr (by omega)⟩, .inl (by omega)⟩

/-! ## Rounding of exact magnitudes -/

/-- A magnitude rounds exactly to a finer spacing. -/
theorem roundTo_finer (r : Rounding) (m k : Nat) (e : Int) : roundTo r m e (e - k) = m * 2 ^ k := by
  rw [roundTo, if_pos (by omega), show (e - (e - k)).toNat = k by omega]

/-- Nothing discarded raises nothing. -/
theorem roundsUp_nearest_zero (k : Nat) {den : Nat} (h : 0 < den) : roundsUp .nearest k 0 den = false := by
  have hlt : ¬ den < 2 * 0 := by omega
  have heq : ¬ den = 2 * 0 := by omega
  simp only [roundsUp, decide_eq_false hlt, decide_eq_false heq, Bool.false_and, Bool.or_false]

/-- A multiple of a coarser spacing rounds to that multiple. -/
theorem roundTo_coarser (m k : Nat) (e : Int) : roundTo .nearest (m * 2 ^ k) (e - k) e = m := by
  have hpos := Nat.two_pow_pos k
  rcases Nat.eq_zero_or_pos k with rfl | hk
  · simp [roundTo]
  · rw [roundTo, if_neg (by omega), show (e - (e - k)).toNat = k by omega]
    simp only [Nat.mul_mod_left, Nat.mul_div_cancel _ hpos, roundsUp_nearest_zero _ hpos, if_neg Bool.false_ne_true]

/-- The code of a magnitude other than zero, by the spacing at which it is rounded. -/
theorem roundCode_of_spacing (r : Rounding) {q : Int} (hm : m ≠ 0) (hq : max f.emin ((m.log2 : Int) + e - f.man) = q) :
    roundCode f r m e = (q - f.emin).toNat * 2 ^ f.man + roundTo r m e q := by
  subst hq
  exact if_neg hm

/-- The code of a magnitude that a format holds exactly, from a form with a higher exponent. -/
theorem roundCode_finer (r : Rounding) (k : Nat) (h : f.Canonical (m * 2 ^ k) (e - k)) :
    roundCode f r m e = f.magCode (m * 2 ^ k) (e - k) := by
  by_cases hm : m = 0
  · subst hm
    rw [Nat.zero_mul] at h ⊢
    exact h.magCode_zero.symm
  · have hs := h.spacing (mul_two_pow_ne_zero hm k)
    rw [log2_mul_two_pow hm] at hs
    rw [roundCode_of_spacing r hm (q := e - k) (by omega), roundTo_finer, FloatFmt.magCode]

/-- The code of a magnitude that a format holds exactly, from a form with a lower exponent. -/
theorem roundCode_coarser (k : Nat) (h : f.Canonical m e) : roundCode f .nearest (m * 2 ^ k) (e - k) = f.magCode m e := by
  by_cases hm : m = 0
  · subst hm
    rw [Nat.zero_mul, h.magCode_zero]
    rfl
  · have hs := h.spacing hm
    have hlog := log2_mul_two_pow hm k
    rw [roundCode_of_spacing _ (mul_two_pow_ne_zero hm k) (q := e) (by omega), roundTo_coarser, FloatFmt.magCode]

/-- A conversion of a finite value that does not overflow keeps the sign and gives the rounded code (R48). -/
theorem convert_flt_fin (sat : Bool) (r : Rounding) (neg : Bool) (h : roundCode f r m e ≤ f.maxCode) :
    (convert (.flt f) sat r (.fin neg m e)).bits = signed f neg (roundCode f r m e) := by
  simp [convert, Nat.not_lt.mpr h]

/-! ## What a code decodes to -/

/-- The exponent field and the mantissa in a canonical magnitude's code. -/
theorem FloatFmt.Canonical.fields (h : f.Canonical m e) :
    (f.magCode m e / 2 ^ f.man = 0 ∧ f.magCode m e % 2 ^ f.man = m ∧ e = f.emin) ∨
    (f.magCode m e / 2 ^ f.man = (e - f.emin).toNat + 1 ∧ f.magCode m e % 2 ^ f.man + 2 ^ f.man = m) := by
  obtain ⟨he, hlt, hcase⟩ := h
  rcases Nat.lt_or_ge m (2 ^ f.man) with hsub | hnorm
  · obtain rfl : e = f.emin := hcase.resolve_left (Nat.not_le.mpr hsub)
    simp [FloatFmt.magCode, Nat.div_eq_of_lt hsub, Nat.mod_eq_of_lt hsub]
  · obtain ⟨a, rfl⟩ := Nat.exists_eq_add_of_le hnorm
    have ha : a < 2 ^ f.man := by omega
    have hcode : f.magCode (2 ^ f.man + a) e = 2 ^ f.man * ((e - f.emin).toNat + 1) + a := by
      rw [FloatFmt.magCode, Nat.mul_succ, Nat.mul_comm, Nat.add_assoc]
    right
    rw [hcode, Nat.mul_add_div (Nat.two_pow_pos _), Nat.mul_add_mod, Nat.div_eq_of_lt ha, Nat.mod_eq_of_lt ha]
    omega

/-- Every magnitude code is that of a canonical magnitude. -/
theorem FloatFmt.exists_magCode (f : FloatFmt) (c : Nat) : ∃ m e, f.Canonical m e ∧ f.magCode m e = c := by
  have hmod := Nat.mod_lt c (Nat.two_pow_pos f.man)
  have hsplit := Nat.div_add_mod' c (2 ^ f.man)
  rcases hex : c / 2 ^ f.man with - | n
  · refine ⟨c, f.emin, ⟨Int.le_refl _, ?_, .inr rfl⟩, by simp [FloatFmt.magCode]⟩
    rw [hex] at hsplit
    omega
  · refine ⟨c % 2 ^ f.man + 2 ^ f.man, f.emin + n, ⟨by omega, by omega, .inl (by omega)⟩, ?_⟩
    rw [hex, Nat.succ_mul] at hsplit
    rw [FloatFmt.magCode, show (f.emin + n - f.emin).toNat = n by omega]
    omega

section
variable {c : Nat}

theorem signed_false (f : FloatFmt) (c : Nat) : signed f false c = c := by
  simp [signed, boolNat]

theorem signed_true (f : FloatFmt) (c : Nat) : signed f true c = c + 2 ^ (f.width - 1) := by
  simp [signed, boolNat]

theorem exists_signed (hw : 0 < f.width) {w : Nat} (h : w < 2 ^ f.width) : ∃ neg c, c < 2 ^ (f.width - 1) ∧ w = signed f neg c := by
  have hpow : 2 ^ f.width = 2 ^ (f.width - 1) + 2 ^ (f.width - 1) := by rw [← Nat.mul_two, Nat.two_pow_pred_mul_two hw]
  rcases Nat.lt_or_ge w (2 ^ (f.width - 1)) with hlow | hhigh
  · exact ⟨false, w, hlow, (signed_false f w).symm⟩
  · exact ⟨true, w - 2 ^ (f.width - 1), by omega, by rw [signed_true, Nat.sub_add_cancel hhigh]⟩

theorem signed_lt (hw : 0 < f.width) (neg : Bool) (h : c < 2 ^ (f.width - 1)) : signed f neg c < 2 ^ f.width := by
  have hpow := Nat.two_pow_pred_mul_two hw
  cases neg
  · rw [signed_false]
    omega
  · rw [signed_true]
    omega

theorem signed_mod (neg : Bool) (h : c < 2 ^ (f.width - 1)) : signed f neg c % 2 ^ (f.width - 1) = c := by
  rw [signed, Nat.add_mul_mod_self_right, Nat.mod_eq_of_lt h]

theorem signed_testBit (neg : Bool) (h : c < 2 ^ (f.width - 1)) : (signed f neg c).testBit (f.width - 1) = neg := by
  cases neg
  · rw [signed_false, Nat.testBit_lt_two_pow h]
  · rw [signed_true, Nat.add_comm, Nat.testBit_two_pow_add_eq, Nat.testBit_lt_two_pow h, Bool.not_false]

/-- Bits whose magnitude code is at most the largest finite one decode to the canonical magnitude of that code. -/
theorem decodeVal_finite (hw : 0 < f.width) (neg : Bool) (h : f.Canonical m e) (hlt : f.magCode m e < 2 ^ (f.width - 1)) (hmax : f.magCode m e ≤ f.maxCode) :
    decodeVal (.flt f) (signed f neg (f.magCode m e)) = .fin neg m e := by
  simp only [decodeVal, Nat.mod_eq_of_lt (signed_lt hw neg hlt), signed_mod neg hlt, signed_testBit neg hlt, if_pos hmax]
  rcases h.fields with ⟨hex, hma, rfl⟩ | ⟨hex, hma⟩
  · rw [if_pos hex, hma]
    rfl
  · have he := h.emin_le
    rw [if_neg (by omega), hma, hex]
    simp only [FloatFmt.emin] at he ⊢
    congr 1
    omega

/-- Bits whose magnitude code is beyond the largest finite one are an infinity or NaN. -/
theorem decodeVal_beyond (hw : 0 < f.width) (neg : Bool) (hlt : c < 2 ^ (f.width - 1)) (hmax : f.maxCode < c) :
    decodeVal (.flt f) (signed f neg c) = if f.infCode = some c then .inf neg else .nan := by
  simp only [decodeVal, Nat.mod_eq_of_lt (signed_lt hw neg hlt), signed_mod neg hlt, signed_testBit neg hlt, if_neg (Nat.not_le.mpr hmax)]

end
end

/-! ## FP32 holds the values of the array formats (R53) -/

/-- A significand of FP32 with an exponent up to that of the largest finite value does not overflow. -/
theorem magCode_fmtFP32_le {m : Nat} {e : Int} (hm : m < 2 ^ 24) (he : e ≤ 104) : fmtFP32.magCode m e ≤ fmtFP32.maxCode := by
  change (e - -149).toNat * 0x800000 + m ≤ 0x7F7FFFFF
  omega

theorem maxCode_fmtFP32_lt : fmtFP32.maxCode < 2 ^ (fmtFP32.width - 1) := by decide

/-- A finite value of at most `n` + 1 significant bits within the exponents of FP32 keeps its magnitude in FP32, subnormal or not (R33). -/
theorem ofFP32_toFP32_fin (neg : Bool) {m n : Nat} {e : Int} (hn : n ≤ 23) (hm : m < 2 ^ (n + 1)) (hlo : -149 ≤ e) (hhi : e + n ≤ 127) :
    ∃ k : Nat, ofFP32 (toFP32 (.fin neg m e)) = .fin neg (m * 2 ^ k) (e - k) := by
  have hemin : fmtFP32.emin = -149 := rfl
  have hman : fmtFP32.man = 23 := rfl
  have hm24 : m < 2 ^ (fmtFP32.man + 1) := Nat.lt_of_lt_of_le hm (Nat.pow_le_pow_right (by decide) (by omega))
  obtain ⟨k, hcan, hk⟩ := FloatFmt.exists_canonical hm24 (hemin ▸ hlo)
  have hlog : m.log2 ≤ n := log2_le_of_lt hm
  have hcode := magCode_fmtFP32_le (e := e - k) hcan.lt (by omega)
  have hround := roundCode_finer .nearest k hcan
  refine ⟨k, ?_⟩
  rw [toFP32, convert_flt_fin _ _ _ (hround ▸ hcode), hround]
  exact decodeVal_finite (by decide) neg hcan (Nat.lt_of_le_of_lt hcode maxCode_fmtFP32_lt) hcode

theorem ofFP32_toFP32_inf (neg : Bool) : ofFP32 (toFP32 (.inf neg)) = .inf neg := by
  cases neg <;> decide

/-- The parameters of a format whose finite values FP32 holds: no more mantissa bits, and no lower or higher exponents. -/
def FloatFmt.WithinFP32 (f : FloatFmt) : Prop :=
  0 < f.width ∧ f.man ≤ 23 ∧ -149 ≤ f.emin ∧ -126 ≤ f.bias ∧ (f.maxCode / 2 ^ f.man : Nat) - f.bias ≤ 127

/-- Every code of such a format that is no NaN comes back from FP32. -/
theorem convert_flt_ofFP32_toFP32 {f : FloatFmt} (hf : f.WithinFP32) {w : Nat} (hw : w < 2 ^ f.width) (hnan : decodeVal (.flt f) w ≠ .nan) :
    (convert (.flt f) false .nearest (ofFP32 (toFP32 (decodeVal (.flt f) w)))).bits = w := by
  obtain ⟨hwidth, hman, hlo, hbias, hhi⟩ := hf
  obtain ⟨neg, c, hlt, rfl⟩ := exists_signed hwidth hw
  rcases Nat.lt_or_ge f.maxCode c with hmax | hmax
  · rw [decodeVal_beyond hwidth neg hlt hmax] at hnan ⊢
    split at hnan
    case isTrue hinf => simp [hinf, ofFP32_toFP32_inf, convert]
    case isFalse => exact absurd rfl hnan
  · obtain ⟨m, e, hcan, rfl⟩ := f.exists_magCode c
    have hexp : e + f.man ≤ 127 := by
      have hdiv := Nat.div_le_div_right (c := 2 ^ f.man) hmax
      have hemin : f.emin = 1 - f.bias - f.man := rfl
      rcases hcan.fields with ⟨-, -, rfl⟩ | ⟨hex, -⟩ <;> omega
    obtain ⟨k, hk⟩ := ofFP32_toFP32_fin neg hman hcan.lt (Int.le_trans hlo hcan.emin_le) hexp
    have hround := roundCode_coarser k hcan
    rw [decodeVal_finite hwidth neg hcan hlt hmax, hk, convert_flt_fin _ _ _ (hround ▸ hmax), hround]

/-- A two's complement number is a whole magnitude within its sign's range, which gives its bits again. -/
theorem decodeVal_int {b w : Nat} (hb : 0 < b) (hw : w < 2 ^ b) :
    ∃ neg m, decodeVal (.int b) w = .fin neg m 0 ∧ intBits b neg m = w ∧ m ≤ if neg then 2 ^ (b - 1) else 2 ^ (b - 1) - 1 := by
  have hpow : 2 ^ b = 2 ^ (b - 1) + 2 ^ (b - 1) := by rw [← Nat.mul_two, Nat.two_pow_pred_mul_two hb]
  simp only [decodeVal, Nat.mod_eq_of_lt hw]
  split
  case isTrue hpos => exact ⟨false, w, rfl, rfl, by rw [if_neg Bool.false_ne_true]; omega⟩
  case isFalse hneg =>
    refine ⟨true, 2 ^ b - w, rfl, ?_, by rw [if_pos rfl]; omega⟩
    rw [intBits, if_pos rfl, Nat.sub_sub_self (Nat.le_of_lt hw), Nat.mod_eq_of_lt hw]

/-- Every code of an integer format that FP32 holds comes back from FP32. -/
theorem convert_int_ofFP32_toFP32 {b w : Nat} (hb : 0 < b) (hb24 : b ≤ 24) (hw : w < 2 ^ b) :
    (convert (.int b) false .nearest (ofFP32 (toFP32 (decodeVal (.int b) w)))).bits = w := by
  obtain ⟨neg, m, hdec, hbits, hm⟩ := decodeVal_int hb hw
  have hlt : m < 2 ^ (b - 1 + 1) := by
    have hpos : 0 < 2 ^ (b - 1) := Nat.two_pow_pos _
    rw [Nat.pow_succ]
    split at hm <;> omega
  obtain ⟨k, hk⟩ := ofFP32_toFP32_fin neg (n := b - 1) (e := 0) (by omega) hlt (by decide) (by omega)
  rw [hdec, hk]
  simp only [convert, roundTo_coarser, if_neg (Nat.not_lt.mpr hm), hbits]

/-- The ten array formats (R28) are integers that FP32 holds and floating formats within FP32. -/
theorem formatOf_array {code : Nat} {f : Format} (h : formatOf code = some f) (hc : code < 0xA) :
    (∃ b, f = .int b ∧ 0 < b ∧ b ≤ 24) ∨ ∃ g, f = .flt g ∧ g.WithinFP32 := by
  unfold FloatFmt.WithinFP32
  unfold formatOf at h
  split at h
  iterate 3 exact .inl ⟨_, (Option.some.inj h).symm, by decide⟩
  iterate 7 exact .inr ⟨_, (Option.some.inj h).symm, by decide⟩
  · exact absurd hc (by decide)
  · cases h

/-- Settles O56: an FP32 value holds the magnitude of an array format's value at a lower exponent, and rounds back to it exactly. -/
theorem arrayFormatsSurviveFP32 : Obligations.ArrayFormatsSurviveFP32 := by
  intro code f hf hc w hw hnan
  rcases formatOf_array hf hc with ⟨b, rfl, hpos, hb⟩ | ⟨g, rfl, hg⟩
  · exact convert_int_ofFP32_toFP32 hpos hb hw
  · exact convert_flt_ofFP32_toFP32 hg hw hnan

end Sys2Proof.Machine
end

section
/-! PROOF. A pass of the matrix array: what its streaming and its commit leave as it was, and what its verdict decides (R61 to R68, R75, R82 to R87). -/
namespace Sys2Proof.Machine
open Sys2Proof

/-! ## Counter pairs -/

@[simp] theorem regGet_modTile (s : State) (site a : Nat) (g : Tile → Tile) : regGet (modTile s site g) a = regGet s a := rfl

theorem regGet_regAdd_same (s : State) (a n : Nat) : regGet (regAdd s a n) a = regGet s a + BitVec.ofNat 32 n := regGet_regPut_same ..

theorem regGet_regAdd_other (s : State) (a n b : Nat) (h : b ≠ a) : regGet (regAdd s a n) b = regGet s b := regGet_regPut_other _ _ _ _ h

theorem regGet_reg64Add_other (s : State) (lo n a : Nat) (h : a ≠ lo ∧ a ≠ lo + 4) : regGet (reg64Add s lo n) a = regGet s a := by
  rw [reg64Add, reg64Put, regGet_regPut_other _ _ _ _ h.2, regGet_regPut_other _ _ _ _ h.1]

theorem tileOf_reg64Add (s : State) (lo n i : Nat) : tileOf (reg64Add s lo n) i = tileOf s i := by
  rw [tileOf, reg64Add, reg64Put, regPut_tiles, regPut_tiles, tileOf]

/-- A counter pair advances modulo 2⁶⁴ (R472). -/
theorem reg64_reg64Add_same (s : State) (lo n : Nat) : reg64 (reg64Add s lo n) lo = (reg64 s lo + n) % 2 ^ 64 := by
  have hlo : regGet (reg64Add s lo n) lo = BitVec.ofNat 32 ((reg64 s lo + n) % 2 ^ 64) := by
    rw [reg64Add, reg64Put, regGet_regPut_other _ _ _ _ (by omega), regGet_regPut_same]
  have hhi : regGet (reg64Add s lo n) (lo + 4) = BitVec.ofNat 32 ((reg64 s lo + n) % 2 ^ 64 / 2 ^ 32) := regGet_regPut_same ..
  rw [reg64, hlo, hhi, BitVec.toNat_ofNat, BitVec.toNat_ofNat]
  omega

theorem reg64_congr {s t : State} {lo : Nat} (h : regGet t lo = regGet s lo) (h' : regGet t (lo + 4) = regGet s (lo + 4)) :
    reg64 t lo = reg64 s lo := by
  rw [reg64, reg64, h, h']

/-! ## Rows read where no word is in error -/

/-- A requestor that asks alone stalls nobody (R144, R146). -/
theorem arbitrate_alone (ptr req : Nat) : (arbitrate 1 ptr [req] 0).1 = 0 := by
  unfold arbitrate
  split
  · rfl
  · simp [arbitrate, List.eraseDups_cons]

theorem grant_alone (s : State) (site row req : Nat) : ∃ ptr, grant s site row req [] =
    modTile s site fun t => { t with rot := mset 0 t.rot (bankOf row) ptr } :=
  ⟨_, if_pos (arbitrate_alone _ _)⟩

theorem eccRead_clean (s : State) (site row req : Nat) (h : s.spadErr = []) : eccRead s site row req [] = s := by
  cases s
  cases h
  rfl

theorem tagAt_clean (s : State) (key sector : Nat) (h : NoPoison s) : tagAt s key sector = false := by
  rw [tagAt, h.2]
  decide

theorem areaPoison_clean (s : State) (site base off n : Nat) (h : NoPoison s) : areaPoison s site base off n = false := by
  simp [areaPoison, tagAt_clean s _ _ h]

/-! ## What the streaming of a pass leaves -/

/-- What the streaming of a pass can change: registers of the array block from `lo` up to `hi`, and the rotation pointers of the tile's banks. -/
structure ArrayFrame (site : Site) (lo hi : Nat) (s t : State) : Prop where
  inBlock : hi ≤ 0x1000
  others : ∃ rs ts, t = { s with regs := rs, tiles := ts }
  tile : ∃ r, tileOf t site = { tileOf s site with rot := r }
  regs : ∀ a, a < arrayReg site lo ∨ arrayReg site hi ≤ a → regGet t a = regGet s a

section
variable {site : Site} {lo hi : Nat} {s t u : State}

theorem ArrayFrame.refl (s : State) (h : hi ≤ 0x1000) : ArrayFrame site lo hi s s := ⟨h, ⟨_, _, rfl⟩, ⟨_, rfl⟩, fun _ _ => rfl⟩

theorem ArrayFrame.trans (h : ArrayFrame site lo hi s t) (k : ArrayFrame site lo hi t u) : ArrayFrame site lo hi s u := by
  obtain ⟨hin, ⟨rs, ts, hst⟩, ⟨r, ht⟩, hr⟩ := h
  obtain ⟨-, ⟨rs', ts', htu⟩, ⟨r', hu⟩, hr'⟩ := k
  refine ⟨hin, ⟨rs', ts', ?_⟩, ⟨r', ?_⟩, fun a ha => (hr' a ha).trans (hr a ha)⟩
  · rw [htu, hst]
  · rw [hu, ht]

theorem arrayFrame_regPut (s : State) (off : Nat) (v : Word32) (hhi : hi ≤ 0x1000) (h : lo ≤ off ∧ off < hi) :
    ArrayFrame site lo hi s (regPut s (arrayReg site off) v) :=
  ⟨hhi, ⟨_, _, rfl⟩, ⟨_, rfl⟩, fun a ha => regGet_regPut_other _ _ _ _ (by unfold arrayReg at *; omega)⟩

theorem arrayFrame_reg64Add (s : State) (off n : Nat) (hhi : hi ≤ 0x1000) (h : lo ≤ off ∧ off + 4 < hi) :
    ArrayFrame site lo hi s (reg64Add s (arrayReg site off) n) :=
  (arrayFrame_regPut s off _ hhi (by omega)).trans (arrayFrame_regPut _ (off + 4) _ hhi (by omega))

theorem arrayFrame_grant (s : State) (row req : Nat) (hhi : hi ≤ 0x1000) : ArrayFrame site lo hi s (grant s site row req []) := by
  obtain ⟨ptr, h⟩ := grant_alone s site row req
  rw [h]
  exact ⟨hhi, ⟨_, _, rfl⟩, ⟨_, tileOf_modTile_same ..⟩, fun _ _ => rfl⟩

theorem ArrayFrame.memory (h : ArrayFrame site lo hi s t) : t.spad = s.spad ∧ t.spadTag = s.spadTag ∧ t.spadErr = s.spadErr := by
  obtain ⟨rs, ts, rfl⟩ := h.others
  exact ⟨rfl, rfl, rfl⟩

theorem ArrayFrame.noPoison (h : ArrayFrame site lo hi s t) (hp : NoPoison s) : NoPoison t := by
  obtain ⟨-, htag, herr⟩ := h.memory
  exact ⟨herr ▸ hp.1, htag ▸ hp.2⟩

theorem ArrayFrame.regGet_spadReg (h : ArrayFrame site lo hi s t) (off : Nat) : regGet t (spadReg site off) = regGet s (spadReg site off) :=
  h.regs _ (.inr (by have := h.inBlock; unfold arrayReg spadReg; omega))

theorem ArrayFrame.regGet_hubReg (h : ArrayFrame site lo hi s t) (c off : Nat) : regGet t (hubReg c off) = regGet s (hubReg c off) :=
  h.regs _ (.inr (by have := h.inBlock; have := site.isLt; unfold arrayReg tileBase hubReg; omega))

theorem ArrayFrame.rowKey (h : ArrayFrame site lo hi s t) (row : Nat) : rowKey t site row = rowKey s site row := by
  simp only [Machine.rowKey, physRow, h.regGet_spadReg]

theorem ArrayFrame.areaRead (h : ArrayFrame site lo hi s t) (base off n : Nat) : areaRead t site base off n = areaRead s site base off n := by
  simp only [Machine.areaRead, h.rowKey, h.memory.1]

/-- The hold of a region is judged by its records and the hub's registers (R169). -/
theorem ArrayFrame.siteHeld (h : ArrayFrame site lo hi s t) : siteHeld t site = siteHeld s site := by
  have hlc : ∀ c, logicalCluster t c = logicalCluster s c := fun c => by simp only [logicalCluster, h.regGet_hubReg]
  have hsp : ∀ c, clusterSurplus t c = clusterSurplus s c := fun c => by simp only [clusterSurplus, regBit, h.regGet_hubReg]
  obtain ⟨rs, ts, rfl⟩ := h.others
  simp only [Machine.siteHeld, regionOfSite, regionOfCluster, regionHasSurplus, hlc, hsp]
  rfl

theorem ArrayFrame.banksServe (h : ArrayFrame site lo hi s t) (hb : BanksServe s site) : BanksServe t site := by
  intro row req
  have hbank : bankState t site (bankOf row) = bankState s site (bankOf row) := by
    obtain ⟨r, ht⟩ := h.tile
    rw [bankState, ht]
    rfl
  rw [← hb row req]
  simp only [bankServes, hbank, regBit, h.regGet_spadReg, h.siteHeld]

theorem ArrayFrame.passWeights (h : ArrayFrame site lo hi s t) (f : Fold) (d : BitVec 128) (m : MmaExec) (q : PassAt) :
    passWeights t site f d m q = passWeights s site f d m q := by
  simp only [Machine.passWeights, h.areaRead]

theorem ArrayFrame.passOperands (h : ArrayFrame site lo hi s t) (f : Fold) (d : BitVec 128) (w : Shadow) (q : PassAt) :
    passOperands t site f d w q = passOperands s site f d w q := by
  simp only [Machine.passOperands, h.areaRead]

/-- The rows of a span are granted, and read as they stand. -/
theorem arrayFrame_areaEcc (s : State) (req base off n : Nat) (hhi : hi ≤ 0x1000) (h : s.spadErr = []) :
    ArrayFrame site lo hi s (areaEcc s site req base off n []) := by
  refine List.foldlRecOn _ _ (ArrayFrame.refl s hhi) fun t ht p _ => ?_
  have hg := arrayFrame_grant (site := site) (lo := lo) t p.1 req hhi
  rw [eccRead_clean _ _ _ _ ((ht.trans hg).memory.2.2.trans h)]
  exact ht.trans hg

theorem spansOff_served (hb : BanksServe s site) (spans : List (Nat × Nat × Nat × Nat)) : spansOff s site spans = none := by
  simp [spansOff, areaOff, hb _ _]

/-- Spans that are served and clean are read with status OK. -/
theorem spansRead_clean (hb : BanksServe s site) (hp : NoPoison s) (spans : List (Nat × Nat × Nat × Nat)) (hhi : hi ≤ 0x1000) :
    ∃ t, spansRead s site spans [] = (t, 0) ∧ ArrayFrame site lo hi s t := by
  have hf : ArrayFrame site lo hi s (spans.foldl (fun s p => areaEcc s site p.1 p.2.1 p.2.2.1 p.2.2.2 []) s) :=
    List.foldlRecOn _ _ (ArrayFrame.refl s hhi) fun t ht p _ =>
      ht.trans (arrayFrame_areaEcc t _ _ _ _ hhi (ht.noPoison hp).1)
  refine ⟨_, ?_, hf⟩
  rw [spansRead, spansOff_served hb]
  simp [areaPoison_clean _ _ _ _ _ (hf.noPoison hp)]

end

/-! ## A pass streams into a hold buffer -/

/-- The MMA `n` is the MMA `m` with further passes held. -/
structure MmaExec.Holds (m : MmaExec) (hs : List HeldPass) (n : MmaExec) : Prop where
  seq : n.seq = m.seq
  pass : n.pass = m.pass
  phase : n.phase = m.phase
  held : n.held = m.held ++ hs

/-- The pass that a run of pass `n` leaves in its hold buffer (R59, R80, R85). -/
abbrev heldRun (s : State) (site : Site) (f : Fold) (d : BitVec 128) (m : MmaExec) (n : Nat) : HeldPass :=
  passHold (passOperands s site f d (passWeights s site f d m (passAt f d n)) (passAt f d n)) n (mmaRowchk d)

section
variable {site : Site} {s : State} (hb : BanksServe s site) (hp : NoPoison s) (f : Fold) (d : BitVec 128) (m : MmaExec) (n : Nat)
include hb hp

theorem passEnter_clean (hw : (passWeights s site f d m (passAt f d n)).poison = false) :
    ∃ t m', passEnter s site f d m n [] = (t, 0, m') ∧ ArrayFrame site 0x010 0x018 s t ∧ m.Holds [heldRun s site f d m n] m' := by
  obtain ⟨t, ht, hf⟩ := spansRead_clean hb hp (entrySpans f d m (passAt f d n)) (lo := 0x010) (hi := 0x018) (by decide)
  let m' := { m with
    current := some (passWeights s site f d m (passAt f d n))
    shadow := if mmaWsrc d && !tileInCells m (passAt f d n) then none else m.shadow
    held := m.held ++ [heldRun s site f d m n], tileDue := none }
  refine ⟨_, m', ?_, hf.trans (arrayFrame_reg64Add t 0x010 (passCycles d (passAt f d n).rows (decide (n + 1 = passesOf f d))) (by decide) (by decide)),
    ⟨rfl, rfl, rfl, rfl⟩⟩
  simp [passEnter, ht, hf.passWeights, hf.passOperands, hw, m']

theorem passEnter_poisoned (hw : (passWeights s site f d m (passAt f d n)).poison = true) :
    ∃ t, passEnter s site f d m n [] = (t, 8, m) := by
  obtain ⟨t, ht, hf⟩ := spansRead_clean hb hp (entrySpans f d m (passAt f d n)) (lo := 0x010) (hi := 0x018) (by decide)
  exact ⟨t, by simp [passEnter, ht, hf.passWeights, hw]⟩

/-- The next pass enters the second hold buffer or stays outside; either way the command stands where it stood. -/
theorem passAhead_holds : ∃ t m' hs, passAhead s site f d m [] = (t, m') ∧ ArrayFrame site 0x010 0x018 s t ∧ m.Holds hs m' := by
  have hstay : ∃ t m' hs, (s, m) = (t, m') ∧ ArrayFrame site 0x010 0x018 s t ∧ m.Holds hs m' :=
    ⟨s, m, [], rfl, ArrayFrame.refl s (by decide), ⟨rfl, rfl, rfl, (List.append_nil _).symm⟩⟩
  unfold passAhead
  dsimp only
  split
  · cases hw : (passWeights s site f d m (passAt f d (m.pass + 1))).poison
    · obtain ⟨t, m', he, hf, hm⟩ := passEnter_clean hb hp f d m (m.pass + 1) hw
      exact ⟨t, m', _, by simp only [he], hf, hm⟩
    · obtain ⟨t, he⟩ := passEnter_poisoned hb hp f d m (m.pass + 1) hw
      rw [he]
      exact hstay
  · exact hstay

end

/-! ## The freeze counters -/

/-- A freeze changes its counters and no other register (R75). -/
theorem arrayFrame_countFreezes (s : State) (site : Site) (z : Freezes) :
    ArrayFrame site 0x018 0x02C s (countFreezes s site z) := by
  have h := arrayFrame_reg64Add (site := site) (lo := 0x018) (hi := 0x02C) s 0x018 z.total (by decide) (by decide)
  exact ((h.trans (arrayFrame_regPut _ 0x020 _ (by decide) (by decide))).trans
    (arrayFrame_regPut _ 0x024 _ (by decide) (by decide))).trans (arrayFrame_regPut _ 0x028 _ (by decide) (by decide))

/-- The freeze counters of a tile's array at `t` are those at `s`, advanced by the cycles of a freeze (R75). -/
def FreezesCounted (s : State) (site : Site) (z : Freezes) (t : State) : Prop :=
  reg64 t (arrayReg site 0x018) = (reg64 s (arrayReg site 0x018) + z.total) % 2 ^ 64 ∧
  regGet t (arrayReg site 0x020) = regGet s (arrayReg site 0x020) + BitVec.ofNat 32 z.feed ∧
  regGet t (arrayReg site 0x024) = regGet s (arrayReg site 0x024) + BitVec.ofNat 32 z.wload ∧
  regGet t (arrayReg site 0x028) = regGet s (arrayReg site 0x028) + BitVec.ofNat 32 z.drain

theorem countFreezes_counts (s : State) (site : Site) (z : Freezes) : FreezesCounted s site z (countFreezes s site z) := by
  unfold FreezesCounted countFreezes
  refine ⟨?_, ?_, ?_, ?_⟩
  · rw [← reg64_reg64Add_same]
    apply reg64_congr <;> simp [regGet_regAdd_other, arrayReg]
  all_goals simp [regGet_regAdd_same, regGet_regAdd_other, regGet_reg64Add_other, arrayReg]

/-- The count stands while nothing else writes the freeze counters. -/
theorem FreezesCounted.congr {s t u : State} {site : Site} {z : Freezes} (h : FreezesCounted s site z t)
    (k : ∀ off, 0x018 ≤ off → off < 0x02C → regGet u (arrayReg site off) = regGet t (arrayReg site off)) : FreezesCounted s site z u := by
  obtain ⟨htotal, hfeed, hwload, hdrain⟩ := h
  refine ⟨?_, (k _ (by decide) (by decide)).trans hfeed, (k _ (by decide) (by decide)).trans hwload, (k _ (by decide) (by decide)).trans hdrain⟩
  rw [reg64_congr (k 0x018 (by decide) (by decide)) (k 0x01C (by decide) (by decide)), htotal]

/-! ## The commit of a pass -/

/-- What the drain changes as it writes a pass: rows and their tags, the rotation pointers of the tile's banks, and CR_VFLAGS. No stored word is in error afterwards. -/
structure DrainFrame (site : Site) (s t : State) : Prop where
  regs : t.regs = s.regs
  clean : t.spadErr = []
  tile : ∃ r v, tileOf t site = { tileOf s site with rot := r, vflags := v }

section
variable {site : Site} {s t u : State}

theorem DrainFrame.refl (h : s.spadErr = []) : DrainFrame site s s := ⟨rfl, h, ⟨_, _, rfl⟩⟩

theorem DrainFrame.trans (h : DrainFrame site s t) (k : DrainFrame site t u) : DrainFrame site s u := by
  obtain ⟨r, v, ht⟩ := h.tile
  obtain ⟨r', v', hu⟩ := k.tile
  exact ⟨k.regs.trans h.regs, k.clean, ⟨r', v', by rw [hu, ht]⟩⟩

theorem drainFrame_setVflags (sat inv : Bool) (h : s.spadErr = []) : DrainFrame site s (setVflags s site sat inv) :=
  ⟨rfl, h, ⟨_, _, tileOf_modTile_same ..⟩⟩

theorem drainFrame_grant (row req : Nat) (h : s.spadErr = []) : DrainFrame site s (grant s site row req []) := by
  obtain ⟨ptr, hg⟩ := grant_alone s site row req
  rw [hg]
  exact ⟨rfl, h, ⟨_, _, tileOf_modTile_same ..⟩⟩

theorem drainFrame_setRowTags (key : Nat) (tags : BitVec 8) (h : s.spadErr = []) : DrainFrame site s (setRowTags s key tags) :=
  List.foldlRecOn _ _ (DrainFrame.refl h) fun _ ht _ _ => ⟨ht.regs, ht.clean, ht.tile⟩

theorem drainFrame_rowStore (key off : Nat) (bytes : List Byte) (tags : BitVec 8) (h : s.spadErr = []) :
    DrainFrame site s (rowStore s key off bytes tags) := by
  have hm : mdrop s.spadErr (key * 64) 64 = [] := by rw [h]; rfl
  have hs : DrainFrame site s { s with spad := memWrite s.spad (key * 512 + off) bytes, spadErr := mdrop s.spadErr (key * 64) 64 } :=
    ⟨rfl, hm, ⟨_, _, rfl⟩⟩
  exact hs.trans (drainFrame_setRowTags key tags hs.clean)

theorem drainFrame_areaPatch (req base off : Nat) (bytes : List Byte) (h : s.spadErr = []) :
    DrainFrame site s (areaPatch s site req base off [] bytes) := by
  refine List.foldlRecOn (motive := fun a : State × List Byte => DrainFrame site s a.1) _ _ (DrainFrame.refl h) fun a ha p _ => ?_
  have hg := drainFrame_grant (site := site) p.1 req ha.clean
  have hread : DrainFrame site a.1 (if p.2.2 - p.2.1 = 512 then a.1 else eccRead (grant a.1 site p.1 req []) site p.1 req []) := by
    split
    · exact DrainFrame.refl ha.clean
    · rw [eccRead_clean _ _ _ _ hg.clean]
      exact hg
  exact ((ha.trans hread).trans (drainFrame_grant p.1 req hread.clean)).trans
    (drainFrame_rowStore _ _ _ _ (drainFrame_grant p.1 req hread.clean).clean)

theorem drainFrame_drainRows (base off stride : Nat) (rows : List (List Byte)) (h : s.spadErr = []) :
    DrainFrame site s (drainRows s site base off stride [] rows) := by
  unfold drainRows
  split
  · exact drainFrame_areaPatch _ _ _ _ h
  · exact List.foldlRecOn _ _ (DrainFrame.refl h) fun t ht _ _ => ht.trans (drainFrame_areaPatch _ _ _ _ ht.clean)

/-- A commit is the work of the drain and one more pass in ARR_PASS_COUNT (R68, R98). -/
theorem passCommit_eq (f : Fold) (d : BitVec 128) (q : PassAt) (out : List (List (List Word32))) (h : s.spadErr = []) :
    ∃ u, DrainFrame site s u ∧ passCommit s site f d q [] out =
      modTile (reg64Add u (arrayReg site 0x040) 1) site fun t => { t with passNo := t.passNo + 1 } := by
  refine ⟨_, ?_, rfl⟩
  dsimp only
  split
  · split
    · exact DrainFrame.refl h
    · have hv := drainFrame_setVflags (site := site) (s := s)
      exact (hv _ _ h).trans (drainFrame_drainRows _ _ _ _ (hv _ _ h).clean)
  · exact drainFrame_drainRows _ _ _ _ h

end


/-! ## The verdict on a first run -/

/-- A first run of a pass as its verdict finds it, `h` in its hold buffer: the freezes are counted, and every other register of the array but ARR_ACTIVE, the scratchpad and the queue are as they were. -/
structure FirstRun (site : Site) (z : Freezes) (m : MmaExec) (h : HeldPass) (s t : State) (m' : MmaExec) : Prop where
  freezes : FreezesCounted s site z t
  regs : ∀ off, off < 0x010 ∨ 0x02C ≤ off → regGet t (arrayReg site off) = regGet s (arrayReg site off)
  spad : t.spad = s.spad
  spadTag : t.spadTag = s.spadTag
  spadErr : t.spadErr = s.spadErr
  arrayQ : (tileOf t site).arrayQ = (tileOf s site).arrayQ
  seq : m'.seq = m.seq
  pass : m'.pass = m.pass
  phase : m'.phase = .first
  held : ∃ hs, m'.held = h :: hs

theorem firstRun_of_frame {site : Site} {s t : State} {z : Freezes} {m m' : MmaExec} {h : HeldPass} {hs : List HeldPass}
    (hphase : m.phase = .first) (hheld : m.held = []) (ht : ArrayFrame site 0x010 0x018 (countFreezes s site z) t)
    (hm : m.Holds (h :: hs) m') : FirstRun site z m h s t m' := by
  have hz := arrayFrame_countFreezes s site z
  obtain ⟨hd, hg, he⟩ := ht.memory
  obtain ⟨hd', hg', he'⟩ := hz.memory
  obtain ⟨r, htile⟩ := ht.tile
  obtain ⟨r', htile'⟩ := hz.tile
  refine ⟨?_, fun off hoff => ?_, hd.trans hd', hg.trans hg', he.trans he', ?_, hm.seq, hm.pass, hm.phase.trans hphase, hs, ?_⟩
  · exact (countFreezes_counts s site z).congr fun off hlo hhi => ht.regs _ (by unfold arrayReg; omega)
  · rw [ht.regs _ (by unfold arrayReg; omega), hz.regs _ (by unfold arrayReg; omega)]
  · rw [htile, htile']
  · rw [hm.held, hheld, List.nil_append]

/-- The first run of a pass streams in, its successor with it where a hold buffer is free, and comes to its verdict. -/
theorem passRun_first (site : Site) (s : State) (f : Fold) (d : BitVec 128) (m : MmaExec) (faults : List CellFault) (z : Freezes)
    (hb : BanksServe s site) (hp : NoPoison s) (hphase : m.phase = .first) (hheld : m.held = [])
    (hw : (passWeights s site f d m (passAt f d m.pass)).poison = false) :
    ∃ t m', passRun s site f d m faults z [] = passJudge t site f d m' faults [] ∧ FirstRun site z m (heldRun s site f d m m.pass) s t m' := by
  have hz := arrayFrame_countFreezes s site z
  have hdue : entryDue m = true := by simp [entryDue, hphase, hheld]
  obtain ⟨s1, m1, he, hf1, hm1⟩ := passEnter_clean (hz.banksServe hb) (hz.noPoison hp) f d m m.pass (by rw [hz.passWeights]; exact hw)
  have hb1 := hf1.banksServe (hz.banksServe hb)
  have hp1 := hf1.noPoison (hz.noPoison hp)
  obtain ⟨s2, m2, hs, ha, hf2, hm2⟩ := passAhead_holds hb1 hp1 f d m1
  obtain ⟨s3, hr, hf3⟩ := spansRead_clean (hf2.banksServe hb1) (hf2.noPoison hp1) (drainSpans f d (passAt f d m2.pass)) (lo := 0x010) (hi := 0x018) (by decide)
  have hrun : heldRun (countFreezes s site z) site f d m m.pass = heldRun s site f d m m.pass := by
    rw [heldRun, hz.passWeights, hz.passOperands]
  refine ⟨s3, m2, ?_, firstRun_of_frame (hs := hs) hphase hheld ((hf1.trans hf2).trans hf3) ?_⟩
  · simp [passRun, hdue, he, ha, spansOff_served (hf2.banksServe hb1), hr]
  · exact ⟨hm2.seq.trans hm1.seq, hm2.pass.trans hm1.pass, hm2.phase.trans hm1.phase,
      by rw [hm2.held, hm1.held, hrun, List.append_assoc, List.singleton_append]⟩

/-- What a commit does after the verdict on a pass: ARR_PASS_COUNT counts it, and the MMA goes to its next pass, or its entry is done with status OK (R68, R85, R98). -/
structure PassCommitted (site : Site) (f : Fold) (d : BitVec 128) (m : MmaExec) (s t : State) : Prop where
  count : reg64 t (arrayReg site 0x040) = (reg64 s (arrayReg site 0x040) + 1) % 2 ^ 64
  regs : ∀ off, off < 0x03C → regGet t (arrayReg site off) = regGet s (arrayReg site off)
  next : m.pass + 1 < passesOf f d → ∃ m', (tileOf t site).mma = some m' ∧ m'.phase = .first ∧ m'.pass = m.pass + 1
  last : m.pass + 1 = passesOf f d → (tileOf t site).arrayQ.entries =
    (tileOf s site).arrayQ.entries.map fun e => if e.seq = m.seq then { e with prog := .done 0 } else e

section
variable (s : State) (site : Site) (f : Fold) (d : BitVec 128) (m : MmaExec)

theorem passNext_regGet (a : Nat) : regGet (passNext s site f d m) a = regGet s a := by
  unfold passNext
  split <;> rfl

theorem passNext_next (h : m.pass + 1 < passesOf f d) :
    ∃ m', (tileOf (passNext s site f d m) site).mma = some m' ∧ m'.phase = .first ∧ m'.pass = m.pass + 1 := by
  rw [passNext, if_neg (by omega)]
  exact ⟨_, by rw [setMma, tileOf_modTile_same], rfl, rfl⟩

theorem setProg_arrayQ (t : Tile) (seq : BitVec 16) (p : Progress) :
    (setProg t .array seq p).arrayQ.entries = t.arrayQ.entries.map fun e => if e.seq = seq then { e with prog := p } else e := rfl

theorem passNext_last (h : m.pass + 1 = passesOf f d) : (tileOf (passNext s site f d m) site).arrayQ.entries =
    (tileOf s site).arrayQ.entries.map fun e => if e.seq = m.seq then { e with prog := .done 0 } else e := by
  rw [passNext, if_pos h, mmaStop, setProgS, tileOf_modTile_same, setProg_arrayQ, setMma, tileOf_modTile_same]
  rfl

/-- A pass that agrees at once is committed (R85). -/
theorem passAgrees_first (hp : s.spadErr = []) (h : HeldPass) : PassCommitted site f d m s (passAgrees s site f d m none [] h) := by
  obtain ⟨u, hu, hc⟩ := passCommit_eq (site := site) f d (passAt f d m.pass) (heldColumns h (realColumns f d (passAt f d m.pass))) hp
  obtain ⟨r, v, ht⟩ := hu.tile
  have hreg : ∀ a, regGet u a = regGet s a := fun a => by rw [regGet, hu.regs, regGet]
  rw [passAgrees, hc]
  refine ⟨?_, fun off hoff => ?_, passNext_next _ _ _ _ _, fun hl => ?_⟩
  · rw [reg64_congr (passNext_regGet ..) (passNext_regGet ..), reg64_congr (regGet_modTile ..) (regGet_modTile ..), reg64_reg64Add_same,
      reg64_congr (hreg _) (hreg _)]
  · rw [passNext_regGet, regGet_modTile, regGet_reg64Add_other _ _ _ _ (by unfold arrayReg; omega), hreg]
  · have htile : (tileOf u site).arrayQ = (tileOf s site).arrayQ := by rw [ht]
    rw [passNext_last _ _ _ _ _ hl, tileOf_modTile_same, ← htile, tileOf_reg64Add]

/-- A disagreement in a first run commits nothing and repeats the pass from empty hold buffers (R86). -/
theorem passDisagrees_first (kind : Nat) (h : m.phase = .first) :
    ∃ m', passDisagrees s site d m kind = setMma s site m' ∧ m'.phase = .repeated kind ∧ m'.pass = m.pass ∧ m'.held = [] := by
  rw [passDisagrees, h]
  exact ⟨_, rfl, rfl, rfl, rfl⟩

variable (faults : List CellFault) (events : List RowEvent) (a : HeldPass) (hs : List HeldPass)
  (hphase : m.phase = .first) (hheld : m.held = a :: hs) (hrow : mmaRowchk d = false) (hctrl : regBit s (arrayReg site 0) 8 = false)

/-- The run of a pass with the faults met in it, as its verdict finds it (R82). -/
abbrev judgedRun : HeldPass :=
  corrupted a (realColumns f d (passAt f d m.pass)) (physCol (regGet s (arrayReg site 0))) faults

/-- The column check's verdict on that run (R82 to R84). -/
abbrev judgedVerdict : Verdict :=
  columnVerdict (mmaInt32 d) (unscaledInts d) (realColumns f d (passAt f d m.pass)) (judgedRun s site f d m faults a)

include hphase hheld hctrl

theorem passJudge_disagrees (hv : judgedVerdict s site f d m faults a = .disagree) :
    passJudge s site f d m faults events = passDisagrees s site d m 1 := by
  have hctrl' : rbit (regGet s (arrayReg site 0)) 8 = false := hctrl
  simp [passJudge, hphase, hheld, hctrl', hv]

include hrow

theorem passJudge_agrees (hv : judgedVerdict s site f d m faults a ≠ .disagree) :
    ∃ u, (u = s ∨ u = regAdd s (arrayReg site 0x03C) 1) ∧
      passJudge s site f d m faults events = passAgrees u site f d m none events (judgedRun s site f d m faults a) := by
  have hctrl' : rbit (regGet s (arrayReg site 0)) 8 = false := hctrl
  cases hc : judgedVerdict s site f d m faults a with
  | agree => exact ⟨s, .inl rfl, by simp [passJudge, hphase, hheld, hctrl', hrow, hc, PassPhase.kind]⟩
  | disagree => exact absurd hc hv
  | skipped => exact ⟨_, .inr rfl, by simp [passJudge, hphase, hheld, hctrl', hc, PassPhase.kind]⟩

/-- A pass that agrees, or whose check is skipped, is committed (R84, R85). -/
theorem passJudge_committed (hp : s.spadErr = []) (hv : judgedVerdict s site f d m faults a ≠ .disagree) :
    PassCommitted site f d m s (passJudge s site f d m faults []) := by
  obtain ⟨u, hu, he⟩ := passJudge_agrees s site f d m faults [] a hs hphase hheld hrow hctrl hv
  have hreg : ∀ off, off ≠ 0x03C → regGet u (arrayReg site off) = regGet s (arrayReg site off) := by
    intro off hoff
    rcases hu with rfl | rfl
    · rfl
    · exact regGet_regAdd_other _ _ _ _ (by unfold arrayReg; omega)
  have hrest : u.spadErr = [] ∧ tileOf u site = tileOf s site := by
    rcases hu with rfl | rfl <;> exact ⟨hp, rfl⟩
  rw [he]
  obtain ⟨hcount, hregs, hnext, hlast⟩ := passAgrees_first u site f d m hrest.1 (judgedRun s site f d m faults a)
  refine ⟨?_, fun off hoff => ?_, hnext, fun hl => ?_⟩
  · rw [hcount, reg64_congr (hreg 0x040 (by decide)) (hreg 0x044 (by decide))]
  · rw [hregs off hoff, hreg off (by omega)]
  · rw [hlast hl, hrest.2]

end

/-- PASS_VERDICT of a started MMA with local weights runs its pass. -/
theorem passVerdict_runs (site : Site) (m : MmaExec) (e : QEntry) (f : Fold) (faults : List CellFault) (z : Freezes)
    (events : List RowEvent) (s : State) (hon : clusterOn s (siteCluster site) = true) (hmma : (tileOf s site).mma = some m)
    (hstart : m.started = true) (he : mmaEntry (tileOf s site) m = some e) (hprog : e.prog = .running)
    (hf : foldOf s site e.desc = some f) (hsrc : mmaWsrc e.desc = false) :
    Answers (.passVerdict site faults z events) s (settlePins (passRun s site f e.desc m faults z events)) := by
  have hx : exec (.passVerdict site faults z events) s = execPassVerdict site faults z events s := rfl
  have hready : passReady e.desc f m = true := by simp [passReady, tileReady, hstart, hsrc]
  rw [Answers, hx]
  simp [execPassVerdict, hmma, he, hf, hon, hprog, hready, answer]

theorem mem_of_mmaEntry {t : Tile} {m : MmaExec} {e : QEntry} (h : mmaEntry t m = some e) : e ∈ t.arrayQ.entries ∧ e.seq = m.seq :=
  ⟨List.mem_of_find?_eq_some h, by simpa using List.find?_some h⟩

section
variable {site : Site} {z : Freezes} {m m' : MmaExec} {h : HeldPass} {s t : State} (hr : FirstRun site z m h s t m')
include hr

theorem FirstRun.passCount : reg64 t (arrayReg site 0x040) = reg64 s (arrayReg site 0x040) :=
  reg64_congr (hr.regs 0x040 (by decide)) (hr.regs 0x044 (by decide))

theorem FirstRun.columnChecked (hctrl : regBit s (arrayReg site 0) 8 = false) : regBit t (arrayReg site 0) 8 = false := by
  rw [regBit, hr.regs 0 (by decide)]
  exact hctrl

/-- The verdict rests on the pass and the column skip that stood before the run. -/
theorem FirstRun.verdict (f : Fold) (d : BitVec 128) (faults : List CellFault) :
    judgedVerdict t site f d m' faults h = judgedVerdict s site f d m faults h := by
  rw [judgedVerdict, judgedRun, hr.pass, hr.regs 0 (by decide)]

/-- A disagreeing first run leaves the scratchpad and ARR_PASS_COUNT, and repeats its pass with empty hold buffers (R86). -/
theorem FirstRun.repeats (f : Fold) (d : BitVec 128) (faults : List CellFault) (hctrl : regBit s (arrayReg site 0) 8 = false)
    (hv : judgedVerdict s site f d m faults h = .disagree) :
    ∃ n, passJudge t site f d m' faults [] = setMma t site n ∧ n.phase = .repeated 1 ∧ n.pass = m.pass ∧ n.held = [] := by
  obtain ⟨hs, hheld⟩ := hr.held
  obtain ⟨n, hn, hphase, hpass, hempty⟩ := passDisagrees_first t site d m' 1 hr.phase
  rw [passJudge_disagrees t site f d m' faults [] h hs hr.phase hheld (hr.columnChecked hctrl) ((hr.verdict f d faults).trans hv)]
  exact ⟨n, hn, hphase, hpass.trans hr.pass, hempty⟩

/-- Any other first run is committed (R84, R85). -/
theorem FirstRun.commits (f : Fold) (d : BitVec 128) (faults : List CellFault) (hctrl : regBit s (arrayReg site 0) 8 = false)
    (hrow : mmaRowchk d = false) (hclean : s.spadErr = []) (hv : judgedVerdict s site f d m faults h ≠ .disagree) :
    PassCommitted site f d m' t (passJudge t site f d m' faults []) := by
  obtain ⟨hs, hheld⟩ := hr.held
  exact passJudge_committed t site f d m' faults h hs hr.phase hheld hrow (hr.columnChecked hctrl) (hr.spadErr.trans hclean)
    (by rw [hr.verdict]; exact hv)

/-- The last commit of an MMA leaves its entry done with status OK. -/
theorem FirstRun.ends {f : Fold} {d : BitVec 128} {u : State} {e : QEntry} (hc : PassCommitted site f d m' t u)
    (he : mmaEntry (tileOf s site) m = some e) (hl : m.pass + 1 = passesOf f d) :
    ∃ x ∈ (tileOf u site).arrayQ.entries, x.seq = e.seq ∧ x.prog = .done 0 := by
  obtain ⟨hmem, hseq⟩ := mem_of_mmaEntry he
  refine ⟨{ e with prog := .done 0 }, ?_, rfl, rfl⟩
  rw [hc.last (by rw [hr.pass]; exact hl), hr.arrayQ]
  exact List.mem_map.mpr ⟨e, hmem, if_pos (hseq.trans hr.seq.symm)⟩

end

/-- Settles O14: the pass streams in beside its freeze counters (`passRun_first`), and the verdict on its run repeats it (`FirstRun.repeats`) or commits it (`FirstRun.commits`). -/
theorem passVerdictCommitsOrRepeats : Obligations.PassVerdictCommitsOrRepeats := by
  intro site m e f faults z s hon hmma hstart hphase hheld he hprog hf hsrc hrow hb hp hctrl hw q creal p run verdict
  obtain ⟨t, m', hrun, hr⟩ := passRun_first site s f e.desc m faults z hb hp hphase hheld hw
  have hanswer := passVerdict_runs site m e f faults z [] s hon hmma hstart he hprog hf hsrc
  rw [hrun] at hanswer
  have hverdict : judgedVerdict s site f e.desc m faults (heldRun s site f e.desc m m.pass) = verdict := by
    rw [judgedVerdict, judgedRun, heldRun, hrow]
  by_cases hv : verdict = .disagree
  · obtain ⟨n, hn, hnphase, hnpass, hnheld⟩ := hr.repeats f e.desc faults hctrl (hverdict.trans hv)
    rw [hn] at hanswer
    obtain ⟨htotal, hfeed, hwload, hdrain⟩ := hr.freezes
    have hmma' : (tileOf (settlePins (setMma t site n)) site).mma = some n := by rw [tileOf_settlePins, setMma, tileOf_modTile_same]
    exact ⟨_, hanswer, htotal, hfeed, hwload, hdrain,
      fun _ => ⟨hr.spad, hr.spadTag, hr.passCount, n, hmma', hnphase, hnpass, hnheld⟩, fun hne => absurd hv hne⟩
  · have hc := hr.commits f e.desc faults hctrl hrow hp.1 (by rw [hverdict]; exact hv)
    obtain ⟨htotal, hfeed, hwload, hdrain⟩ := hr.freezes.congr fun off _ hhi => hc.regs off (by omega)
    have hends := hr.ends hc he
    exact ⟨_, hanswer, htotal, hfeed, hwload, hdrain, fun h => absurd h hv,
      fun _ => ⟨by rw [← hr.passCount]; exact hc.count, by rw [← hr.pass]; exact hc.next, hends⟩⟩

end Sys2Proof.Machine
end
